-- ==== Sys2Proof/Word.lean ====
section
/-! DEFINITION. The plainest types of the Zalfen Z42 model: bytes, data units, blocks, and the index
types of its tables. A block is B bytes, held as its data units of 512 bytes each (R55). -/

namespace Sys2Proof

/-- One byte of a message. -/
abbrev Byte := BitVec 8

/-- One data unit: 512 bytes of a logical block, enciphered as one unit (R55). -/
abbrev DataUnit := BitVec 4096

/-- One logical block: its B/512 data units in the order of its bytes (R55). -/
abbrev Block := List DataUnit

/-- The 512 bits of a region's key material: the enciphering half and the tweak half (R45). -/
abbrev KeyMaterial := BitVec 512

/-- A digest of the derivation unit: its 32 bytes (R77, R81), and a tag that is the model's own and no part
of the hardware. The tag keeps the digests of different secrets different, as R81 says they are, which 32
bytes alone cannot for every secret of up to 64 bytes. No reply or transfer carries a digest.
DESIGN CHOICE (safe): notes/assumptions/10.md. -/
structure Digest where
  bytes : BitVec 256
  tag : List Byte
  deriving DecidableEq, Repr

/-- A region index, 0 to 15 (R25). -/
abbrev RegionIx := Fin 16

/-- A media operation slot, 0 to 15 (R61). -/
abbrev SlotIx := Fin 16

/-- A credential index, 0 to 7; 0 is the administrator (R77). -/
abbrev CredIx := Fin 8

/-- A tamper line, TL0 to TL3 (R115). -/
abbrev LineIx := Fin 4

/-- A response source, 0 to 8 (R133). -/
abbrev SourceIx := Fin 9

/-- The three trigger groups of the tamper lines (R115). -/
inductive Group
  | a
  | b
  | enclosure
  deriving DecidableEq, Repr

/-- The five requesters of the commit queue (R166). -/
inductive Requester
  | credential
  | management
  | response
  | timeBase
  | scrub
  deriving DecidableEq, Repr

end Sys2Proof
end

