-- ==== Sys2Proof/Syntax.lean ====
section
/-! DEFINITION. The commands of the Z42: one constructor for each row of spec/opcode_table.json, with
the operands the spec's rules give it. Operands that cross the upstream port in a message field are
bit vectors of the field's width (chapter 12), so that a value the owning block must refuse can be
written down. Operands of physical events (levels, voltage, random bits) stand for what the part's
inputs give it at that event. -/

namespace Sys2Proof

inductive Instr
  -- power and start-up
  /-- Power-good rises (R99). -/
  | powerGoodRise
  /-- Power-good falls (R99). -/
  | powerGoodFall
  /-- The store read of start-up step 1 ends (R100). -/
  | storeReadEnd
  -- requests of the upstream port (section 1.1)
  /-- A READ of `count` blocks from LBA `start` under `tag`. -/
  | read (tag : BitVec 8) (start : BitVec 48) (count : BitVec 17)
  /-- A WRITE; `data` is the write data standing at the front-end, block by block. -/
  | write (tag : BitVec 8) (start : BitVec 48) (count : BitVec 17) (data : List Block)
  /-- A DISCARD. -/
  | discard (tag : BitVec 8) (start : BitVec 48) (count : BitVec 17)
  /-- A FLUSH; its S and N fields are ignored (R4). -/
  | flush (tag : BitVec 8)
  /-- A MANAGE-SEND carrying the bytes of one request message. -/
  | manageSend (tag : BitVec 8) (message : List Byte)
  /-- A MANAGE-FETCH. -/
  | manageFetch (tag : BitVec 8)
  /-- A link reset. -/
  | linkReset
  -- downstream port
  /-- A data message naming an operation number and a block offset (R68). -/
  | mediaData (operation : BitVec 32) (offset : BitVec 17) (block : Block)
  /-- A completion message with a result of GOOD (`true`) or FAILED (R68). -/
  | mediaCompletion (operation : BitVec 32) (good : Bool)
  /-- The seconds remaining of a slot reach 0 (R70). -/
  | mediaTimeout (slot : SlotIx)
  /-- The arbiter grants the oldest waiting host segment (R66). -/
  | segmentIssue
  /-- The arbiter grants the offered scrub chunk (R67). -/
  | chunkIssue
  -- time
  /-- A second tick (R125). -/
  | secondTick
  /-- The second count reaches 60 (R127). -/
  | minuteCounted
  /-- The mark count reaches Q (R128). -/
  | qMark
  /-- A credential's back-off count reaches 0 (R90). -/
  | backoffEnd (credential : CredIx)
  /-- The revert back-off count reaches 0 (R162). -/
  | revertBackoffEnd
  /-- A sample tick; bit n of `levels` is the level at TLn, 1 for high (R116). -/
  | sampleTick (levels : BitVec 4)
  /-- A trigger group gives an event (R117). -/
  | tamperEvent (group : Group)
  /-- A trigger group re-arms (R118). -/
  | groupRearm (group : Group)
  /-- The slow source is seen running (R124). -/
  | slowSourceRunning
  /-- 2 s run out without the slow source seen running (R126). -/
  | timeFaultNeverStarted
  /-- 1.5 s run out in SLOW without a slow second tick (R126). -/
  | timeFaultStopped
  -- random source, derivation unit, secure store
  /-- The random source has gathered its start-up sample (R48). -/
  | randomSourceReady
  /-- The draw in service ends with these bits (R48). -/
  | randomDrawEnd (bits : BitVec 512)
  /-- The running derivation ends (R81). -/
  | derivationEnd
  /-- A conversion ends; `nanovolts` is the sense voltage it sampled at its start (R168). -/
  | conversionEnd (nanovolts : BitVec 32)
  /-- The gate passes the head unit (R167). -/
  | commitWriteStart
  /-- The write of the head unit ends (R167). -/
  | commitWriteEnd
  /-- A unit waiting inside its requester is submitted (R166). -/
  | deferredUnitSubmit (requester : Requester)
  -- blocks' own steps
  /-- The destruction step of a region's crypto-erase (R50). -/
  | keyDestruction (region : RegionIx)
  /-- The free response controller takes a pending entry (R136). -/
  | responseTake
  /-- The scrub engine starts the walk of the head (R155). -/
  | scrubWalkStart
  -- management requests (section 12.2)
  | statusQuery
  | present (credential : BitVec 8) (readMask writeMask : BitVec 16) (options : BitVec 8)
      (secret : List Byte)
  | lock (readMask writeMask : BitVec 16) (forget : BitVec 8)
  | setSecret (credential : BitVec 8) (cost : BitVec 8) (secret : List Byte)
  | removeCredential (credential : BitVec 8)
  | grant (user region rights : BitVec 8)
  | setLimit (credential limit : BitVec 8)
  | resetAttempts (credential : BitVec 8)
  | defineRegion (region enable : BitVec 8) (start length : BitVec 48)
      (powerOnRead powerOnWrite conceal absorb : BitVec 8)
  | ratchet (regions : BitVec 16) (regionSet deviceSet : BitVec 8)
  | setResponse (source level severity : BitVec 8)
  | eraseOrder (regions : BitVec 16) (level : BitVec 8)
  | setTamper (line enable polarity debounce : BitVec 8)
  | clearTamper (lines : BitVec 8)
  | setDeadline (dp : BitVec 16) (dn q : BitVec 8)
  | setHoldup (gateMode threshold conversionTime : BitVec 8)
  | setScrubShare (share : BitVec 8)
  | setMediaTimeout (seconds : BitVec 8)
  | setWindow (enable : BitVec 8) (w : BitVec 32)
  | beginLoad
  | endLoad (imageLength : BitVec 32)
  | setLabel (text : List Byte)
  | retireWindow
  /-- FETCH-ALERTS with the trigger level it carries, if any (R178). -/
  | fetchAlerts (triggerLevel : Option (BitVec 8))
  | revert (scrub : BitVec 8) (code : List Byte)
  /-- A request whose kind is outside the six transfer kinds (R3). -/
  | requestOfUnknownKind (tag : BitVec 8)
  deriving DecidableEq, Repr

end Sys2Proof
end

