-- ==== Sys2Proof/Decode.lean ====
section
/-! DEFINITION. The command a table word spells. The Z42 takes commands, not encoded instructions, and no
row of spec/opcode_table.json gives bits, so no word spells one. -/

namespace Sys2Proof

/-- The command that a word spells by the table's bits: none, since no row has any.
DESIGN CHOICE (safe): notes/assumptions/3.md. -/
def decodeTableWord (_nbits _w : Nat) : Option Instr := none

end Sys2Proof
end

