-- ==== Sys2Proof/Config.lean ====
section
/-! DEFINITION. What the spec leaves without a value the model could compute: the cipher, the
derivation digest, and the key the cipher path would use where none is loaded. None has a body, so a
statement about the model holds whatever they are. -/

namespace Sys2Proof.Config

/-- AES-256 in XTS mode on one data unit, as the manual uses it: a keyed, tweaked, invertible
transformation of 512 bytes (chapter 3, R55, R56). Applying it enciphers; its inverse deciphers.
DESIGN CHOICE (safe): notes/assumptions/10.md. -/
opaque cipher : KeyMaterial → BitVec 128 → Equiv.Perm DataUnit

/-- FREE VALUE. The 32 bytes that the derivation unit hands back for a salt, a cost and a secret (R81).
DESIGN CHOICE (safe): notes/assumptions/10.md. -/
opaque digestBytes : BitVec 128 → Nat → List Byte → BitVec 256

/-- The tag of a digest, the model's own (Digest): for one salt and one cost, two secrets have the same tag
exactly if they are the same (what an embedding of equality into equality says).
DESIGN CHOICE (safe): notes/assumptions/10.md. -/
opaque digestTag : BitVec 128 → Nat → @Eq (List Byte) ↪r @Eq (List Byte)

/-- The derivation unit's digest of a salt, a cost and a secret (R81).
DESIGN CHOICE (safe): notes/assumptions/10.md. -/
def derive (salt : BitVec 128) (cost : Nat) (secret : List Byte) : Digest :=
  ⟨digestBytes salt cost secret, digestTag salt cost secret⟩

/-- FREE VALUE. The key the cipher path works with for a region whose cipher key store entry is
empty. The rules never let data of such a region reach the path (R52, R56, R58).
DESIGN CHOICE (safe): notes/assumptions/11.md. -/
opaque absentKey : RegionIx → KeyMaterial

/-- FREE VALUE. The content of a block that a front-end or media message does not carry although its
count says it does, by operation and offset (section 1.1, R68). -/
opaque absentBlock : Nat → Nat → Block

/-- FREE VALUE. Whether the part delivers zero fill for a CIPHER segment of a READ that a link reset abandons: R56
says that it is delivered, R23 that no further data of a discarded transfer is.
DESIGN CHOICE (safe): notes/assumptions/48.md. -/
opaque fillsAbandoned : Bool

end Sys2Proof.Config
end

