-- ==== Sys2Proof/Machine/State.lean ====
section
/-! DEFINITION. The state of the Z42, block by block as section 1.2 of the scope chapter lists them,
and its value at the first power-on after manufacture. Plain data only. Persistent records stand in
two copies, `stored` (the secure store) and `work` (the blocks' working copies), as R77, R45 and R127
describe; every other field is volatile. -/

namespace Sys2Proof.Machine

/-! ### Enumerations (section 12.1 gives their order) -/

inductive Mode | factory | armed | lockdown
  deriving DecidableEq, Repr
inductive WindowState | off | shown | retired | loading
  deriving DecidableEq, Repr
inductive Condition | unused | normal | scrubQueued | scrubbing
  deriving DecidableEq, Repr
inductive Level | none | alert | relock | erase | scrub
  deriving DecidableEq, Repr
inductive Severity | low | high
  deriving DecidableEq, Repr
inductive GrantRights | none | read | write | both
  deriving DecidableEq, Repr
inductive Polarity | rising | falling | both
  deriving DecidableEq, Repr
inductive GateMode | off | onDemand | continuous
  deriving DecidableEq, Repr
/-- The conversion times 12, 24, 48 and 96 µs (R168). -/
inductive ConversionTime | us12 | us24 | us48 | us96
  deriving DecidableEq, Repr
inductive TimeSource | awaiting | slow | faulted
  deriving DecidableEq, Repr
/-- Result codes of replies (section 11.3). -/
inductive ResultCode
  | done | notPresented | badSecret | backingOff | exhausted | lockdown | notFound | badRequest
  | range | overlap | ratcheted | scrubActive | responseActive | storeUnsafe | busy
  deriving DecidableEq, Repr
/-- The value of a right (section 2.3). -/
inductive Right | locked | opened
  deriving DecidableEq, Repr
/-- The two rights of a region (section 2.3). -/
inductive RightKind | read | write
  deriving DecidableEq, Repr
/-- Transfer statuses (section 1.1). -/
inductive Status
  | good | locked | windowReadOnly | scrubbing | outOfRange | badRequest | tagInUse | mgmtBusy
  | mediaError | mediaTimeout
  deriving DecidableEq, Repr

/-! ### Fixed at manufacture -/

/-- B (as data units per block: 1 for 512, 8 for 4096) and C, fixed at manufacture (scope, section 2). -/
structure Geometry where
  unitsPerBlock : Nat
  capacity : Nat
  deriving DecidableEq, Repr

/-- What is fused at manufacture: the device root key (R45) and the revert code (R162). -/
structure Fuses where
  rootKey : BitVec 256
  revertCode : List Byte
  deriving DecidableEq, Repr

/-! ### Persistent records -/

/-- The range [start, start + length) of a region 1 to 15 (R25). -/
structure Extent where
  start : Nat
  length : Nat
  deriving DecidableEq, Repr

/-- The region ratchets (R42). -/
structure RegionRatchets where
  fixedBounds : Bool
  fixedGrants : Bool
  fixedFlags : Bool
  theftWipe : Bool
  deriving DecidableEq, Repr

/-- The device ratchets (R43). -/
structure DeviceRatchets where
  fixedResponses : Bool
  fixedTamper : Bool
  fixedDeadlines : Bool
  deriving DecidableEq, Repr

/-- The persistent fields of a region record (R25). -/
structure RegionRecord where
  enabled : Bool
  extent : Option Extent
  powerOnRead : Right
  powerOnWrite : Right
  conceal : Bool
  absorb : Bool
  condition : Condition
  ratchets : RegionRatchets
  faultCount : Nat
  deriving DecidableEq, Repr

/-- Key material wrapped under a device root key. The integrity value of the wrapping is represented
by the root key it was made with: the check passes exactly when it is the part's own (R45, R53). -/
structure WrappedKey where
  material : KeyMaterial
  integrity : BitVec 256
  deriving DecidableEq, Repr

/-- The persistent fields of a key record (R45). -/
structure KeyRecord where
  generation : Nat
  material : Option WrappedKey
  deriving DecidableEq, Repr

/-- Salt, verifier and cost of a present credential (R77). -/
structure Verifier where
  salt : BitVec 128
  digest : Digest
  cost : Nat
  deriving DecidableEq, Repr

/-- One entry of a grant list (R78). -/
structure GrantEntry where
  region : RegionIx
  rights : GrantRights
  deriving DecidableEq, Repr

/-- The persistent fields of a credential record; `secret` is absent when the credential is not
present (R77). -/
structure CredentialRecord where
  secret : Option Verifier
  counter : Nat
  limit : Nat
  grants : List GrantEntry
  deriving DecidableEq, Repr

/-- One entry of the response table (R133). -/
structure ResponseEntry where
  level : Level
  severity : Severity
  deriving DecidableEq, Repr

/-- The in-progress record (R145). Sources and regions are masks: bit n names index n. -/
structure InProgress where
  sources : BitVec 16
  level : Level
  mask : BitVec 16
  erased : BitVec 16
  relockDone : Bool
  deriving DecidableEq, Repr

/-- The last-response record (R147). -/
structure LastResponse where
  sources : BitVec 16
  level : Level
  mask : BitVec 16
  stamp : Nat
  count : Nat
  deriving DecidableEq, Repr

/-- An entry of the scrub list: a region and the cursor of its walk (R150, R153). -/
structure ScrubEntry where
  region : RegionIx
  cursor : Nat
  deriving DecidableEq, Repr

/-- The configuration of a tamper line (R115). Levels are `true` for high. -/
structure LineConfig where
  enabled : Bool
  polarity : Polarity
  idle : Bool
  debounce : Nat
  deriving DecidableEq, Repr

/-- The hold-up settings (R168). -/
structure HoldupSettings where
  gate : GateMode
  threshold : Nat
  time : ConversionTime
  deriving DecidableEq, Repr

/-- The window settings (R107). -/
structure WindowSettings where
  enabled : Bool
  w : Nat
  l : Nat
  deriving DecidableEq, Repr

/-- P, Np and the deadline settings (R127). -/
structure DeadlineRecord where
  p : Nat
  np : Nat
  q : Nat
  dp : Nat
  dn : Nat
  deriving DecidableEq, Repr

/-- Every persistent record of the part (R100 step 1, R165). -/
structure Records where
  regions : Vector RegionRecord 16
  keys : Vector KeyRecord 16
  credentials : Vector CredentialRecord 8
  revertCounter : Nat
  mode : Mode
  deviceRatchets : DeviceRatchets
  /-- Entry n is source n + 1; ORDER has none (R133). -/
  responseTable : Vector ResponseEntry 8
  inProgress : Option InProgress
  lastResponse : LastResponse
  scrubList : List ScrubEntry
  lines : Vector LineConfig 4
  deadlines : DeadlineRecord
  holdup : HoldupSettings
  window : WindowSettings
  label : List Byte
  scrubShare : Nat
  mediaTimeout : Nat
  deriving DecidableEq, Repr

/-! ### Region table and key slots, volatile part -/

/-- The volatile fields of a region record (R25). -/
structure RegionStatus where
  read : Right
  write : Right
  eraseHold : Bool
  admitted : Nat
  deriving DecidableEq, Repr

/-- An occupied entry of the cipher key store (section 3.4). -/
structure LoadedKey where
  generation : Nat
  material : KeyMaterial
  deriving DecidableEq, Repr

/-- The volatile part of a key slot; its state is LOADED exactly while `loaded` holds a key (R52). -/
structure KeySlot where
  highestDrawn : Nat
  loaded : Option LoadedKey
  deriving DecidableEq, Repr

/-! ### Work in flight: requests carried by the blocks -/

/-- What a PRESENT carries while it is in progress (section 5.4); `id` names its management request. -/
structure PresentRequest where
  id : Nat
  credential : CredIx
  readMask : BitVec 16
  writeMask : BitVec 16
  retire : Bool
  deriving DecidableEq, Repr

/-- What a SET-SECRET carries while it is in progress (R93). `arms` says that it is credential 0's,
taken in mode FACTORY: its unit writes mode ARMED if FACTORY has not ended before it is written (R93, R104). -/
structure SecretRequest where
  id : Nat
  credential : CredIx
  secret : List Byte
  cost : Nat
  arms : Bool
  deriving DecidableEq, Repr

/-- What a DEFINE-REGION writes when it enables or changes a region (section 2.7). -/
structure RegionFields where
  extent : Option Extent
  powerOnRead : Right
  powerOnWrite : Right
  conceal : Bool
  absorb : Bool
  deriving DecidableEq, Repr

inductive DefineKind
  | enabling (fields : RegionFields)
  | change (fields : RegionFields)
  | disabling
  deriving DecidableEq, Repr

/-- The DEFINE-REGION in progress (R37 to R40). -/
structure DefineRequest where
  id : Nat
  region : RegionIx
  kind : DefineKind
  deriving DecidableEq, Repr

/-- The party that began a crypto-erase (section 9.1). -/
inductive Party | response | disabling | revert
  deriving DecidableEq, Repr

/-- The stages of a crypto-erase (section 9.1), with the wait of R149 for a disabling. DESTROYED names the
generation whose draw it awaits (R49, R150). -/
inductive EraseStage
  | waitDisabling
  | begun
  | destroyed (generation : Nat)
  | committing
  deriving DecidableEq, Repr

structure EraseOperation where
  region : RegionIx
  party : Party
  scrub : Bool
  stage : EraseStage
  deriving DecidableEq, Repr

/-- Why the key slot table draws material (R49). -/
inductive DrawUse
  | enabling
  | erase (party : Party)
  deriving DecidableEq, Repr

/-- A draw of the random source, by its requester (R48). -/
inductive Draw
  | key (region : RegionIx) (generation : Nat) (use : DrawUse)
  | salt (request : SecretRequest)
  deriving DecidableEq, Repr

structure RandomSource where
  ready : Bool
  /-- Draws requested, the first in service. -/
  queue : List Draw
  /-- Second draws held back inside their requester. -/
  waiting : List Draw
  deriving DecidableEq, Repr

/-- What the running derivation is for (R81): a presentation charged to `counter`, or a new secret. -/
inductive DerivationUse
  | present (request : PresentRequest) (counter : Nat)
  | secret (request : SecretRequest)
  deriving DecidableEq, Repr

structure Derivation where
  salt : BitVec 128
  cost : Nat
  secret : List Byte
  use : DerivationUse
  deriving DecidableEq, Repr

/-! ### Secure store -/

/-- A submitted commit unit with what its requester needs at the answer (R165). -/
inductive CommitUnit
  | charge (request : PresentRequest) (secret : List Byte)
  | revertCharge (id : Nat) (scrub : Bool) (code : List Byte)
  | refund (request : PresentRequest)
  | secret (request : SecretRequest) (verifier : Verifier)
  | regionDefinition (request : DefineRequest)
  | remove (id : Nat) (credential : CredIx)
  | grant (id : Nat) (credential : CredIx) (region : RegionIx) (rights : GrantRights)
  | limit (id : Nat) (credential : CredIx) (limit : Nat)
  | resetAttempts (id : Nat) (credential : CredIx)
  | ratchet (id : Nat) (mask : BitVec 16) (regionSet : RegionRatchets) (deviceSet : DeviceRatchets)
  | responseBegin
  | keyDestruction (region : RegionIx)
  | responseEnd
  | countReset
  | checkpoint
  | finish
  | deadlineCharge
  | setResponse (id : Nat) (source : SourceIx) (entry : ResponseEntry)
  | setTamper (id : Nat) (line : LineIx) (config : LineConfig)
  | setDeadline (id : Nat) (dp dn q : Nat)
  | setHoldup (id : Nat) (settings : HoldupSettings)
  | setWindow (id : Nat) (enable : Bool) (w : Nat)
  | imageLength (id : Nat) (l : Nat)
  | label (id : Nat) (text : List Byte)
  | scrubShare (id : Nat) (share : Nat)
  | mediaTimeout (id : Nat) (seconds : Nat)
  | revert (id : Nat) (scrub : Bool)
  deriving DecidableEq, Repr

structure SecureStore where
  /-- The commit queue, head first (R166). -/
  queue : List CommitUnit
  /-- While the head is being written: the store's contents once the write ends (R167). -/
  writing : Option Records
  /-- The head has met the gate and waits for a conversion end (R169). -/
  headWaiting : Bool
  /-- Units waiting inside a requester that still holds one (R166). -/
  deferred : List CommitUnit
  deriving DecidableEq, Repr

/-- The volatile state of the hold-up monitor (R168), with the change held by SET-HOLDUP (R171). -/
structure HoldupMonitor where
  converting : Bool
  latestCode : Nat
  lowCount : Nat
  episodeLow : Bool
  changePending : Bool
  deriving DecidableEq, Repr

/-! ### Transfer admission and media port -/

inductive TransferKind | read | write | discard | flush
  deriving DecidableEq, Repr

inductive Owner
  | window
  | region (r : RegionIx)
  deriving DecidableEq, Repr

inductive Disposition
  | cipher | zero | absorb | image | imageWrite | plain
  | refuse (status : Status)
  deriving DecidableEq, Repr

inductive SegmentState | waiting | atMedia | done
  deriving DecidableEq, Repr

/-- A segment record (section 1.3). -/
structure Segment where
  first : Nat
  count : Nat
  owner : Option Owner
  disposition : Disposition
  generation : Nat
  imageBlocks : Nat
  state : SegmentState
  status : Status
  deriving DecidableEq, Repr

/-- A transfer entry (section 1.2). `data` is the write data that stands at the front-end. -/
structure Transfer where
  tag : Nat
  kind : TransferKind
  start : Nat
  count : Nat
  segments : List Segment
  outstanding : Nat
  merged : Status
  mergedFrom : Nat
  data : List Block
  deriving DecidableEq, Repr

/-- A scrub chunk (R63, R153). -/
structure Chunk where
  region : RegionIx
  first : Nat
  count : Nat
  generation : Nat
  deriving DecidableEq, Repr

/-- Where a formed chunk stands (R153). -/
inductive ChunkPlace | offered | atMedia | reissue
  deriving DecidableEq, Repr

structure FormedChunk where
  chunk : Chunk
  place : ChunkPlace
  deriving DecidableEq, Repr

inductive Occupant
  | segment (tag : Nat) (index : Nat)
  | chunk (chunk : Chunk)
  deriving DecidableEq, Repr

inductive MediaKind | read | write | deallocate | flush
  deriving DecidableEq, Repr

/-- The record of a BUSY slot (R61). `arrived` holds the blocks whose data has arrived, by offset, in
the form the holding area keeps them (R56). -/
structure SlotRecord where
  occupant : Occupant
  kind : MediaKind
  /-- First media LBA and block count; absent for FLUSH. -/
  range : Option Extent
  operation : BitVec 32
  seconds : Nat
  arrived : List (Nat × Block)
  deriving DecidableEq, Repr

structure MediaPort where
  /-- The segment queue, oldest first: tag and place in the segment list (R62). -/
  queue : List (Nat × Nat)
  slots : Vector (Option SlotRecord) 16
  acc : Nat
  credit : Nat
  nextOperation : BitVec 32
  deriving DecidableEq, Repr

inductive ScrubPhase | idle | held | walking | finishing
  deriving DecidableEq, Repr
inductive ScrubCommit | none | checkpoint | finish
  deriving DecidableEq, Repr

/-- The volatile state of the scrub engine (R153). The cursor is the head entry's. -/
structure ScrubEngine where
  phase : ScrubPhase
  walkGeneration : Nat
  /-- Issue position; `none` is END. -/
  issue : Option Nat
  formed : List FormedChunk
  commitHeld : ScrubCommit
  checkpoint : Nat
  /-- Of the formed chunks at the media, those issued before a crypto-erase of their region, or a REVERT, was
  answered done: stale, whatever their generation (R153, R157, R163). The model's own.
  DESIGN CHOICE (unsafe): notes/assumptions/53.md. -/
  earlier : List Chunk
  deriving DecidableEq, Repr

/-! ### Credential engine, start-up, window, tamper, time -/

/-- The volatile fields of a credential record (R77). -/
structure CredentialStatus where
  presented : Bool
  backoff : Nat
  deriving DecidableEq, Repr

/-- The start-up controller (section 6.1): STARTING with the step reached, or RUNNING. In STARTING
the only steps the controller rests at are 1 (the store read), 5 (the first sample) and 6 (the
response controller's answer). -/
inductive Phase | reading | sampling | resuming | running
  deriving DecidableEq, Repr

structure StartUp where
  powerGood : Bool
  portReady : Bool
  phase : Phase
  deriving DecidableEq, Repr

/-- The volatile state of the boot window (R107). -/
structure BootWindow where
  state : WindowState
  changePending : Bool
  deriving DecidableEq, Repr

/-- The working state of a tamper line (R115). -/
structure LineStatus where
  latched : Bool
  level : Bool
  run : Nat
  deriving DecidableEq, Repr

structure TamperBlock where
  lines : Vector LineStatus 4
  /-- Whether each group is ARMED (else RESTING). -/
  armedA : Bool
  armedB : Bool
  armedEnclosure : Bool
  changePending : Bool
  deriving DecidableEq, Repr

/-- What the monitor saw of the crystal before step 2 began (R124, R126). -/
inductive EarlyCrystal | nothing | running | late
  deriving DecidableEq, Repr

structure TimeBase where
  source : TimeSource
  stamp : Nat
  early : EarlyCrystal
  deriving DecidableEq, Repr

/-- The volatile state of the deadline counters (R127). -/
structure DeadlineStatus where
  seconds : Nat
  marks : Nat
  chargeHeld : Bool
  changePending : Bool
  deriving DecidableEq, Repr

/-! ### Response controller -/

/-- An entry of the pending set (R135). -/
structure PendingTrigger where
  source : SourceIx
  level : Level
  severity : Severity
  mask : BitVec 16
  repeats : Nat
  deriving DecidableEq, Repr

inductive ResponsePhase | recording | erasing | closing
  deriving DecidableEq, Repr

/-- The running record (R137). -/
structure RunningResponse where
  sources : BitVec 16
  level : Level
  severity : Severity
  relockDue : Bool
  relockDone : Bool
  mask : BitVec 16
  erased : BitVec 16
  current : Option RegionIx
  phase : ResponsePhase
  repeats : Nat
  deriving DecidableEq, Repr

structure ResponseController where
  triggers : List PendingTrigger
  running : Option RunningResponse
  /-- Released by step 6 of the start-up sequence (R102). -/
  released : Bool
  /-- The start-up controller still waits for the controller's answer (R146). -/
  answerDue : Bool
  /-- The working count of responses ended (R147). -/
  count : Nat
  countResetDue : Bool
  changePending : Bool
  deriving DecidableEq, Repr

/-! ### Management channel and alerts -/

inductive AlertKind
  | tamper | deadline | attempts | timeFault | responseBegun | responseDone | scrubDone | scrubFault
  | holdupLow | storeUnsafe | reverted
  deriving DecidableEq, Repr

/-- An alert record (section 11.5). -/
structure Alert where
  kind : AlertKind
  severity : Severity
  source : Option SourceIx
  mask : Option (BitVec 16)
  value : Option Nat
  stamp : Nat
  repeats : Nat
  deriving DecidableEq, Repr

/-- The alert queue, its holding entry, the overrun indication, the trigger level and the attention
line (R177 to R179). -/
structure AlertQueue where
  queue : List Alert
  holding : Option Alert
  overrun : Bool
  triggerLevel : Nat
  attention : Bool
  deriving DecidableEq, Repr

inductive SlotState | idle | working | replyReady
  deriving DecidableEq, Repr

/-- A reply: the kind byte echoed, the result and the body bytes (R182). -/
structure Reply where
  kind : Byte
  result : ResultCode
  body : List Byte
  deriving DecidableEq, Repr

/-- The management slot and reply buffer (R173). `current` is the number of the current request; a
request in progress under another number is detached (R175). -/
structure ManagementChannel where
  slot : SlotState
  buffer : Option Reply
  current : Option Nat
  nextId : Nat
  deriving DecidableEq, Repr

/-! ### What the part sends -/

/-- Read data as it is delivered: zero fill, or blocks (R17). -/
inductive ReadData
  | zeros (count : Nat)
  | blocks (data : List Block)
  deriving DecidableEq, Repr

/-- What the part sends on its two ports, in the order it sends it. -/
inductive PortEvent
  /-- A completion on the upstream port (R1). -/
  | completion (tag : Nat) (status : Status)
  /-- Read data of one segment, at its block offset within the transfer (R17). -/
  | readData (tag : Nat) (offset : Nat) (data : List ReadData)
  /-- The Z42 takes a segment's write data from the upstream port (R15). -/
  | dataTaken (tag : Nat) (offset count : Nat)
  /-- The message a MANAGE-FETCH delivers (R22). -/
  | reply (tag : Nat) (message : List Byte)
  /-- A media operation on the downstream port (R66, R67). -/
  | mediaOperation (operation : BitVec 32) (slot : SlotIx) (kind : MediaKind) (range : Option Extent)
      (data : List Block)
  /-- An operation abort (R70). -/
  | operationAbort (operation : BitVec 32)
  /-- The media abort of a link reset, naming all operations (R72). -/
  | mediaAbort
  deriving DecidableEq, Repr

/-! ### The state -/

@[ext]
structure State where
  geometry : Geometry
  fuses : Fuses
  stored : Records
  work : Records
  regions : Vector RegionStatus 16
  boundary : List Nat
  keys : Vector KeySlot 16
  random : RandomSource
  transfers : List Transfer
  port : MediaPort
  credentials : Vector CredentialStatus 8
  revertBackoff : Nat
  derivation : Option Derivation
  startUp : StartUp
  window : BootWindow
  tamper : TamperBlock
  time : TimeBase
  deadlines : DeadlineStatus
  response : ResponseController
  erases : List EraseOperation
  scrub : ScrubEngine
  define : Option DefineRequest
  /-- The revert-in-progress flag (R163). -/
  reverting : Bool
  /-- Number and scrub option of the REVERT the revert operation carries out (R162). -/
  revertRequest : Option (Nat × Bool)
  store : SecureStore
  holdup : HoldupMonitor
  management : ManagementChannel
  alerts : AlertQueue
  /-- Requests that stand at the upstream port until port ready (R1), oldest first. -/
  offered : List Instr
  /-- What the latest command made the part send. -/
  sent : List PortEvent
  /-- The commands waiting to be run, first in first out. -/
  pending : List Instr
  deriving DecidableEq, Repr

/-- No command of the Z42 stops with a fault: every rule gives a next state (see NOTES.md). -/
inductive Fault
  deriving DecidableEq, Repr

inductive Refusal
  /-- Raised by a dispatch arm that has no meaning yet (no arm does); safe. -/
  | notModelled (mnemonic : String)
  deriving DecidableEq, Repr

/-! ### Factory values -/

def noRegionRatchets : RegionRatchets := ⟨false, false, false, false⟩
def noDeviceRatchets : DeviceRatchets := ⟨false, false, false⟩

/-- A region record in factory state (R25): region 0 enabled and NORMAL, the others UNUSED. -/
def factoryRegion (enabled : Bool) : RegionRecord where
  enabled := enabled
  extent := none
  powerOnRead := .locked
  powerOnWrite := .locked
  conceal := false
  absorb := false
  condition := if enabled then .normal else .unused
  ratchets := noRegionRatchets
  faultCount := 0

def factoryRegions : Vector RegionRecord 16 :=
  (Vector.replicate 16 (factoryRegion false)).set 0 (factoryRegion true)

/-- A credential record in factory state (R77). -/
def factoryCredential (limit : Nat) : CredentialRecord where
  secret := none
  counter := 0
  limit := limit
  grants := []

def factoryCredentials : Vector CredentialRecord 8 :=
  (Vector.replicate 8 (factoryCredential 5)).set 0 (factoryCredential 10)

/-- The factory response table (R133): ADMIN-ATTEMPTS at RELOCK and HIGH, the others at ALERT and LOW. -/
def factoryResponseTable : Vector ResponseEntry 8 :=
  (Vector.replicate 8 ⟨.alert, .low⟩).set 0 ⟨.relock, .high⟩

/-- The last-response record holding no response and a count of 0 (R147): no sources, level NONE, an empty
mask, stamp 0.
DESIGN CHOICE (unsafe): notes/assumptions/46.md. -/
def noResponse : LastResponse := ⟨0, .none, 0, 0, 0⟩

def factoryLine : LineConfig := ⟨false, .rising, false, 16⟩
def factoryDeadlines : DeadlineRecord := ⟨0, 0, 15, 0, 0⟩
def factoryHoldup : HoldupSettings := ⟨.onDemand, 160, .us24⟩
def factoryWindow : WindowSettings := ⟨false, 2048, 0⟩
def factoryLabel : List Byte := List.replicate 64 0

/-- The key records at manufacture (R45): generation 1, material in slot 0 only. -/
def factoryKeys (slot0 : WrappedKey) : Vector KeyRecord 16 :=
  (Vector.replicate 16 ⟨1, none⟩).set 0 ⟨1, some slot0⟩

/-- The secure store at manufacture (R165). -/
def factoryRecords (slot0 : WrappedKey) : Records where
  regions := factoryRegions
  keys := factoryKeys slot0
  credentials := factoryCredentials
  revertCounter := 0
  mode := .factory
  deviceRatchets := noDeviceRatchets
  responseTable := factoryResponseTable
  inProgress := none
  lastResponse := noResponse
  scrubList := []
  lines := Vector.replicate 4 factoryLine
  deadlines := factoryDeadlines
  holdup := factoryHoldup
  window := factoryWindow
  label := factoryLabel
  scrubShare := 4
  mediaTimeout := 30

/-- The key slots as power-on finds them: nothing loaded, highest drawn at the stored generation
(R45). -/
def keysAtPowerOn (r : Records) : Vector KeySlot 16 :=
  ⟨(r.keys.toList.map fun k => ({ highestDrawn := k.generation, loaded := none } : KeySlot)).toArray,
    by simp⟩

/-- The state the rise of power-good leaves: every volatile item at its power-on value, the start-up
controller in STARTING at step 1 with port ready deasserted (R99). Working copies stand at the stored
values from the rise on; step 1 reads them (R100).
DESIGN CHOICE (safe): notes/assumptions/12.md. DESIGN CHOICE (unsafe): notes/assumptions/39.md. -/
def State.atPowerOn (geometry : Geometry) (fuses : Fuses) (stored : Records) (offered pending : List Instr) :
    State where
  geometry := geometry
  fuses := fuses
  stored := stored
  work := stored
  regions := Vector.replicate 16 ⟨.locked, .locked, false, 0⟩
  boundary := []
  keys := keysAtPowerOn stored
  random := ⟨false, [], []⟩
  transfers := []
  port := ⟨[], Vector.replicate 16 none, 0, 0, 0⟩
  credentials := Vector.replicate 8 ⟨false, 0⟩
  revertBackoff := 0
  derivation := none
  startUp := ⟨true, false, .reading⟩
  window := ⟨.off, false⟩
  tamper := ⟨Vector.replicate 4 ⟨false, false, 0⟩, false, false, false, false⟩
  time := ⟨.awaiting, 0, .nothing⟩
  deadlines := ⟨0, 0, false, false⟩
  response := ⟨[], none, false, false, stored.lastResponse.count, false, false⟩
  erases := []
  scrub := ⟨.idle, 0, none, [], .none, 0, []⟩
  define := none
  reverting := false
  revertRequest := none
  store := ⟨[], none, false, []⟩
  holdup := ⟨false, 0, 0, false, false⟩
  management := ⟨.idle, none, none, 0⟩
  alerts := ⟨[], none, false, 1, false⟩
  offered := offered
  sent := []
  pending := pending

/-- The Z42 right after its first rise of power-good: the secure store holds the factory state (R100).
The capacity, the block size, the root key, the revert code and slot 0's first key are values of the
part at hand that the spec does not give; here C = 65,536 blocks of B = 512 bytes.
DESIGN CHOICE (unsafe): notes/assumptions/7.md. DESIGN CHOICE (unsafe): notes/assumptions/8.md. -/
def State.reset : State :=
  State.atPowerOn ⟨1, 65536⟩ ⟨0, List.replicate 32 0⟩ (factoryRecords ⟨0, 0⟩) [] []

end Sys2Proof.Machine
end

