-- ==== Sys2Proof/Machine/Tables.lean ====
section
/-! DEFINITION. Helpers over the part's fixed tables (vectors) and index masks, and the constant lists
of their indices. Written over lists so that the kernel evaluates them. -/

namespace Sys2Proof.Machine

def allRegions : List RegionIx := [0, 1, 2, 3, 4, 5, 6, 7, 8, 9, 10, 11, 12, 13, 14, 15]
def allSlots : List SlotIx := [0, 1, 2, 3, 4, 5, 6, 7, 8, 9, 10, 11, 12, 13, 14, 15]
def allCredentials : List CredIx := [0, 1, 2, 3, 4, 5, 6, 7]
def allLines : List LineIx := [0, 1, 2, 3]

/-- Every entry of a table replaced by its image. -/
def tabMap {α β : Type} {n : Nat} (f : α → β) (v : Vector α n) : Vector β n :=
  ⟨(v.toList.map f).toArray, by simp⟩

/-- A list with each entry replaced, its index counted from `i`. -/
def mapFrom {α β : Type} (f : Nat → α → β) : Nat → List α → List β
  | _, [] => []
  | i, x :: xs => f i x :: mapFrom f (i + 1) xs

theorem length_mapFrom {α β : Type} (f : Nat → α → β) (xs : List α) :
    ∀ i, (mapFrom f i xs).length = xs.length := by
  induction xs with
  | nil => intro i; rfl
  | cons x xs ih => intro i; simp [mapFrom, ih]

/-- Every entry of a table replaced by its image, which may depend on the index. -/
def tabMapIx {α β : Type} {n : Nat} (f : Nat → α → β) (v : Vector α n) : Vector β n :=
  ⟨(mapFrom f 0 v.toList).toArray, by simp [length_mapFrom]⟩

/-- Whether bit n of a 16-bit mask is set. -/
def inMask (mask : BitVec 16) (n : Nat) : Bool := mask.getLsbD n

/-- The mask that names index n alone. -/
def bit (n : Nat) : BitVec 16 := 1#16 <<< n

/-- The mask of the listed indices that pass a test. -/
def maskOf (test : RegionIx → Bool) : BitVec 16 :=
  (allRegions.filter test).foldl (fun m r => m ||| bit r.val) 0

/-- The lowest index named by a mask. -/
def lowest (mask : BitVec 16) : Option RegionIx := allRegions.find? fun r => inMask mask r.val

/-- One more, up to a cap. -/
def saturate (cap n : Nat) : Nat := min cap (n + 1)

/-- The nearest value of the range `lo` to `hi` (clamping, scope section 3). -/
def clamp (lo hi n : Nat) : Nat := max lo (min hi n)

/-- Back-off after a failure with charged counter `a`: min(2^(a−1), 64) s (R90). -/
def backoffFor (a : Nat) : Nat := if 7 ≤ a then 64 else 2 ^ (a - 1)

end Sys2Proof.Machine
end

