-- ==== Sys2Proof/Machine/Flags.lean ====
section
/-! DEFINITION. What the part shows outside: the events it sends on its ports, the alert queue with its
holding entry and overrun indication (R177), and the attention line (R179). -/

namespace Sys2Proof.Machine

/-- The part sends something on a port. -/
def State.send (e : PortEvent) (s : State) : State := { s with sent := s.sent ++ [e] }

/-- The start of a command: nothing sent yet. -/
def State.quiet (s : State) : State := { s with sent := [] }

/-- The alert count: entries of the queue, plus one when the holding entry is occupied (R176). -/
def AlertQueue.count (q : AlertQueue) : Nat := q.queue.length + (if q.holding.isSome then 1 else 0)

/-- Whether a record of severity HIGH is held (R179). -/
def AlertQueue.holdsHigh (q : AlertQueue) : Bool :=
  q.queue.any (fun a => a.severity == .high) || q.holding.any (fun a => a.severity == .high)

/-- The attention line as R179 gives it. -/
def AlertQueue.attentionLaw (q : AlertQueue) : Bool :=
  decide (q.triggerLevel ≤ q.count) || q.holdsHigh

/-- The attention line evaluated again (R179). -/
def AlertQueue.refresh (q : AlertQueue) : AlertQueue := { q with attention := q.attentionLaw }

/-- An alert arrives: at the tail while fewer than 15 entries are held, else in the holding entry with
the overrun indication set (R177). -/
def AlertQueue.arrive (a : Alert) (q : AlertQueue) : AlertQueue :=
  if q.queue.length < 15 then AlertQueue.refresh { q with queue := q.queue ++ [a] }
  else AlertQueue.refresh { q with holding := some a, overrun := true }

/-- A block queues an alert, stamped with the count of second ticks (R125, R177). -/
def State.alert (kind : AlertKind) (severity : Severity) (source : Option SourceIx)
    (mask : Option (BitVec 16)) (value : Option Nat) (repeats : Nat) (s : State) : State :=
  { s with alerts := s.alerts.arrive ⟨kind, severity, source, mask, value, s.time.stamp, repeats⟩ }

/-- What a FETCH-ALERTS removes: the oldest entries, up to 8 (R178 step 2). -/
def AlertQueue.fetched (q : AlertQueue) : List Alert := q.queue.take 8

/-- The queue after a FETCH-ALERTS carrying an optional trigger level (R178 steps 2 to 5). -/
def AlertQueue.fetch (level : Option (BitVec 8)) (q : AlertQueue) : AlertQueue :=
  let rest := q.queue.drop 8 ++ q.holding.toList
  AlertQueue.refresh
    { q with
      queue := rest
      holding := none
      overrun := if rest.isEmpty then false else q.overrun
      triggerLevel := match level with
        | some t => clamp 1 8 t.toNat
        | none => q.triggerLevel }

end Sys2Proof.Machine
end

