-- ==== Sys2Proof/Machine/Operands.lean ====
section
/-! DEFINITION. The byte layouts of chapter 12: enumeration bytes, little-endian fields, request
messages read into commands (R180, R181) and written from them, and the records of replies (R182). -/

namespace Sys2Proof.Machine

/-! ### Fields -/

/-- A little-endian field of `k` bytes; a value too large for it keeps its low bytes. -/
def le : Nat → Nat → List Byte
  | 0, _ => []
  | k + 1, v => BitVec.ofNat 8 v :: le k (v / 256)

def word16 (b0 b1 : Byte) : BitVec 16 := b1 ++ b0
def word32 (b0 b1 b2 b3 : Byte) : BitVec 32 := b3 ++ (b2 ++ (b1 ++ b0))
def word48 (b0 b1 b2 b3 b4 b5 : Byte) : BitVec 48 := b5 ++ (b4 ++ (b3 ++ (b2 ++ (b1 ++ b0))))

def bytes16 (w : BitVec 16) : List Byte := [w.extractLsb' 0 8, w.extractLsb' 8 8]
def bytes32 (w : BitVec 32) : List Byte :=
  [w.extractLsb' 0 8, w.extractLsb' 8 8, w.extractLsb' 16 8, w.extractLsb' 24 8]
def bytes48 (w : BitVec 48) : List Byte :=
  [w.extractLsb' 0 8, w.extractLsb' 8 8, w.extractLsb' 16 8, w.extractLsb' 24 8,
   w.extractLsb' 32 8, w.extractLsb' 40 8]

/-- A yes/no, LOCKED/OPEN or set/clear byte: any value but 0 is yes (section 12.1). -/
def yes (b : Byte) : Bool := b != 0
def rightOf (b : Byte) : Right := if yes b then .opened else .locked
def flagByte (b : Bool) : Byte := if b then 1 else 0

/-! ### Enumerations: the position in the list of section 12.1 -/

def modeByte : Mode → Byte | .factory => 0 | .armed => 1 | .lockdown => 2
def windowByte : WindowState → Byte | .off => 0 | .shown => 1 | .retired => 2 | .loading => 3
def conditionByte : Condition → Byte | .unused => 0 | .normal => 1 | .scrubQueued => 2 | .scrubbing => 3
def levelByte : Level → Byte | .none => 0 | .alert => 1 | .relock => 2 | .erase => 3 | .scrub => 4
def severityByte : Severity → Byte | .low => 0 | .high => 1
def grantByte : GrantRights → Byte | .none => 0 | .read => 1 | .write => 2 | .both => 3
def polarityByte : Polarity → Byte | .rising => 0 | .falling => 1 | .both => 2
def gateByte : GateMode → Byte | .off => 0 | .onDemand => 1 | .continuous => 2
def conversionByte : ConversionTime → Byte | .us12 => 0 | .us24 => 1 | .us48 => 2 | .us96 => 3
def timeSourceByte : TimeSource → Byte | .awaiting => 0 | .slow => 1 | .faulted => 2
def resultByte : ResultCode → Byte
  | .done => 0 | .notPresented => 1 | .badSecret => 2 | .backingOff => 3 | .exhausted => 4
  | .lockdown => 5 | .notFound => 6 | .badRequest => 7 | .range => 8 | .overlap => 9
  | .ratcheted => 10 | .scrubActive => 11 | .responseActive => 12 | .storeUnsafe => 13 | .busy => 14
def alertKindByte : AlertKind → Byte
  | .tamper => 0 | .deadline => 1 | .attempts => 2 | .timeFault => 3 | .responseBegun => 4
  | .responseDone => 5 | .scrubDone => 6 | .scrubFault => 7 | .holdupLow => 8 | .storeUnsafe => 9
  | .reverted => 10

/-- An enumeration byte past the last value of its list is unknown: `none` (section 12.1). -/
def levelOf (b : Byte) : Option Level :=
  match b.toNat with
  | 0 => some .none | 1 => some .alert | 2 => some .relock | 3 => some .erase | 4 => some .scrub
  | _ => none
def severityOf (b : Byte) : Option Severity :=
  match b.toNat with | 0 => some .low | 1 => some .high | _ => none
def grantOf (b : Byte) : Option GrantRights :=
  match b.toNat with
  | 0 => some .none | 1 => some .read | 2 => some .write | 3 => some .both | _ => none
def polarityOf (b : Byte) : Option Polarity :=
  match b.toNat with | 0 => some .rising | 1 => some .falling | 2 => some .both | _ => none
def gateOf (b : Byte) : Option GateMode :=
  match b.toNat with | 0 => some .off | 1 => some .onDemand | 2 => some .continuous | _ => none
def conversionOf (b : Byte) : Option ConversionTime :=
  match b.toNat with
  | 0 => some .us12 | 1 => some .us24 | 2 => some .us48 | 3 => some .us96 | _ => none

/-- A region ratchet set byte; a set bit above bit 3 is an unknown ratchet (section 12.1). -/
def regionSetOf (b : Byte) : Option RegionRatchets :=
  if b.toNat < 16 then some ⟨b.getLsbD 0, b.getLsbD 1, b.getLsbD 2, b.getLsbD 3⟩ else none
/-- A device ratchet set byte; a set bit above bit 2 is an unknown ratchet (section 12.1). -/
def deviceSetOf (b : Byte) : Option DeviceRatchets :=
  if b.toNat < 8 then some ⟨b.getLsbD 0, b.getLsbD 1, b.getLsbD 2⟩ else none

/-- Eight flags as a byte, the first in bit 0. -/
def packByte (b0 b1 b2 b3 b4 b5 b6 b7 : Bool) : Byte :=
  BitVec.ofNat 8 (b0.toNat + 2 * b1.toNat + 4 * b2.toNat + 8 * b3.toNat + 16 * b4.toNat
    + 32 * b5.toNat + 64 * b6.toNat + 128 * b7.toNat)

def regionSetByte (x : RegionRatchets) : Byte :=
  packByte x.fixedBounds x.fixedGrants x.fixedFlags x.theftWipe false false false false
def deviceSetByte (x : DeviceRatchets) : Byte :=
  packByte x.fixedResponses x.fixedTamper x.fixedDeadlines false false false false false

def regionIxOf (b : Byte) : Option RegionIx := if h : b.toNat < 16 then some ⟨b.toNat, h⟩ else none
def credIxOf (b : Byte) : Option CredIx := if h : b.toNat < 8 then some ⟨b.toNat, h⟩ else none
def lineIxOf (b : Byte) : Option LineIx := if h : b.toNat < 4 then some ⟨b.toNat, h⟩ else none
/-- A source that has an entry in the response table: index 1 to 8 (R134). -/
def tableSourceOf (b : Byte) : Option SourceIx :=
  if h : 0 < b.toNat ∧ b.toNat < 9 then some ⟨b.toNat, h.2⟩ else none

/-! ### Request messages -/

/-- The code of a request kind (R180); `none` for a command that is no management request. -/
def kindCode : Instr → Option Byte
  | .statusQuery => some 0x01 | .present .. => some 0x02 | .lock .. => some 0x03
  | .setSecret .. => some 0x04 | .removeCredential .. => some 0x05 | .grant .. => some 0x06
  | .setLimit .. => some 0x07 | .resetAttempts .. => some 0x08 | .defineRegion .. => some 0x09
  | .ratchet .. => some 0x0A | .setResponse .. => some 0x0B | .eraseOrder .. => some 0x0C
  | .setTamper .. => some 0x0D | .clearTamper .. => some 0x0E | .setDeadline .. => some 0x0F
  | .setHoldup .. => some 0x10 | .setScrubShare .. => some 0x11 | .setMediaTimeout .. => some 0x12
  | .setWindow .. => some 0x13 | .beginLoad => some 0x14 | .endLoad .. => some 0x15
  | .setLabel .. => some 0x16 | .retireWindow => some 0x17 | .fetchAlerts .. => some 0x18
  | .revert .. => some 0x19
  | .powerGoodRise | .powerGoodFall | .storeReadEnd | .read .. | .write .. | .discard .. | .flush ..
  | .manageSend .. | .manageFetch .. | .linkReset | .mediaData .. | .mediaCompletion ..
  | .mediaTimeout .. | .segmentIssue | .chunkIssue | .secondTick | .minuteCounted | .qMark
  | .backoffEnd .. | .revertBackoffEnd | .sampleTick .. | .tamperEvent .. | .groupRearm ..
  | .slowSourceRunning | .timeFaultNeverStarted | .timeFaultStopped | .randomSourceReady
  | .randomDrawEnd .. | .derivationEnd | .conversionEnd .. | .commitWriteStart | .commitWriteEnd
  | .deferredUnitSubmit .. | .keyDestruction .. | .responseTake | .scrubWalkStart
  | .requestOfUnknownKind .. => none

/-- The body of a request of each kind, its length among those the kind allows, its fields in order
with no padding; `credential` is the header's credential index (R180, R181). -/
def readBody (kind : Nat) (credential : Byte) (body : List Byte) : Option Instr :=
  match kind, body with
  | 0x01, [] => some .statusQuery
  | 0x02, r0 :: r1 :: w0 :: w1 :: o :: n :: secret =>
    if n.toNat = secret.length ∧ secret.length ≤ 64
    then some (.present credential (word16 r0 r1) (word16 w0 w1) o secret) else none
  | 0x03, [r0, r1, w0, w1, f] => some (.lock (word16 r0 r1) (word16 w0 w1) f)
  | 0x04, cost :: secret =>
    if secret.length ≤ 64 then some (.setSecret credential cost secret) else none
  | 0x05, [c] => some (.removeCredential c)
  | 0x06, [c, r, g] => some (.grant c r g)
  | 0x07, [c, l] => some (.setLimit c l)
  | 0x08, [c] => some (.resetAttempts c)
  | 0x09, [r, e, s0, s1, s2, s3, s4, s5, l0, l1, l2, l3, l4, l5, pr, pw, cl, ab] =>
    some (.defineRegion r e (word48 s0 s1 s2 s3 s4 s5) (word48 l0 l1 l2 l3 l4 l5) pr pw cl ab)
  | 0x0A, [m0, m1, rs, ds] => some (.ratchet (word16 m0 m1) rs ds)
  | 0x0B, [src, l, v] => some (.setResponse src l v)
  | 0x0C, [m0, m1, l] => some (.eraseOrder (word16 m0 m1) l)
  | 0x0D, [n, e, p, d] => some (.setTamper n e p d)
  | 0x0E, [m] => some (.clearTamper m)
  | 0x0F, [p0, p1, n, q] => some (.setDeadline (word16 p0 p1) n q)
  | 0x10, [g, t, c] => some (.setHoldup g t c)
  | 0x11, [v] => some (.setScrubShare v)
  | 0x12, [v] => some (.setMediaTimeout v)
  | 0x13, [e, w0, w1, w2, w3] => some (.setWindow e (word32 w0 w1 w2 w3))
  | 0x14, [] => some .beginLoad
  | 0x15, [l0, l1, l2, l3] => some (.endLoad (word32 l0 l1 l2 l3))
  | 0x16, text => if text.length ≤ 64 then some (.setLabel text) else none
  | 0x17, [] => some .retireWindow
  | 0x18, [] => some (.fetchAlerts none)
  | 0x18, [t] => some (.fetchAlerts (some t))
  | 0x19, scrub :: code => if code.length ≤ 32 then some (.revert scrub code) else none
  | _, _ => none

/-- Check 1 of R174 on a message of at least 4 bytes: the header's body length against the bytes
carried, the kind, and the body length its kind allows. -/
def readMessage (message : List Byte) : Option Instr :=
  match message with
  | kind :: credential :: n0 :: n1 :: body =>
    if (word16 n0 n1).toNat = body.length then readBody kind.toNat credential body else none
  | _ => none

/-- The kind byte a message carries, echoed in its reply (section 11.3). -/
def messageKind (message : List Byte) : Byte := message.headD 0

/-- The credential index and body a request is sent with (section 12.2). The header's credential index
is 0 for the kinds that ignore it. -/
def writeBody : Instr → Option (Byte × List Byte)
  | .statusQuery => some (0, [])
  | .present c r w o secret =>
    some (c, bytes16 r ++ bytes16 w ++ [o, BitVec.ofNat 8 secret.length] ++ secret)
  | .lock r w f => some (0, bytes16 r ++ bytes16 w ++ [f])
  | .setSecret c cost secret => some (c, cost :: secret)
  | .removeCredential c => some (0, [c])
  | .grant c r g => some (0, [c, r, g])
  | .setLimit c l => some (0, [c, l])
  | .resetAttempts c => some (0, [c])
  | .defineRegion r e s l pr pw cl ab =>
    some (0, [r, e] ++ bytes48 s ++ bytes48 l ++ [pr, pw, cl, ab])
  | .ratchet m rs ds => some (0, bytes16 m ++ [rs, ds])
  | .setResponse src l v => some (0, [src, l, v])
  | .eraseOrder m l => some (0, bytes16 m ++ [l])
  | .setTamper n e p d => some (0, [n, e, p, d])
  | .clearTamper m => some (0, [m])
  | .setDeadline dp dn q => some (0, bytes16 dp ++ [dn, q])
  | .setHoldup g t c => some (0, [g, t, c])
  | .setScrubShare v => some (0, [v])
  | .setMediaTimeout v => some (0, [v])
  | .setWindow e w => some (0, e :: bytes32 w)
  | .beginLoad => some (0, [])
  | .endLoad l => some (0, bytes32 l)
  | .setLabel text => some (0, text)
  | .retireWindow => some (0, [])
  | .fetchAlerts t => some (0, t.toList)
  | .revert scrub code => some (0, scrub :: code)
  | .powerGoodRise | .powerGoodFall | .storeReadEnd | .read .. | .write .. | .discard .. | .flush ..
  | .manageSend .. | .manageFetch .. | .linkReset | .mediaData .. | .mediaCompletion ..
  | .mediaTimeout .. | .segmentIssue | .chunkIssue | .secondTick | .minuteCounted | .qMark
  | .backoffEnd .. | .revertBackoffEnd | .sampleTick .. | .tamperEvent .. | .groupRearm ..
  | .slowSourceRunning | .timeFaultNeverStarted | .timeFaultStopped | .randomSourceReady
  | .randomDrawEnd .. | .derivationEnd | .conversionEnd .. | .commitWriteStart | .commitWriteEnd
  | .deferredUnitSubmit .. | .keyDestruction .. | .responseTake | .scrubWalkStart
  | .requestOfUnknownKind .. => none

/-- A request message: header, then body (R180). -/
def writeMessage (i : Instr) : Option (List Byte) :=
  match kindCode i, writeBody i with
  | some kind, some (credential, body) => some (kind :: credential :: le 2 body.length ++ body)
  | _, _ => none

/-- Whether a message of the kind can carry the fields: the body lengths of R180 bound the secret of a
PRESENT and of a SET-SECRET, the label text and the revert code. -/
def messageFits : Instr → Bool
  | .present _ _ _ _ secret => decide (secret.length ≤ 64)
  | .setSecret _ _ secret => decide (secret.length ≤ 64)
  | .setLabel text => decide (text.length ≤ 64)
  | .revert _ code => decide (code.length ≤ 32)
  | _ => true

/-! ### Replies -/

/-- The kind bytes of a reply to a fetch that found none (R182). -/
def emptyKind : Byte := 0xF0
def pendingKind : Byte := 0xF1

/-- A reply message: kind, result, body length, body (R182). -/
def Reply.message (r : Reply) : List Byte :=
  r.kind :: resultByte r.result :: le 2 r.body.length ++ r.body

/-- An alert record of 16 bytes (R182). -/
def alertBytes (a : Alert) : List Byte :=
  [alertKindByte a.kind, severityByte a.severity,
   match a.source with
   | some n => BitVec.ofNat 8 n.val
   | none => 0xFF,
   packByte a.mask.isSome a.value.isSome false false false false false false]
  ++ bytes16 (a.mask.getD 0) ++ le 4 (a.value.getD 0) ++ le 4 a.stamp
  ++ [BitVec.ofNat 8 a.repeats, 0]

/-- A grant list: a count, then a region index and its rights for each entry (R182). -/
def grantBytes (grants : List GrantEntry) : List Byte :=
  BitVec.ofNat 8 grants.length
    :: grants.flatMap fun g => [BitVec.ofNat 8 g.region.val, grantByte g.rights]

end Sys2Proof.Machine
end

