-- ==== Sys2Proof/Machine/Ops.lean ====
section
/-! DEFINITION. The named operations that several blocks share: the records and tables of State read
and written, replies (R174), submission to the commit queue (R166), the boundary list (R27), the
cipher key store (R53, R54), rights (R28), and draws of the random source (R48). -/

namespace Sys2Proof.Machine

/-! ### Records and tables -/

def State.setRegion (r : RegionIx) (x : RegionRecord) (s : State) : State :=
  { s with work := { s.work with regions := s.work.regions.set r x } }

def State.setStatus (r : RegionIx) (x : RegionStatus) (s : State) : State :=
  { s with regions := s.regions.set r x }

def State.setKey (r : RegionIx) (x : KeyRecord) (s : State) : State :=
  { s with work := { s.work with keys := s.work.keys.set r x } }

def State.setSlotKey (r : RegionIx) (x : KeySlot) (s : State) : State :=
  { s with keys := s.keys.set r x }

def State.setCredential (c : CredIx) (x : CredentialRecord) (s : State) : State :=
  { s with work := { s.work with credentials := s.work.credentials.set c x } }

def State.setCredStatus (c : CredIx) (x : CredentialStatus) (s : State) : State :=
  { s with credentials := s.credentials.set c x }

/-- The back-off of a credential set to a number of seconds (R90). -/
def State.setBackoff (c : CredIx) (seconds : Nat) (s : State) : State :=
  s.setCredStatus c { s.credentials[c] with backoff := seconds }

/-- Every presented flag clear (R79). -/
def State.clearFlags (s : State) : State :=
  { s with credentials := tabMap (fun x => { x with presented := false }) s.credentials }

/-- Whether any presented flag is set (R80). -/
def State.anyPresented (s : State) : Bool := s.credentials.toList.any (·.presented)

/-- Administrator: credential 0 presented, or mode FACTORY (R80). -/
def State.administrator (s : State) : Bool :=
  s.credentials[(0 : CredIx)].presented || s.work.mode == .factory

/-- The number a level has in the order NONE < ALERT < RELOCK < ERASE < SCRUB (R133). -/
def Level.rank : Level → Nat
  | .none => 0 | .alert => 1 | .relock => 2 | .erase => 3 | .scrub => 4

def Level.max (a b : Level) : Level := if a.rank < b.rank then b else a

/-- Severity HIGH if either is HIGH (R135). -/
def Severity.join (a b : Severity) : Severity := if a = .high then .high else b

/-- The response-table entry of a source; ORDER's severity is always HIGH (R133). -/
def State.entryOf (s : State) (source : SourceIx) : ResponseEntry :=
  if h : 0 < source.val then s.work.responseTable[source.val - 1]'(by omega)
  else ⟨.erase, .high⟩

/-- The severity the response table gives a source (R119, R126, R128). -/
def State.severityFor (s : State) (source : SourceIx) : Severity := (s.entryOf source).severity

/-- Sources by name (R133). -/
def srcOrder : SourceIx := 0
def srcAdminAttempts : SourceIx := 1
def srcUserAttempts : SourceIx := 2
def srcTamperA : SourceIx := 3
def srcTamperB : SourceIx := 4
def srcEnclosure : SourceIx := 5
def srcPowered : SourceIx := 6
def srcPowerOn : SourceIx := 7
def srcTimeFault : SourceIx := 8

/-- The start of a region's walk: LBA 0 for region 0 (R150). -/
def RegionRecord.startLba (x : RegionRecord) : Nat :=
  match x.extent with
  | some e => e.start
  | none => 0

/-- A condition as it is written to the store: SCRUBBING is not committed (R34). -/
def Condition.storable : Condition → Condition
  | .scrubbing => .scrubQueued
  | c => c

/-! ### Replies (R174) -/

/-- A request's owning block answers: the reply is placed if the request is the channel's current one,
and discarded if it is detached (R175). -/
def State.reply (id : Nat) (kind : Byte) (result : ResultCode) (body : List Byte) (s : State) : State :=
  if s.management.current = some id then
    { s with management :=
        { s.management with slot := .replyReady, buffer := some ⟨kind, result, body⟩, current := none } }
  else s

/-- Whether a request is still the channel's current one (R175). -/
def State.attached (s : State) (id : Nat) : Bool := s.management.current == some id

/-! ### Commit queue (R165, R166) -/

/-- The requester under which a unit is submitted (R166). -/
def CommitUnit.requester : CommitUnit → Requester
  | .charge .. | .revertCharge .. | .refund .. => .credential
  | .responseBegin | .keyDestruction _ | .responseEnd | .countReset => .response
  | .checkpoint | .finish => .scrub
  | .deadlineCharge => .timeBase
  | .secret .. | .regionDefinition _ | .remove .. | .grant .. | .limit .. | .resetAttempts ..
  | .ratchet .. | .setResponse .. | .setTamper .. | .setDeadline .. | .setHoldup .. | .setWindow ..
  | .imageLength .. | .label .. | .scrubShare .. | .mediaTimeout .. | .revert .. => .management

/-- The units that carry on a running response; a count reset is none of them (R139, R141, R143, R147). -/
def CommitUnit.ofResponse : CommitUnit → Bool
  | .responseBegin | .keyDestruction _ | .responseEnd => true
  | _ => false

/-- The unit number of R165. -/
def CommitUnit.number : CommitUnit → Nat
  | .charge .. | .revertCharge .. => 1
  | .refund .. => 2
  | .secret .. => 3
  | .regionDefinition _ => 4
  | .remove .. | .grant .. | .limit .. | .resetAttempts .. => 5
  | .ratchet .. => 6
  | .responseBegin => 7
  | .keyDestruction _ => 8
  | .responseEnd | .countReset => 9
  | .checkpoint => 10
  | .finish => 11
  | .deadlineCharge => 12
  | .setResponse .. | .setTamper .. | .setDeadline .. | .setHoldup .. | .setWindow ..
  | .imageLength .. | .label .. | .scrubShare .. | .mediaTimeout .. => 13
  | .revert .. => 14

/-- Whether a requester holds a unit in the commit queue (R166). -/
def State.holds (s : State) (q : Requester) : Bool := s.store.queue.any fun u => u.requester == q

/-- A unit enters the commit queue at the tail; where its requester still holds one, it waits inside
the requester (R166). -/
def State.submit (u : CommitUnit) (s : State) : State :=
  if s.holds u.requester then { s with store := { s.store with deferred := s.store.deferred ++ [u] } }
  else { s with store := { s.store with queue := s.store.queue ++ [u] } }

/-! ### Boundary list (R27) -/

def insertSorted (x : Nat) : List Nat → List Nat
  | [] => [x]
  | y :: ys => if x ≤ y then x :: y :: ys else y :: insertSorted x ys

/-- The starts of the enabled regions 1 to 15 in increasing order (R27). -/
def boundaryOf (regions : Vector RegionRecord 16) : List Nat :=
  (regions.toList.drop 1).foldr
    (fun x l => match x.enabled, x.extent with
      | true, some e => insertSorted e.start l
      | _, _ => l) []

def State.rebuildBoundary (s : State) : State := { s with boundary := boundaryOf s.work.regions }

/-- Whether a region record's range holds an LBA. -/
def RegionRecord.contains (x : RegionRecord) (p : Nat) : Bool :=
  match x.enabled, x.extent with
  | true, some e => decide (e.start ≤ p ∧ p < e.start + e.length)
  | _, _ => false

/-- The enabled region 1 to 15 that contains an LBA, if any (R27). -/
def State.regionAt (s : State) (p : Nat) : Option RegionIx :=
  allRegions.find? fun r => decide (0 < r.val) && s.work.regions[r].contains p

/-- The smallest start in the boundary list greater than an LBA (R6 case 3). -/
def State.nextStart (s : State) (p : Nat) : Option Nat := s.boundary.find? fun b => decide (p < b)

/-! ### Cipher key store (section 3.4) -/

/-- The region at the head of the scrub list (section 9.2). -/
def State.scrubHead (s : State) : Option RegionIx := s.work.scrubList.head?.map (·.region)

/-- The key that unwrapping a region's working material gives, if there is material and its integrity
value matches under the part's root key (R53).
DESIGN CHOICE (unsafe): notes/assumptions/9.md. -/
def State.unwrapped (s : State) (r : RegionIx) : Option LoadedKey :=
  match s.work.keys[r].material with
  | some m => if m.integrity = s.fuses.rootKey then some ⟨s.work.keys[r].generation, m.material⟩ else none
  | none => none

/-- A region's key is loaded into its entry unless the entry holds a key already; where it cannot be
loaded the entry stays empty (R53). -/
def State.loadKey (r : RegionIx) (s : State) : State :=
  if s.keys[r].loaded.isSome then s
  else s.setSlotKey r { s.keys[r] with loaded := s.unwrapped r }

/-- The unload test of R54. -/
def State.unloadDue (s : State) (r : RegionIx) : Bool :=
  s.regions[r].read == .locked && s.regions[r].write == .locked && s.regions[r].admitted == 0
    && s.scrubHead != some r

/-- A region's key is unloaded when the test of R54 passes. -/
def State.unloadTest (r : RegionIx) (s : State) : State :=
  if s.unloadDue r then s.setSlotKey r { s.keys[r] with loaded := none } else s

/-- The key the cipher path reads from a region's entry (R56 to R58). -/
def State.pathKey (s : State) (r : RegionIx) : KeyMaterial :=
  match s.keys[r].loaded with
  | some k => k.material
  | none => Config.absentKey r

/-- The tweak of data unit j of the block at an LBA (R55). -/
def tweak (unitsPerBlock lba j : Nat) : BitVec 128 := BitVec.ofNat 128 (lba * unitsPerBlock + j)

/-- The block at an LBA enciphered data unit by data unit (R55, R57). -/
def encipherBlock (key : KeyMaterial) (unitsPerBlock lba : Nat) (block : Block) : Block :=
  mapFrom (fun j u => Config.cipher key (tweak unitsPerBlock lba j) u) 0 block

/-- The block at an LBA deciphered data unit by data unit (R55, R56). -/
def decipherBlock (key : KeyMaterial) (unitsPerBlock lba : Nat) (block : Block) : Block :=
  mapFrom (fun j u => (Config.cipher key (tweak unitsPerBlock lba j)).symm u) 0 block

/-- A block of zero bytes (R59). -/
def zeroBlock (unitsPerBlock : Nat) : Block := List.replicate unitsPerBlock 0

/-! ### Rights (section 2.3) -/

def RegionStatus.right (x : RegionStatus) : RightKind → Right
  | .read => x.read
  | .write => x.write

def RegionStatus.setRight (x : RegionStatus) (k : RightKind) (v : Right) : RegionStatus :=
  match k with
  | .read => { x with read := v }
  | .write => { x with write := v }

/-- A right becomes LOCKED; the change is handed to the key slot table, which makes its unload test. A
right already LOCKED is no change (R28, R54). -/
def State.lockRight (k : RightKind) (r : RegionIx) (s : State) : State :=
  if s.regions[r].right k = .locked then s
  else (s.setStatus r (s.regions[r].setRight k .locked)).unloadTest r

/-- Both rights of a region LOCKED (R32). -/
def State.lockBoth (r : RegionIx) (s : State) : State := (s.lockRight .read r).lockRight .write r

/-- Every right of every region LOCKED, in one event (R32). -/
def State.lockAll (s : State) : State := allRegions.foldl (fun t r => t.lockBoth r) s

/-- A right opens, loading its region's key; where the key cannot be loaded the right stays LOCKED
(R28, R53). -/
def State.openRight (k : RightKind) (r : RegionIx) (s : State) : State :=
  if s.regions[r].right k = .opened then s
  else
    let t := s.loadKey r
    if t.keys[r].loaded.isSome then t.setStatus r (t.regions[r].setRight k .opened) else t

/-- The tests an open request makes of a named right's region (R29). -/
def State.openable (s : State) (r : RegionIx) : Bool :=
  s.work.regions[r].enabled && s.work.regions[r].condition == .normal && !s.regions[r].eraseHold

def State.setHold (r : RegionIx) (v : Bool) (s : State) : State :=
  s.setStatus r { s.regions[r] with eraseHold := v }

/-! ### Generations and draws (R46, R48, R49) -/

/-- The last generation number (R45). -/
def lastGeneration : Nat := 4294967295

/-- A slot whose highest drawn number is the last is spent (R47). -/
def State.spent (s : State) (r : RegionIx) : Bool := s.keys[r].highestDrawn == lastGeneration

/-- The generation one above a slot's highest drawn number (R46). -/
def State.nextGeneration (s : State) (r : RegionIx) : Nat := s.keys[r].highestDrawn + 1

/-- Highest drawn raised to the generation just taken (R46). -/
def State.takeGeneration (r : RegionIx) (s : State) : State :=
  s.setSlotKey r { s.keys[r] with highestDrawn := s.nextGeneration r }

def Draw.isKey : Draw → Bool
  | .key .. => true
  | .salt _ => false

/-- A draw is requested of the random source; a requester's second draw waits inside it (R48). -/
def State.requestDraw (d : Draw) (s : State) : State :=
  if s.random.queue.any (fun e => e.isKey == d.isKey) then
    { s with random := { s.random with waiting := s.random.waiting ++ [d] } }
  else { s with random := { s.random with queue := s.random.queue ++ [d] } }

/-- The key slot table draws new material for a slot: it takes the next generation, then asks for 512
bits (R49). -/
def State.drawKey (r : RegionIx) (use : DrawUse) (s : State) : State :=
  (s.takeGeneration r).requestDraw (.key r (s.nextGeneration r) use)

/-! ### Start-up -/

/-- Whether the time base gives ticks: from step 2 of the start-up sequence on (R125). -/
def State.ticking (s : State) : Bool := s.startUp.phase != .reading

def State.isRunning (s : State) : Bool := s.startUp.phase == .running

end Sys2Proof.Machine
end

