-- ==== Sys2Proof/Machine/Scrub.lean ====
section
/-! DEFINITION. The scrub engine: holds (R157), the start of a walk (R155, R158), chunks (R155, R156),
checkpoints (R159) and the end of a walk (R160). -/

namespace Sys2Proof.Machine

/-- The cursor of the walk: the head entry's (R153). -/
def State.cursor (s : State) : Nat :=
  match s.work.scrubList with
  | e :: _ => e.cursor
  | [] => 0

def State.setCursor (p : Nat) (s : State) : State :=
  match s.work.scrubList with
  | e :: rest => { s with work := { s.work with scrubList := { e with cursor := p } :: rest } }
  | [] => s

/-- Whether a chunk is stale: its generation is not its region's stored one, or its region is no longer
on the list (R156), or it was issued before the last crypto-erase of its region or REVERT (R153, R157).
DESIGN CHOICE (unsafe): notes/assumptions/53.md. -/
def State.stale (s : State) (c : Chunk) : Bool :=
  s.stored.keys[c.region].generation != c.generation
    || !(s.work.scrubList.any fun e => e.region == c.region)
    || s.scrub.earlier.contains c

/-- A crypto-erase of these regions is answered done: their chunks at the media have become stale, also those of a
spent slot, which keeps its generation (R47, R157, R163). They end before the next walk starts.
DESIGN CHOICE (unsafe): notes/assumptions/53.md. -/
def ScrubEngine.outdate (erased : RegionIx → Bool) (e : ScrubEngine) : ScrubEngine :=
  { e with earlier := (e.formed.filter fun f =>
      f.place == .atMedia && (erased f.chunk.region || e.earlier.contains f.chunk)).map (·.chunk) }

/-- Whether a DEFINE-REGION of a region 1 to 15 is in progress (R157). -/
def State.defineHolds (s : State) : Bool :=
  match s.define with
  | some d => d.region != 0
  | none => false

/-- The holds of R157 on a head region: its erase hold, chunks of an earlier generation, of another region or
issued before the last crypto-erase or REVERT at the media (R153, R163), a DEFINE-REGION in progress. -/
def State.headHeld (s : State) (h : RegionIx) : Bool :=
  s.regions[h].eraseHold
    || s.scrub.formed.any (fun f => f.place == .atMedia
        && (f.chunk.region != h || f.chunk.generation != s.stored.keys[h].generation
          || s.scrub.earlier.contains f.chunk))
    || s.defineHolds

/-- Whether the walk of region h, in WALKING or FINISHING, is one that R158 ended: a walked head's key is
loaded otherwise. -/
def State.unwritten (s : State) (h : RegionIx) : Bool := s.keys[h].loaded.isNone

/-- Whether the walk of the head h has ended: the issue position is END and no chunk is formed, or R158
ended it, which asks for no chunk to end (R160). -/
def State.walkEnded (s : State) (h : RegionIx) : Bool :=
  s.scrub.phase == .walking && s.scrub.issue.isNone && (s.scrub.formed.isEmpty || s.unwritten h)

/-- The walk of the head has ended with no unit outstanding: the scrub finish unit is submitted and the
phase becomes FINISHING (R160). Not while the head is under erase hold (R157). -/
def State.tryFinish (s : State) : State :=
  match s.scrubHead with
  | some h =>
    if s.walkEnded h = true ∧ s.scrub.commitHeld = .none ∧ s.regions[h].eraseHold = false then
      State.submit .finish { s with scrub := { s.scrub with phase := .finishing, commitHeld := .finish } }
    else s
  | none => s

/-- The lowest of the chunks that wait for reissue (R155). -/
def lowestReissue (formed : List FormedChunk) : Option Chunk :=
  formed.foldl (fun best f =>
    if f.place = .reissue then
      match best with
      | some c => if f.chunk.first < c.first then some f.chunk else best
      | none => some f.chunk
    else best) none

/-- Region 0's walk past the enabled regions that contain the issue position (R155); each of the at most
15 regions is skipped at most once. -/
def State.skipEnabled (s : State) : Nat → Nat → Nat
  | 0, p => p
  | n + 1, p =>
    match s.regionAt p with
    | some r =>
      match s.work.regions[r].extent with
      | some e => s.skipEnabled n (e.start + e.length)
      | none => p
    | none => p

/-- The first LBA and the end of the new chunk formed at an issue position, if one can be (R155). -/
def State.nextChunk (s : State) (h : RegionIx) (p : Nat) : Option (Nat × Nat) :=
  if h = 0 then
    let q := s.skipEnabled 15 p
    if s.geometry.capacity ≤ q then none
    else
      some (q, min (min (q + 64) s.geometry.capacity) ((s.nextStart q).getD s.geometry.capacity))
  else
    match s.work.regions[h].extent with
    | some e => if e.start + e.length ≤ p then none else some (p, min (p + 64) (e.start + e.length))
    | none => none

/-- Whether the scrub engine holds an offer (R63). -/
def State.offer (s : State) : Option Chunk :=
  (s.scrub.formed.find? fun f => f.place == .offered).map (·.chunk)

def placeChunk (c : Chunk) (p : ChunkPlace) (formed : List FormedChunk) : List FormedChunk :=
  formed.map fun f => if f.chunk = c then { f with place := p } else f

/-- While WALKING the engine holds an offer whenever it can form one: a chunk that waits for reissue
first, else a new chunk at the issue position; when none can be formed the issue position is END
(R155). No chunk is offered of a region whose key is not loaded (R58). -/
def State.placeOffer (s : State) : State :=
  match s.scrubHead with
  | none => s
  | some h =>
    if s.scrub.phase = .walking ∧ s.offer = none ∧ s.keys[h].loaded.isSome then
      match lowestReissue s.scrub.formed with
      | some c => { s with scrub := { s.scrub with formed := placeChunk c .offered s.scrub.formed } }
      | none =>
        match s.scrub.issue with
        | none => s
        | some p =>
          match s.nextChunk h p with
          | some (a, b) =>
            { s with scrub := { s.scrub with
                formed := s.scrub.formed ++ [⟨⟨h, a, b - a, s.scrub.walkGeneration⟩, .offered⟩],
                issue := some b } }
          | none => { s with scrub := { s.scrub with issue := none } }
    else s

/-- A SCRUB-FAULT: the region's fault count rises and the alert is queued (R156, R158). -/
def State.scrubFault (r : RegionIx) (value : Nat) (s : State) : State :=
  (s.setRegion r { s.work.regions[r] with faultCount := saturate 255 s.work.regions[r].faultCount }).alert
    .scrubFault .low none (some (bit r.val)) (some value) 0

/-- The start of the head's walk (R155). A held head makes the phase HELD; a head whose key cannot be
loaded ends the walk unwritten (R158): the issue position is END, and chunks that have not gone to the
media are dropped.
DESIGN CHOICE (unsafe): notes/assumptions/50.md. -/
def State.startWalk (s : State) : State :=
  match s.scrubHead with
  | none => { s with scrub := { s.scrub with phase := .idle } }
  | some h =>
    if s.headHeld h then { s with scrub := { s.scrub with phase := .held } }
    else
      let t := (s.setRegion h { s.work.regions[h] with condition := .scrubbing }).loadKey h
      if t.keys[h].loaded.isSome then
        { t with scrub := { t.scrub with
            phase := .walking, walkGeneration := t.stored.keys[h].generation } }
      else
        State.tryFinish (State.scrubFault h 0
          { t with scrub := { t.scrub with
              phase := .walking, issue := none,
              formed := t.scrub.formed.filter fun f => f.place == .atMedia } })

/-- Whether the head's walk is due to start: nothing walks, the part runs, and no hold stands
(R155, R157). -/
def State.walkDue (s : State) : Bool :=
  match s.scrubHead with
  | some h => s.isRunning && (s.scrub.phase == .idle || s.scrub.phase == .held) && !s.headHeld h
  | none => false

/-- The walk of the head starts in the event in which nothing holds it any more (R154, R155), also while the
response that erased the region still runs (section 12.6), although R140 has it walked after the response has ended.
DESIGN CHOICE (unsafe): notes/assumptions/55.md. -/
def State.startWalkIfDue (s : State) : State := if s.walkDue then s.startWalk else s

/-- The head changes or the list becomes empty: the walk's positions are those of the new head, or the
phase is IDLE and the media port's accumulator and credit are 0 (R65, R154). -/
def State.settleHead (s : State) : State :=
  match s.work.scrubList with
  | e :: _ =>
    { s with scrub := { s.scrub with phase := .held, issue := some e.cursor, checkpoint := e.cursor } }
  | [] =>
    { s with
      scrub := { s.scrub with phase := .idle }
      port := { s.port with acc := 0, credit := 0 } }

/-- The erase hold of the head is set: the offer is withdrawn, its chunk waits for reissue, and the
phase becomes HELD except in FINISHING (R157). -/
def State.holdHead (r : RegionIx) (s : State) : State :=
  if s.scrubHead = some r then
    { s with scrub := { s.scrub with
        formed := s.scrub.formed.map fun f => if f.place = .offered then { f with place := .reissue } else f
        phase := if s.scrub.phase = .finishing then .finishing else .held } }
  else s

/-- The list entry of a region has its cursor at the region's start, and the issue position with it where the
region is the head (R150, R154). -/
def State.entryToStart (r : RegionIx) (s : State) : State :=
  let start := s.work.regions[r].startLba
  { s with
    work := { s.work with
      scrubList := s.work.scrubList.map fun e => if e.region = r then { e with cursor := start } else e }
    scrub := { s.scrub with issue := if s.scrubHead = some r then some start else s.scrub.issue } }

/-- The done answer of a crypto-erase applies the region's list entry: kept at its place with the cursor
at its start, or appended at the tail. A head restarts from its start without the formed chunks that
have not gone to the media (R150, R154). The region's chunks at the media are stale from here on (R157). -/
def State.applyScrubEntry (r : RegionIx) (s : State) : State :=
  let start := s.work.regions[r].startLba
  let s := { s with scrub := s.scrub.outdate (· == r) }
  if s.work.scrubList.any fun e => e.region == r then
    let t := s.entryToStart r
    if s.scrubHead = some r then
      { t with scrub := { t.scrub with
          phase := .held, checkpoint := start
          formed := t.scrub.formed.filter fun f => f.place == .atMedia } }
    else t
  else
    let t := { s with work := { s.work with scrubList := s.work.scrubList ++ [⟨r, start⟩] } }
    if s.work.scrubList = [] then t.settleHead else t

/-- Blocks of [a, b) that the walk of a region visits: for region 0 the enabled regions are skipped
(R159). -/
def State.walkedBlocks (s : State) (h : RegionIx) (a b : Nat) : Nat :=
  if h = 0 then
    (b - a) - ((s.work.regions.toList.drop 1).map fun x => match x.enabled, x.extent with
      | true, some e => min b (e.start + e.length) - max a e.start
      | _, _ => 0).sum
  else b - a

/-- The checkpoint test, made at every move of the cursor (R159). -/
def State.tryCheckpoint (s : State) : State :=
  match s.scrubHead with
  | some h =>
    if 4096 ≤ s.walkedBlocks h s.scrub.checkpoint s.cursor ∧ s.scrub.commitHeld = .none
        ∧ s.regions[h].eraseHold = false then
      State.submit .checkpoint { s with scrub := { s.scrub with commitHeld := .checkpoint } }
    else s
  | none => s

/-- The end of the walk of a region: C for region 0, else the region's end (R155). -/
def State.walkEnd (s : State) (h : RegionIx) : Nat :=
  if h = 0 then s.geometry.capacity
  else match s.work.regions[h].extent with
    | some e => e.start + e.length
    | none => 0

/-- The first LBA of the lowest formed chunk (R156). -/
def lowestFormed (formed : List FormedChunk) : Option Nat :=
  formed.foldl (fun best f => match best with
    | some n => some (min n f.chunk.first)
    | none => some f.chunk.first) none

/-- The cursor after a chunk of the head ended (R156). -/
def State.cursorNow (s : State) (h : RegionIx) : Nat :=
  match lowestFormed s.scrub.formed with
  | some n => n
  | none => s.scrub.issue.getD (s.walkEnd h)

/-- The cursor takes a position; a move of it makes the checkpoint test (R156, R159). -/
def State.moveCursor (p : Nat) (s : State) : State :=
  if s.cursor = p then s else (s.setCursor p).tryCheckpoint

/-- A chunk ends and is handed back with its status (R156). A stale chunk is removed and nothing else
is done. -/
def State.chunkEnd (c : Chunk) (status : Status) (s : State) : State :=
  let t := { s with scrub := { s.scrub with
    formed := s.scrub.formed.filter fun f => f.chunk != c
    earlier := s.scrub.earlier.filter fun d => d != c } }
  if s.stale c then t
  else
    let u := if status = .good then t else t.scrubFault c.region c.count
    (u.moveCursor (u.cursorNow c.region)).tryFinish

/-- Whether the head's walk has ended, its finish unit submitted or waiting for a checkpoint's answer
(R158, R160): none of its chunks is reissued. -/
def State.walkOver (s : State) : Bool :=
  match s.scrubHead with
  | some h => s.scrub.phase == .finishing || (s.scrub.phase == .walking && s.unwritten h)
  | none => false

/-- The chunks at the media handed back as abandoned by a link reset: those of the walk wait for
reissue, stale ones are removed; no fault is counted and the cursor does not move (R72, R157). Those of a
walk that R158 has ended are removed too.
DESIGN CHOICE (unsafe): notes/assumptions/50.md. -/
def State.abandonChunks (s : State) : State :=
  { s with scrub := { s.scrub with
      formed := (s.scrub.formed.filter fun f =>
          !(f.place == .atMedia && (s.stale f.chunk || s.walkOver))).map fun f =>
        if f.place = .atMedia then { f with place := .reissue } else f
      earlier := [] } }

end Sys2Proof.Machine
end

