-- ==== Sys2Proof/Machine/MediaPort.lean ====
section
/-! DEFINITION. The media port: arbitration of the slots (R64, R65), issue of host segments and scrub
chunks (R66, R67), the completion of segments at the admission unit (R16 to R18), and what a slot hands
on when it is released (R69, R70). -/

namespace Sys2Proof.Machine

/-! ### Transfer table -/

def State.transfer (s : State) (tag : Nat) : Option Transfer := s.transfers.find? fun t => t.tag == tag

def State.setTransfer (t : Transfer) (s : State) : State :=
  { s with transfers := s.transfers.map fun x => if x.tag = t.tag then t else x }

def State.dropTransfer (tag : Nat) (s : State) : State :=
  { s with transfers := s.transfers.filter fun x => x.tag != tag }

/-- The write data of blocks [offset, offset + count) of a transfer (R15).
DESIGN CHOICE (safe): notes/assumptions/11.md. DESIGN CHOICE (unsafe): notes/assumptions/15.md. -/
def Transfer.blocks (t : Transfer) (offset count : Nat) : List Block :=
  (List.range count).map fun k => t.data.getD (offset + k) (Config.absentBlock t.tag (offset + k))

/-! ### Admitted counts (R35) -/

/-- A CIPHER segment of region r is done: its admitted count falls by one, and at 0 the drained event
lets the key slot table make its unload test (R35, R36, R54). -/
def State.lowerAdmitted (r : RegionIx) (s : State) : State :=
  let t := s.setStatus r { s.regions[r] with admitted := s.regions[r].admitted - 1 }
  if t.regions[r].admitted = 0 then t.unloadTest r else t

/-! ### Segment completion (R16 to R18) -/

/-- The block of a held read at an offset, as it arrived. -/
def arrivedBlock (arrived : List (Nat × Block)) (offset : Nat) : Option Block :=
  (arrived.find? fun e => e.1 == offset).map (·.2)

/-- The held blocks 0 to count − 1. -/
def heldBlocks (operation : BitVec 32) (arrived : List (Nat × Block)) (count : Nat) : List Block :=
  (List.range count).map fun k =>
    (arrivedBlock arrived k).getD (Config.absentBlock operation.toNat k)

/-- Read data of a CIPHER or IMAGE segment at its completion (R17): the held blocks of a segment that
ends GOOD, with zero fill beyond the image blocks, else zero fill of every block. -/
def segmentData (seg : Segment) (status : Status) (held : List Block) : List ReadData :=
  match seg.disposition, status with
  | .cipher, .good => [.blocks held]
  | .image, .good => [.blocks held, .zeros (seg.count - seg.imageBlocks)]
  | _, _ => [.zeros seg.count]

/-- The merged status after a segment ended (R16): a status that is not GOOD replaces GOOD, or a status
from a higher first LBA. -/
def mergeStatus (t : Transfer) (seg : Segment) (status : Status) : Status × Nat :=
  if status = .good then (t.merged, t.mergedFrom)
  else if t.merged = .good ∨ seg.first < t.mergedFrom then (status, seg.first)
  else (t.merged, t.mergedFrom)

/-- The entry with one segment DONE (R16). -/
def Transfer.segmentDone (t : Transfer) (index : Nat) (seg : Segment) (status : Status) : Transfer :=
  let m := mergeStatus t seg status
  { t with
    segments := t.segments.set index { seg with state := .done, status := status }
    outstanding := t.outstanding - 1
    merged := m.1
    mergedFrom := m.2 }

/-- The transfer completes when its outstanding count is 0, and its tag is free (R18). -/
def State.completeIfDone (t : Transfer) (s : State) : State :=
  if t.outstanding = 0 then (s.send (.completion t.tag t.merged)).dropTransfer t.tag
  else s.setTransfer t

/-- The admission unit takes a segment completion (R16); for a CIPHER segment the region table lowers
the admitted count of the recorded region in the same taking (R35, R69). -/
def State.takeSegment (tag index : Nat) (status : Status) (held : List Block) (s : State) : State :=
  match s.transfer tag with
  | none => s
  | some t =>
    match t.segments[index]? with
    | none => s
    | some seg =>
      let s1 := if t.kind = .read then
          s.send (.readData tag (seg.first - t.start) (segmentData seg status held))
        else s
      let s2 := s1.completeIfDone (t.segmentDone index seg status)
      match seg.disposition, seg.owner with
      | .cipher, some (.region r) => s2.lowerAdmitted r
      | _, _ => s2

/-! ### Slots -/

def State.setSlot (i : SlotIx) (x : Option SlotRecord) (s : State) : State :=
  { s with port := { s.port with slots := s.port.slots.set i x } }

/-- The FREE slot with the lowest index (R64). -/
def State.freeSlot (s : State) : Option SlotIx := allSlots.find? fun i => s.port.slots[i].isNone

/-- The BUSY slot that holds an operation number (R68). -/
def State.slotOf (s : State) (operation : BitVec 32) : Option SlotIx :=
  allSlots.find? fun i => s.port.slots[i].any fun x => x.operation == operation

/-- A media operation starts: the slot becomes BUSY with the current operation number and the media
timeout in force, the operation number rises, and the operation is sent (R66, R67). -/
def State.issue (i : SlotIx) (occupant : Occupant) (kind : MediaKind) (range : Option Extent)
    (data : List Block) (s : State) : State :=
  let n := s.port.nextOperation
  let t := s.setSlot i (some ⟨occupant, kind, range, n, s.work.mediaTimeout, []⟩)
  State.send (.mediaOperation n i kind range data) { t with port := { t.port with nextOperation := n + 1 } }

/-- The media operation, range and data of a host segment (R66). -/
def State.segmentOperation (s : State) (t : Transfer) (seg : Segment) :
    MediaKind × Option Extent × List Block :=
  let c := s.geometry.capacity
  let offset := seg.first - t.start
  match seg.disposition, t.kind with
  | .cipher, .read => (.read, some ⟨seg.first, seg.count⟩, [])
  | .cipher, .write =>
    (.write, some ⟨seg.first, seg.count⟩,
      match seg.owner with
      | some (.region r) =>
        mapFrom (fun k b => encipherBlock (s.pathKey r) s.geometry.unitsPerBlock (seg.first + k) b) 0
          (t.blocks offset seg.count)
      | _ => t.blocks offset seg.count)
  | .cipher, _ => (.deallocate, some ⟨seg.first, seg.count⟩, [])
  | .imageWrite, .write => (.write, some ⟨c + seg.first, seg.count⟩, t.blocks offset seg.count)
  | .imageWrite, _ => (.deallocate, some ⟨c + seg.first, seg.count⟩, [])
  | .image, _ => (.read, some ⟨c + seg.first, seg.imageBlocks⟩, [])
  | _, _ => (.flush, none, [])

/-- A host segment is issued into a slot (R66): its state becomes AT-MEDIA, and the data of a WRITE is
taken from the upstream port now (R15). -/
def State.issueSegment (i : SlotIx) (t : Transfer) (index : Nat) (seg : Segment) (s : State) : State :=
  let op := s.segmentOperation t seg
  let s1 := s.setTransfer { t with segments := t.segments.set index { seg with state := .atMedia } }
  let s2 := if op.1 = .write then s1.send (.dataTaken t.tag (seg.first - t.start) seg.count) else s1
  s2.issue i (.segment t.tag index) op.1 op.2.1 op.2.2

/-- The zero data of a scrub chunk, enciphered under its region's loaded key (R58). -/
def State.chunkData (s : State) (c : Chunk) : List Block :=
  (List.range c.count).map fun k =>
    encipherBlock (s.pathKey c.region) s.geometry.unitsPerBlock (c.first + k)
      (zeroBlock s.geometry.unitsPerBlock)

/-- The share accumulator and scrub credit after a host grant (R65). -/
def MediaPort.hostGrant (share : Nat) (scrubbing : Bool) (p : MediaPort) : MediaPort :=
  if scrubbing then
    if 16 ≤ p.acc + share then { p with acc := p.acc + share - 16, credit := min (p.credit + 1) 4 }
    else { p with acc := p.acc + share }
  else { p with acc := 0, credit := 0 }

/-- Case 2 of R64: the oldest host segment leaves the queue and is issued; the accumulator is charged. -/
def State.grantSegment (i : SlotIx) (s : State) : State :=
  match s.port.queue with
  | [] => s
  | (tag, index) :: rest =>
    let s1 := { s with port :=
      MediaPort.hostGrant s.work.scrubShare (!s.work.scrubList.isEmpty) { s.port with queue := rest } }
    match s.transfer tag with
    | none => s1
    | some t =>
      match t.segments[index]? with
      | none => s1
      | some seg => s1.issueSegment i t index seg

/-- Cases 1 and 3 of R64: the offer is consumed, the chunk is issued as a media WRITE, and the engine
places its next offer in the same event (R63, R67, R155). -/
def State.grantChunk (i : SlotIx) (c : Chunk) (s : State) : State :=
  let s1 := { s with scrub := { s.scrub with formed := placeChunk c .atMedia s.scrub.formed } }
  (s1.issue i (.chunk c) .write (some ⟨c.first, c.count⟩) (s.chunkData c)).placeOffer

/-- What the arbiter grants next (R64). -/
inductive Grant
  | nothing
  | credited (i : SlotIx) (c : Chunk)
  | host (i : SlotIx)
  | chunk (i : SlotIx) (c : Chunk)
  deriving DecidableEq, Repr

def State.nextGrant (s : State) : Grant :=
  match s.freeSlot with
  | none => .nothing
  | some i =>
    match s.offer, s.port.queue with
    | some c, [] => if 0 < s.port.credit then .credited i c else .chunk i c
    | some c, _ :: _ => if 0 < s.port.credit then .credited i c else .host i
    | none, _ :: _ => .host i
    | none, [] => .nothing

def State.grantOnce (s : State) : Grant → State
  | .nothing => s
  | .credited i c =>
    State.grantChunk i c { s with port := { s.port with credit := s.port.credit - 1 } }
  | .host i => s.grantSegment i
  | .chunk i c => s.grantChunk i c

/-- The arbiter grants repeatedly, at most as often as the fuel says. Each grant takes a slot, so 16
grants always suffice when every queued segment has its transfer (R64). -/
def State.arbitrate : Nat → State → State
  | 0, s => s
  | n + 1, s =>
    match s.nextGrant with
    | .nothing => s
    | g => (s.grantOnce g).arbitrate n

/-- In an event that frees a slot or brings work: the engine places its offer, the arbiter grants, and a
walk that has come to its end submits its finish unit (R64, R155, R160). -/
def State.serveMedia (s : State) : State := (s.placeOffer.arbitrate 16).tryFinish

/-! ### Release of a slot -/

/-- The work of a slot ends with a status: the slot becomes FREE and the result is handed to the
admission unit or the scrub engine (R69 steps 2 and 3, R70). -/
def State.release (i : SlotIx) (x : SlotRecord) (status : Status) (s : State) : State :=
  let t := s.setSlot i none
  match x.occupant with
  | .segment tag index =>
    t.takeSegment tag index status
      (heldBlocks x.operation x.arrived (x.range.elim 0 (·.length)))
  | .chunk c => t.chunkEnd c status

/-- The status of a completion (R69 step 1): FAILED gives MEDIA-ERROR, and so does a READ some block of
whose range has not arrived. -/
def SlotRecord.completionStatus (x : SlotRecord) (good : Bool) : Status :=
  if good then
    if x.kind = .read ∧ ¬ (List.range (x.range.elim 0 (·.length))).all fun k =>
        (arrivedBlock x.arrived k).isSome then .mediaError
    else .good
  else .mediaError

/-- A slot's media timeout expires: an operation abort is sent and the work ends MEDIA-TIMEOUT (R70). -/
def State.expire (i : SlotIx) (s : State) : State :=
  match s.port.slots[i] with
  | none => s
  | some x => (s.send (.operationAbort x.operation)).release i x .mediaTimeout

/-- The block a data message brings, in the form the holding area keeps it: deciphered with the key of
the recorded region for a CIPHER segment, unchanged for an IMAGE segment (R56, R60, R68). -/
def State.heldForm (s : State) (x : SlotRecord) (offset : Nat) (block : Block) : Block :=
  match x.occupant with
  | .chunk _ => block
  | .segment tag index =>
    match (s.transfer tag).bind fun t => t.segments[index]? with
    | none => block
    | some seg =>
      match seg.disposition, seg.owner with
      | .cipher, some (.region r) =>
        decipherBlock (s.pathKey r) s.geometry.unitsPerBlock (seg.first + offset) block
      | _, _ => block

/-- A read data message (R68): taken only for a READ of a BUSY slot and an offset within its range; a
block that arrives again replaces the earlier one. -/
def State.takeData (operation : BitVec 32) (offset : Nat) (block : Block) (s : State) : State :=
  match s.slotOf operation with
  | none => s
  | some i =>
    match s.port.slots[i] with
    | none => s
    | some x =>
      if x.kind = .read ∧ offset < x.range.elim 0 (·.length) then
        s.setSlot i (some { x with arrived :=
          (offset, s.heldForm x offset block) :: x.arrived.filter fun e => e.1 != offset })
      else s

end Sys2Proof.Machine
end

