-- ==== Sys2Proof/Machine/Erase.lean ====
section
/-! DEFINITION. The crypto-erase of one region (section 9.1): its beginning (R149), the destruction of
the key (R50, R150), and its end (R151). -/

namespace Sys2Proof.Machine

def State.eraseOf (s : State) (r : RegionIx) (p : Party) : Option EraseOperation :=
  s.erases.find? fun e => e.region == r && e.party == p

def State.setEraseStage (r : RegionIx) (p : Party) (stage : EraseStage) (s : State) : State :=
  { s with erases := s.erases.map fun e => if e.region = r ∧ e.party = p then { e with stage := stage } else e }

def State.dropErase (r : RegionIx) (p : Party) (s : State) : State :=
  { s with erases := s.erases.filter fun e => !(e.region == r && e.party == p) }

/-- Whether a crypto-erase of region r is in progress; one that waits for a disabling has not begun (R25,
R149). -/
def State.erasing (s : State) (r : RegionIx) : Bool :=
  s.erases.any fun e => e.region == r && e.stage != .waitDisabling

/-- A crypto-erase of region r has ended: the erase hold becomes no, but stays yes while another one of the
region is in progress (R25, R32).
DESIGN CHOICE (unsafe): notes/assumptions/34.md. -/
def State.releaseHold (r : RegionIx) (s : State) : State := if s.erasing r then s else s.setHold r false

/-- A crypto-erase of region r begins: both rights LOCKED, erase hold yes, and the scrub engine told if
r is the head of the scrub list (R149). -/
def State.beginErase (r : RegionIx) (p : Party) (scrub : Bool) (s : State) : State :=
  let t := ((s.lockBoth r).setHold r true).holdHead r
  { t with erases := t.erases ++ [⟨r, p, scrub, .begun⟩] }

/-- Whether the disabling of a region is in progress (R40). -/
def State.disabling (s : State) (r : RegionIx) : Bool :=
  match s.define with
  | some d => d.region == r && d.kind == .disabling
  | none => false

/-- The new key record is complete: the crypto-erase enters COMMITTING and hands its party what its unit
writes (R150). The revert unit follows once every crypto-erase of the revert has come this far (R163). -/
def State.keyComplete (r : RegionIx) (p : Party) (s : State) : State :=
  let t := s.setEraseStage r p .committing
  match p with
  | .response =>
    State.submit (.keyDestruction r) { t with response := { t.response with answerDue := false } }
  | .disabling =>
    match t.define with
    | some d => t.submit (.regionDefinition d)
    | none => t
  | .revert =>
    match t.revertRequest with
    | some (id, scrub) =>
      if t.erases.all fun e => e.party != .revert || e.stage == .committing then t.submit (.revert id scrub)
      else t
    | none => t

/-- Whether the destruction draws new material: not for a disabling, nor for a region 1 to 15 erased by
REVERT (R50). -/
def drawsMaterial (r : RegionIx) : Party → Bool
  | .response => true
  | .disabling => false
  | .revert => r == 0

/-- The destruction of region r's key (R50): the entry is emptied and the wrapped material overwritten;
a spent slot keeps the last generation with no material (R47), a party that draws nothing records one
above highest drawn, and otherwise the draw follows.
DEDUCED (safe): notes/assumptions/27.md. -/
def State.destroyKey (r : RegionIx) (p : Party) (s : State) : State :=
  let s1 := s.setSlotKey r { s.keys[r] with loaded := none }
  if s1.spent r then
    (s1.setKey r ⟨lastGeneration, none⟩).keyComplete r p
  else if drawsMaterial r p then
    ((s1.setKey r { s1.work.keys[r] with material := none }).setEraseStage r p
      (.destroyed (s1.nextGeneration r))).drawKey r (.erase p)
  else
    ((s1.setKey r ⟨s1.nextGeneration r, none⟩).takeGeneration r).keyComplete r p

/-- The begun crypto-erases of a region whose waits have ended, by their parties in the order in which they
began: the region is drained, and no scrub finish unit of it stands unanswered (R149). -/
def State.destructionsDue (s : State) (r : RegionIx) : List Party :=
  if s.regions[r].admitted = 0 ∧ ¬ (s.scrub.commitHeld = .finish ∧ s.scrubHead = some r) then
    (s.erases.filter fun e => e.region == r && e.stage == .begun).map (·.party)
  else []

/-- The destruction step of region r for every crypto-erase of it that has come to it: where a revert and a
response erase the region, each destroys in the event in which their common waits end (R50, R150).
DESIGN CHOICE (unsafe): notes/assumptions/34.md. -/
def State.destroyIfDue (r : RegionIx) (s : State) : State :=
  (s.destructionsDue r).foldl (fun t p => t.destroyKey r p) s

/-- The destruction steps that are due in an event, in index order. -/
def State.destroyAllDue (s : State) : State := allRegions.foldl (fun t r => t.destroyIfDue r) s

/-- The working record takes a generation drawn with its bits, wrapped under the root key (R49); a
record that has meanwhile passed that generation keeps its own (R46). -/
def State.wrapMaterial (r : RegionIx) (generation : Nat) (bits : BitVec 512) (s : State) : State :=
  if s.work.keys[r].generation < generation then
    s.setKey r ⟨generation, some ⟨bits, s.fuses.rootKey⟩⟩
  else s

/-- Whether a crypto-erase of region r by a party awaits the draw of a generation (R150). -/
def State.awaitsDraw (s : State) (r : RegionIx) (p : Party) (generation : Nat) : Bool :=
  s.erases.any fun e => e.region == r && e.party == p && e.stage == .destroyed generation

/-- A draw of key material ends (R49): the working record takes it, and the requester goes on. Material that
no crypto-erase awaits is discarded: its own has ended meanwhile, and a later one of the same region and party
awaits a later generation.
DESIGN CHOICE (unsafe): notes/assumptions/34.md. -/
def State.takeMaterial (r : RegionIx) (generation : Nat) (use : DrawUse) (bits : BitVec 512) (s : State) :
    State :=
  match use with
  | .enabling =>
    match s.define with
    | some d => (s.wrapMaterial r generation bits).submit (.regionDefinition d)
    | none => s
  | .erase p =>
    if s.awaitsDraw r p generation then (s.wrapMaterial r generation bits).keyComplete r p else s

/-- The condition a response's crypto-erase writes (R150): SCRUB-QUEUED for a region on the list or an
erase with the scrub flag, else NORMAL. -/
def State.eraseCondition (s : State) (r : RegionIx) (scrub : Bool) : Condition :=
  if (s.work.scrubList.any fun e => e.region == r) || scrub then .scrubQueued else .normal

/-- The done answer of a response's crypto-erase (R151): the condition takes the value written, the
scrub engine applies the entry, and the erase hold ends.
DESIGN CHOICE (unsafe): notes/assumptions/34.md. -/
def State.eraseDone (r : RegionIx) (scrub : Bool) (s : State) : State :=
  let listed := s.work.scrubList.any fun e => e.region == r
  let t := s.setRegion r { s.work.regions[r] with condition := s.eraseCondition r scrub }
  let u := if listed || scrub then t.applyScrubEntry r else t
  (u.dropErase r .response).releaseHold r

end Sys2Proof.Machine
end

