-- ==== Sys2Proof/Machine/Response.lean ====
section
/-! DEFINITION. The response controller: triggers and the pending set (R135, R136), the steps of a
response (R138 to R143), escalation (R142), resumption (R146) and the count of responses (R147). -/

namespace Sys2Proof.Machine

/-! ### The pending set (R135) -/

/-- A further trigger of a source merges into its entry (R135). -/
def PendingTrigger.merge (e : PendingTrigger) (level : Level) (severity : Severity) (mask : BitVec 16) :
    PendingTrigger :=
  { e with
    level := e.level.max level
    severity := e.severity.join severity
    mask := e.mask ||| mask
    repeats := saturate 255 e.repeats }

/-- A trigger with its level, severity and mask is entered in the pending set, or merged into the entry
of its source; one at level NONE is not entered (R135). -/
def enterTrigger (source : SourceIx) (level : Level) (severity : Severity) (mask : BitVec 16)
    (set : List PendingTrigger) : List PendingTrigger :=
  if level = .none then set
  else if set.any fun e => e.source == source then
    set.map fun e => if e.source = source then e.merge level severity mask else e
  else set ++ [⟨source, level, severity, mask, 0⟩]

/-- A trigger of a source other than ORDER arrives: the response table gives its level and severity
(R135). -/
def State.trigger (source : SourceIx) (s : State) : State :=
  let e := s.entryOf source
  { s with response := { s.response with
      triggers := enterTrigger source e.level e.severity 0 s.response.triggers } }

/-- An erase order arrives: severity HIGH, with the order's level and mask (R144). -/
def State.triggerOrder (level : Level) (mask : BitVec 16) (s : State) : State :=
  { s with response := { s.response with
      triggers := enterTrigger srcOrder level .high mask s.response.triggers } }

/-- The entry a free controller takes: a HIGH entry before any LOW one, and the lowest source index
among entries of one severity (R136). -/
def nextTrigger (set : List PendingTrigger) : Option PendingTrigger :=
  let best (l : List PendingTrigger) := l.foldl (fun b e => match b with
    | some x => if e.source < x.source then some e else b
    | none => some e) (none : Option PendingTrigger)
  match best (set.filter fun e => e.severity == .high) with
  | some e => some e
  | none => best set

/-- Free: no response runs and the start-up sequence has released the controller (R136). During a
revert operation the controller takes no entry (R163). -/
def State.responseFree (s : State) : Bool :=
  s.response.running.isNone && s.response.released && !s.reverting

/-! ### The running response -/

def State.setRunning (r : Option RunningResponse) (s : State) : State :=
  { s with response := { s.response with running := r } }

/-- The lowest index among a set of sources (R137). -/
def firstSource (sources : BitVec 16) : SourceIx :=
  (([0, 1, 2, 3, 4, 5, 6, 7, 8] : List SourceIx).find? fun n => inMask sources n.val).getD 0

/-- What an entry adds to the erase set (R137). -/
def State.contribution (s : State) (e : PendingTrigger) : BitVec 16 :=
  if e.source = srcOrder then e.mask
  else if Level.rank .erase ≤ e.level.rank then maskOf fun r => s.work.regions[r].ratchets.theftWipe
  else 0

/-- Whether an entry makes a relock due: a source other than ORDER at RELOCK or above (R137). -/
def PendingTrigger.relocks (e : PendingTrigger) : Bool :=
  e.source != srcOrder && decide (Level.rank .relock ≤ e.level.rank)

/-- The relock but for the mode: every right LOCKED, every presented flag clear, an enabled window SHOWN
(R138 step 2, R108). -/
def State.relockKeepingMode (s : State) : State :=
  let t := s.lockAll.clearFlags
  { t with
    window := if t.work.window.enabled then { t.window with state := .shown } else t.window
    response := { t.response with
      running := t.response.running.map fun r => { r with relockDone := true } } }

/-- The working mode becomes LOCKDOWN; FACTORY stays (R105). -/
def State.lockDown (s : State) : State :=
  { s with work := { s.work with mode := if s.work.mode = .factory then .factory else .lockdown } }

/-- The relock of a response (R138 step 2). -/
def State.relock (s : State) : State := s.relockKeepingMode.lockDown

def State.relockIfDue (s : State) : State :=
  match s.response.running with
  | some r => if r.relockDue ∧ r.relockDone = false then s.relock else s
  | none => s

def State.setResponsePhase (p : ResponsePhase) (s : State) : State :=
  s.setRunning (s.response.running.map fun r => { r with phase := p })

/-- The controller enters RECORDING and submits a response-begin unit (R139). -/
def State.record (s : State) : State := (s.setResponsePhase .recording).submit .responseBegin

/-- The controller enters CLOSING and submits a response-end unit (R143). -/
def State.close (s : State) : State := (s.setResponsePhase .closing).submit .responseEnd

/-- The response an entry starts (R138). -/
def State.startResponse (e : PendingTrigger) (s : State) : State :=
  let mask := s.contribution e
  let running : RunningResponse :=
    ⟨bit e.source.val, e.level, e.severity, e.relocks, false, mask, 0, none, .recording, e.repeats⟩
  let s1 := { s with response := { s.response with
    triggers := s.response.triggers.filter fun x => x.source != e.source
    running := some running } }
  let s2 := s1.alert .responseBegun e.severity (some e.source) (some mask)
    (some (levelByte e.level).toNat) e.repeats
  let s3 := s2.relockIfDue
  if Level.rank .relock ≤ e.level.rank then s3.record else s3.close

/-- A free controller with a non-empty pending set takes an entry (R136). -/
def State.takeIfFree (s : State) : State :=
  if s.responseFree then
    match nextTrigger s.response.triggers with
    | some e => s.startResponse e
    | none => s
  else s

/-! ### Step boundaries (R142) -/

/-- The pending entries a step boundary absorbs (R142). -/
def absorbable (set : List PendingTrigger) (level : Level) : List PendingTrigger :=
  set.filter fun e => e.severity == .high && decide (level.rank < e.level.rank)

/-- One absorbed entry joins the running response (R142). -/
def State.join (s : State) (r : RunningResponse) (e : PendingTrigger) : RunningResponse :=
  { r with
    sources := r.sources ||| bit e.source.val
    level := r.level.max e.level
    severity := .high
    relockDue := r.relockDue || e.relocks
    mask := r.mask ||| s.contribution e
    repeats := min 255 (r.repeats + e.repeats) }

/-- The regions of the mask not yet erased. -/
def RunningResponse.remaining (r : RunningResponse) : BitVec 16 := r.mask &&& ~~~r.erased

/-- The entries absorbed at a step boundary join the response, the relock is carried out where it is now
due, and a response-begin unit records the new running record (R142). -/
def State.escalate (r : RunningResponse) (absorbed : List PendingTrigger) (s : State) : State :=
  let joined := absorbed.foldl s.join r
  let t := { s with response := { s.response with
    triggers := s.response.triggers.filter fun x => !absorbed.contains x
    running := some joined } }
  t.relockIfDue.record

/-- A region joins the running erased set, and the current region becomes absent (R141). -/
def State.markErased (r : RegionIx) (s : State) : State :=
  s.setRunning (s.response.running.map fun x => { x with erased := x.erased ||| bit r.val, current := none })

/-- The chosen region is handed to the crypto-erase (R140, R149): a disabling in progress is waited for,
otherwise the crypto-erase begins. -/
def State.handOver (r : RegionIx) (scrub : Bool) (s : State) : State :=
  if s.disabling r then { s with erases := s.erases ++ [⟨r, .response, scrub, .waitDisabling⟩] }
  else s.beginErase r .response scrub

/-- A step boundary of the running response: escalation first (R142), else the next region of the erase
set (R140), else CLOSING (R139, R143). A region that is not enabled is passed over, which is a further
step boundary (R141, R149); each of the 16 regions is passed over at most once. -/
def State.boundaryStep : Nat → State → State
  | 0, s => s
  | n + 1, s =>
    match s.response.running with
    | none => s
    | some r =>
      let absorbed := absorbable s.response.triggers r.level
      if absorbed = [] then
        match (if Level.rank .erase ≤ r.level.rank then lowest r.remaining else none) with
        | none => s.close
        | some q =>
          let t := s.setRunning (some { r with phase := .erasing, current := some q })
          if s.work.regions[q].enabled then t.handOver q (r.level == .scrub)
          else (t.markErased q).boundaryStep n
      else s.escalate r absorbed

def State.stepBoundary (s : State) : State := s.boundaryStep 17

/-- The crypto-erase answers the controller that a region is passed over after a disabling ended: the
region joins the erased set and the event is a step boundary (R141, R149). -/
def State.passOver (r : RegionIx) (s : State) : State := ((s.dropErase r .response).markErased r).stepBoundary

/-! ### Resumption (R146) -/

/-- The severity of a resumed response (R146 step 1). -/
def State.resumedSeverity (s : State) (sources : BitVec 16) : Severity :=
  if ([0, 1, 2, 3, 4, 5, 6, 7, 8] : List SourceIx).any fun n =>
      inMask sources n.val && s.severityFor n == .high then .high else .low

/-- The running record formed from a stored in-progress record (R146 step 1). -/
def State.resumedRecord (s : State) (p : InProgress) : RunningResponse :=
  ⟨p.sources, p.level, s.resumedSeverity p.sources, p.relockDone, p.relockDone, p.mask, p.erased, none,
    .recording, 0⟩

/-- Steps 2 and 3 of a resumption (R146): the response runs again, RESPONSE-BEGUN is queued, and the relock
is repeated if it was carried out before. The mode stays the stored one (R104). -/
def State.resume (p : InProgress) (s : State) : State :=
  let r := s.resumedRecord p
  let t := (s.setRunning (some r)).alert .responseBegun r.severity (some (firstSource p.sources))
    (some p.mask) (some (levelByte p.level).toNat) 0
  if p.relockDone then t.relockKeepingMode else t

/-- Whether a resumed response enters ERASING with the crypto-erase of an enabled region (R146): the lowest
region not yet erased decides, also where it is passed over and a later one is erased.
DESIGN CHOICE (unsafe): notes/assumptions/52.md. -/
def State.resumedErases (s : State) (p : InProgress) : Bool :=
  (absorbable s.response.triggers p.level).isEmpty && decide (Level.rank .erase ≤ p.level.rank)
    && (lowest (s.resumedRecord p).remaining).any fun q => s.work.regions[q].enabled

/-- Step 6 of the start-up sequence: the controller is released, and resumes the response a stored
in-progress record describes (R102, R146). It answers the start-up controller in the same event unless
it entered ERASING with the crypto-erase of an enabled region, whose draw it awaits. -/
def State.releaseController (s : State) : State :=
  let t := { s with response := { s.response with released := true } }
  match t.work.inProgress with
  | none => t
  | some p =>
    let u := t.resume p
    State.stepBoundary { u with response := { u.response with answerDue := u.resumedErases p } }

/-! ### Answers to the controller's units -/

/-- An administrator refund: the working count becomes 0 and a count reset falls due; its unit is
submitted now if the controller holds no commit (R147). -/
def State.administratorRefund (s : State) : State :=
  let t := { s with response := { s.response with count := 0 } }
  if t.holds .response then { t with response := { t.response with countResetDue := true } }
  else t.submit .countReset

/-- The controller's present commit is answered: a count reset that is due is submitted ahead of its
next unit (R147). -/
def State.submitCountReset (s : State) : State :=
  if s.response.countResetDue then
    State.submit .countReset { s with response := { s.response with countResetDue := false } }
  else s

/-- A response-begin unit answered done is a step boundary (R139). -/
def State.responseBeginDone (s : State) : State :=
  State.stepBoundary { s with work := { s.work with inProgress := s.stored.inProgress } }

/-- A key destruction unit answered done: the crypto-erase ends, the region joins the erased set, and
the event is a step boundary (R141, R151). -/
def State.keyDestructionDone (r : RegionIx) (s : State) : State :=
  let t := { s with work := { s.work with inProgress := s.stored.inProgress } }
  match t.eraseOf r .response with
  | some e => ((t.eraseDone r e.scrub).markErased r).stepBoundary
  | none => t

/-- A response-end unit answered done: the response has ended, RESPONSE-DONE is queued and the
controller is free (R143, R147). -/
def State.responseEndDone (s : State) : State :=
  let t := { s with
    work := { s.work with inProgress := s.stored.inProgress, lastResponse := s.stored.lastResponse }
    response := { s.response with count := s.stored.lastResponse.count, countResetDue := false } }
  match t.response.running with
  | none => t
  | some r =>
    (t.alert .responseDone r.severity (some (firstSource r.sources)) (some r.erased)
      (some (levelByte r.level).toNat) r.repeats).setRunning none

end Sys2Proof.Machine
end

