-- ==== Sys2Proof/Machine/Store.lean ====
section
/-! DEFINITION. The secure store: what each commit unit writes (R165), the gate and the start of a write
(R167, R169), and the code of a conversion (R168). -/

namespace Sys2Proof.Machine

/-! ### Contents of the units (R165) -/

/-- The region record as a unit carries it: SCRUBBING is not committed (R34).
DEDUCED (safe): notes/assumptions/13.md. -/
def State.storableRegion (s : State) (r : RegionIx) : RegionRecord :=
  { s.work.regions[r] with condition := s.work.regions[r].condition.storable }

/-- The attempt counter a charge writes: one above the working value, never above the limit (R83,
R91).
DEDUCED (unsafe): notes/assumptions/22.md. -/
def CredentialRecord.charged (x : CredentialRecord) : Nat := min (x.counter + 1) x.limit

/-- The grant list with the entry for a region inserted at its place, replaced, or removed when the rights
are NONE (R96). -/
def setGrant (r : RegionIx) (rights : GrantRights) (grants : List GrantEntry) : List GrantEntry :=
  let before := grants.filter fun g => decide (g.region < r)
  let after := grants.filter fun g => decide (r < g.region)
  if rights = .none then before ++ after else before ++ ⟨r, rights⟩ :: after

/-- The attempt limit a new secret keeps, or the factory default of a credential being created (R93). -/
def newLimit (c : CredIx) (x : CredentialRecord) : Nat :=
  if x.secret.isSome then x.limit else if c = 0 then 10 else 5

def Records.setCredential (c : CredIx) (x : CredentialRecord) (p : Records) : Records :=
  { p with credentials := p.credentials.set c x }

def Records.setRegion (r : RegionIx) (x : RegionRecord) (p : Records) : Records :=
  { p with regions := p.regions.set r x }

def Records.setKey (r : RegionIx) (x : KeyRecord) (p : Records) : Records :=
  { p with keys := p.keys.set r x }

/-- The region record a DEFINE-REGION's unit writes (R38 to R40). An enabling writes the conceal and absorb it
requests, as R38 says, and not the flags a disabling kept, which R33 lets apply again.
DESIGN CHOICE (unsafe): notes/assumptions/57.md. -/
def State.definedRegion (s : State) (d : DefineRequest) : RegionRecord :=
  match d.kind with
  | .enabling f =>
    { enabled := true, extent := f.extent, powerOnRead := f.powerOnRead, powerOnWrite := f.powerOnWrite,
      conceal := f.conceal, absorb := f.absorb, condition := .normal,
      ratchets := s.work.regions[d.region].ratchets, faultCount := 0 }
  | .change f =>
    { s.storableRegion d.region with
      extent := f.extent, powerOnRead := f.powerOnRead, powerOnWrite := f.powerOnWrite,
      conceal := f.conceal, absorb := f.absorb }
  | .disabling => { s.work.regions[d.region] with enabled := false, extent := none, condition := .unused }

/-- Whether a DEFINE-REGION writes a new key record (R38, R40); a change leaves it unchanged (R39).
DEDUCED (safe): notes/assumptions/24.md. -/
def DefineKind.writesKey : DefineKind → Bool
  | .enabling _ | .disabling => true
  | .change _ => false

def RegionRatchets.union (a b : RegionRatchets) : RegionRatchets :=
  ⟨a.fixedBounds || b.fixedBounds, a.fixedGrants || b.fixedGrants, a.fixedFlags || b.fixedFlags,
    a.theftWipe || b.theftWipe⟩

def DeviceRatchets.union (a b : DeviceRatchets) : DeviceRatchets :=
  ⟨a.fixedResponses || b.fixedResponses, a.fixedTamper || b.fixedTamper,
    a.fixedDeadlines || b.fixedDeadlines⟩

/-- The region ratchets of a mask's regions with a set added (R44). -/
def addRatchets (mask : BitVec 16) (add : RegionRatchets) (regions : Vector RegionRecord 16) :
    Vector RegionRecord 16 :=
  tabMapIx (fun i x => if inMask mask i then { x with ratchets := x.ratchets.union add } else x) regions

/-- The scrub list with a region's entry as its crypto-erase writes it (R150). -/
def listWith (r : RegionIx) (start : Nat) (scrub : Bool) (l : List ScrubEntry) : List ScrubEntry :=
  if l.any fun e => e.region == r then l.map fun e => if e.region = r then { e with cursor := start } else e
  else if scrub then l ++ [⟨r, start⟩] else l

/-- The in-progress record of the running response (R139). -/
def RunningResponse.record (r : RunningResponse) : InProgress :=
  ⟨r.sources, r.level, r.mask, r.erased, r.relockDone⟩

/-- The last-response record a response-end unit writes (R147).
DEDUCED (unsafe): notes/assumptions/25.md. -/
def State.endedRecord (s : State) (r : RunningResponse) : LastResponse :=
  ⟨r.sources, r.level, r.erased, s.time.stamp, saturate 255 s.response.count⟩

/-- The window settings a SET-WINDOW writes: W kept when enable is no, L lowered to the new W (R110). -/
def WindowSettings.apply (enable : Bool) (w : Nat) (x : WindowSettings) : WindowSettings :=
  let w' := if enable then w else x.w
  ⟨enable, w', min x.l w'⟩

/-- Every record as the revert unit writes it (R163). -/
def State.revertedRecords (s : State) (scrub : Bool) : Records where
  regions := if scrub then factoryRegions.set 0 { factoryRegion true with condition := .scrubQueued }
    else factoryRegions
  keys := s.work.keys
  credentials := factoryCredentials
  revertCounter := 0
  mode := .factory
  deviceRatchets := noDeviceRatchets
  responseTable := factoryResponseTable
  inProgress := none
  lastResponse := noResponse
  scrubList := if scrub then [⟨0, 0⟩] else []
  lines := Vector.replicate 4 factoryLine
  deadlines := factoryDeadlines
  holdup := factoryHoldup
  window := factoryWindow
  label := factoryLabel
  scrubShare := 4
  mediaTimeout := 30

/-- The store's contents once a unit is written: the records it carries as they stand at the moment its
write starts, the others as stored (R165, R167). A secret unit whose SET-SECRET was taken in FACTORY writes
mode ARMED while the mode is FACTORY still, and leaves the stored mode alone afterwards (R93, R104).
DEDUCED (unsafe): notes/assumptions/49.md.
DESIGN CHOICE (safe): notes/assumptions/40.md. DEDUCED (unsafe): notes/assumptions/26.md. -/
def State.image (s : State) : CommitUnit → Records
  | .charge p _ =>
    s.stored.setCredential p.credential
      { s.work.credentials[p.credential] with counter := s.work.credentials[p.credential].charged }
  | .revertCharge .. => { s.stored with revertCounter := saturate 99 s.work.revertCounter }
  | .refund p =>
    let x := s.stored.setCredential p.credential { s.work.credentials[p.credential] with counter := 0 }
    { x with
      deadlines := { x.deadlines with p := 0, np := 0 }
      mode := if p.credential = 0 then .armed else x.mode }
  | .secret q v =>
    let x := s.work.credentials[q.credential]
    let y := s.stored.setCredential q.credential
      { secret := some v, counter := 0, limit := newLimit q.credential x
        grants := if x.secret.isSome then x.grants else [] }
    { y with mode := if q.arms ∧ s.work.mode = Mode.factory then .armed else y.mode }
  | .regionDefinition d =>
    let x := s.stored.setRegion d.region (s.definedRegion d)
    if d.kind.writesKey then x.setKey d.region s.work.keys[d.region] else x
  | .remove _ c => s.stored.setCredential c (factoryCredential 5)
  | .grant _ c r rights =>
    s.stored.setCredential c
      { s.work.credentials[c] with grants := setGrant r rights s.work.credentials[c].grants }
  | .limit _ c l =>
    s.stored.setCredential c
      { s.work.credentials[c] with limit := l, counter := min s.work.credentials[c].counter l }
  | .resetAttempts _ c => s.stored.setCredential c { s.work.credentials[c] with counter := 0 }
  | .ratchet _ mask rs ds =>
    { s.stored with
      regions := tabMapIx (fun i x =>
        match allRegions.find? fun q => q.val == i && inMask mask i with
        | some q => { s.storableRegion q with ratchets := (s.work.regions[q].ratchets).union rs }
        | none => x) s.stored.regions
      deviceRatchets := s.work.deviceRatchets.union ds }
  | .responseBegin =>
    match s.response.running with
    | some r => { s.stored with inProgress := some r.record, mode := s.work.mode }
    | none => s.stored
  | .keyDestruction r =>
    match s.eraseOf r .response with
    | some e =>
      let x := (s.stored.setKey r s.work.keys[r]).setRegion r
        { s.work.regions[r] with condition := s.eraseCondition r e.scrub }
      { x with
        scrubList := listWith r s.work.regions[r].startLba e.scrub x.scrubList
        inProgress := x.inProgress.map fun p => { p with erased := p.erased ||| bit r.val } }
    | none => s.stored
  | .responseEnd =>
    match s.response.running with
    | some r => { s.stored with inProgress := none, lastResponse := s.endedRecord r }
    | none => s.stored
  | .countReset => { s.stored with lastResponse := { s.stored.lastResponse with count := 0 } }
  | .checkpoint =>
    { s.stored with scrubList := match s.stored.scrubList with
      | e :: rest => { e with cursor := s.cursor } :: rest
      | [] => [] }
  | .finish =>
    match s.scrubHead with
    | some h =>
      let x := s.stored.setRegion h { s.work.regions[h] with condition := .normal }
      { x with scrubList := x.scrubList.filter fun e => e.region != h }
    | none => s.stored
  | .deadlineCharge =>
    { s.stored with deadlines :=
        { s.stored.deadlines with p := s.work.deadlines.p, np := s.work.deadlines.np } }
  | .setResponse _ src e =>
    { s.stored with responseTable := s.stored.responseTable.set (src.val - 1) e (by omega) }
  | .setTamper _ n c => { s.stored with lines := s.stored.lines.set n c }
  | .setDeadline _ dp dn q =>
    { s.stored with deadlines := { s.stored.deadlines with dp := dp, dn := dn, q := q } }
  | .setHoldup _ x => { s.stored with holdup := x }
  | .setWindow _ enable w => { s.stored with window := s.stored.window.apply enable w }
  | .imageLength _ l => { s.stored with window := { s.stored.window with l := l } }
  | .label _ text => { s.stored with label := text }
  | .scrubShare _ v => { s.stored with scrubShare := v }
  | .mediaTimeout _ v => { s.stored with mediaTimeout := v }
  | .revert _ scrub => s.revertedRecords scrub

/-! ### Gate (R169) -/

/-- The gate mode in force: CONTINUOUS is served as ON-DEMAND until step 11 of the start-up sequence
(R100, R172). -/
def State.gateMode (s : State) : GateMode :=
  if s.work.holdup.gate = .continuous ∧ s.isRunning = false then .onDemand else s.work.holdup.gate

/-- The store takes the unit's contents and begins its write (R167). -/
def State.startWrite (u : CommitUnit) (s : State) : State :=
  { s with store := { s.store with writing := some (s.image u), headWaiting := false } }

/-- A conversion starts unless one is in flight (R168, R169). -/
def State.startConversion (s : State) : State := { s with holdup := { s.holdup with converting := true } }

/-- A unit that has become the head meets the gate with a fresh low count: under OFF it passes at once,
otherwise it waits for a conversion end. After the fall of power-good no unit is taken and no conversion
starts (R167, R169). -/
def State.serveStore (s : State) : State :=
  match s.store.queue, s.store.writing with
  | u :: _, none =>
    if s.startUp.powerGood = true ∧ s.store.headWaiting = false then
      let t := { s with holdup := { s.holdup with lowCount := 0 } }
      if s.gateMode = .off then t.startWrite u
      else State.startConversion { t with store := { t.store with headWaiting := true } }
    else s
  | _, _ => s

/-- A unit is submitted, and meets the gate in that event if it is the head. -/
def State.submitNow (u : CommitUnit) (s : State) : State := (s.submit u).serveStore

/-! ### Conversions (R168) -/

/-- Trial k of a conversion keeps the trial value T when V ≥ (T − 0.5) × 3.30/256 V; the voltage is in
nanovolts. -/
def keepsTrial (nanovolts trial : Nat) : Bool := decide ((2 * trial - 1) * 3300000000 ≤ 512 * nanovolts)

/-- The trials k = n − 1 down to 0, from a code (R168). -/
def trials (nanovolts : Nat) : Nat → Nat → Nat
  | 0, code => code
  | k + 1, code =>
    trials nanovolts k (if keepsTrial nanovolts (code + 2 ^ k) then code + 2 ^ k else code)

/-- The code of a conversion: eight trials from 0 (R168). -/
def conversionCode (nanovolts : Nat) : Nat := trials nanovolts 8 0

end Sys2Proof.Machine
end

