-- ==== Sys2Proof/Machine/StartUp.lean ====
section
/-! DEFINITION. The start-up sequence (R100 to R103) and what one event brings about across the blocks
once its own effect has taken place. -/

namespace Sys2Proof.Machine

/-! ### Deadline counters: charges (R101, R128 to R130) -/

/-- The time base is asked for a deadline charge (R130). -/
def State.askCharge (s : State) : State :=
  if s.deadlines.chargeHeld then s
  else if s.work.deadlines.p ≠ s.stored.deadlines.p ∨ s.work.deadlines.np ≠ s.stored.deadlines.np then
    State.submit .deadlineCharge { s with deadlines := { s.deadlines with chargeHeld := true } }
  else s

/-- A deadline fires: the trigger is handed and a DEADLINE alert queued (R128, R129). -/
def State.fireDeadline (source : SourceIx) (value : Nat) (s : State) : State :=
  (s.trigger source).alert .deadline (s.severityFor source) (some source) none (some value) 0

/-- P is charged by Q, and POWERED-DEADLINE fires if P is then at least Dp (R128). -/
def State.chargeP (s : State) : State :=
  let p := min 65535 (s.work.deadlines.p + s.work.deadlines.q)
  let t := { s with work := { s.work with deadlines := { s.work.deadlines with p := p } } }
  if s.work.deadlines.dp ≤ p then t.fireDeadline srcPowered p else t

/-- Np is charged at step 3, and POWERON-DEADLINE fires if Np then exceeds Dn (R129). -/
def State.chargeNp (s : State) : State :=
  let np := saturate 255 s.work.deadlines.np
  let t := { s with work := { s.work with deadlines := { s.work.deadlines with np := np } } }
  if s.work.deadlines.dn < np then t.fireDeadline srcPowerOn np else t

/-! ### Time-source fault (R126) -/

/-- The time base enters FAULTED, hands TIME-FAULT and queues its alert: value 1 for never started, 2 for
stopped (R126). -/
def State.timeFault (value : Nat) (s : State) : State :=
  (State.trigger srcTimeFault { s with time := { s.time with source := .faulted } }).alert .timeFault
    (s.severityFor srcTimeFault) (some srcTimeFault) none (some value) 0

/-! ### The sequence -/

/-- Step 1: the working copies are read from the store, SCRUBBING as SCRUB-QUEUED, and the boundary list
is rebuilt; no key is loaded and the commit queue is empty (R25, R27, R34, R45, R100).
DESIGN CHOICE (safe): notes/assumptions/12.md. DEDUCED (safe): notes/assumptions/13.md. -/
def State.readStore (s : State) : State :=
  State.rebuildBoundary
    { s with
      work := { s.stored with
        regions := tabMap (fun x => { x with condition := x.condition.storable }) s.stored.regions }
      keys := tabMap (fun k => { k with loaded := none }) s.keys
      store := ⟨[], none, false, []⟩
      response := { s.response with count := s.stored.lastResponse.count } }

/-- Step 2: the ticks start; a slow source already seen running is entered, and a fault whose 2 s have
run out is taken (R124, R126).
DEDUCED (unsafe): notes/assumptions/38.md. -/
def State.startTicks (s : State) : State :=
  let t := { s with startUp := { s.startUp with phase := .sampling } }
  match s.time.early with
  | .nothing => t
  | .running => { t with time := { t.time with source := .slow } }
  | .late => t.timeFault 1

/-- Steps 1 to 4, and the start of step 5 (R100, R101). -/
def State.firstSteps (s : State) : State :=
  let s2 := s.readStore.startTicks
  let s3 := if s2.work.deadlines.dn ≠ 0 then s2.chargeNp.askCharge else s2
  if s3.work.deadlines.dp ≠ 0 then s3.chargeP.askCharge else s3

/-- Step 7: a region's rights at power-on (R31). -/
def State.powerOnRights (s : State) (r : RegionIx) : State :=
  let x := s.work.regions[r]
  if s.work.mode ≠ .lockdown ∧ s.openable r = true then
    let t := s.lockBoth r
    let t1 := if x.powerOnRead = .opened then t.openRight .read r else t
    if x.powerOnWrite = .opened then t1.openRight .write r else t1
  else s.lockBoth r

def State.setPowerOnRights (s : State) : State := allRegions.foldl State.powerOnRights s

/-- Step 9: the back-off of each credential whose stored counter is above 0, and of REVERT (R90,
R162). -/
def State.startBackoffs (s : State) : State :=
  let t := { s with revertBackoff :=
    if 0 < s.work.revertCounter then backoffFor s.work.revertCounter else 0 }
  allCredentials.foldl (fun u c =>
    u.setBackoff c (if 0 < u.work.credentials[c].counter then backoffFor u.work.credentials[c].counter
      else 0)) t

/-- Step 8: the window is SHOWN if enabled, else OFF (R108). -/
def State.showAtPowerOn (s : State) : State :=
  { s with window := { s.window with state := if s.work.window.enabled then .shown else .off } }

/-- Step 10: the head of the stored scrub list is started from its stored cursor (R161). -/
def State.resumeScrub (s : State) : State :=
  if s.work.scrubList.isEmpty then s else s.settleHead.startWalk

/-- Step 11: a stored gate mode of CONTINUOUS is taken up (R100, R172). -/
def State.takeGateMode (s : State) : State :=
  if s.work.holdup.gate = .continuous ∧ s.startUp.powerGood = true then s.startConversion else s

/-- Step 12: port ready is asserted and the controller enters RUNNING (R100). Port ready stays deasserted
if power-good has fallen (R99).
DEDUCED (unsafe): notes/assumptions/32.md. -/
def State.assertReady (s : State) : State :=
  { s with startUp := ⟨s.startUp.powerGood, s.startUp.powerGood, .running⟩ }

/-- Steps 7 to 12 (R100). -/
def State.lastSteps (s : State) : State :=
  s.setPowerOnRights.showAtPowerOn.startBackoffs.resumeScrub.takeGateMode.assertReady

/-- The start-up controller goes on once the response controller has answered (R102). -/
def State.progress (s : State) : State :=
  if s.startUp.phase = .resuming ∧ s.response.answerDue = false then s.lastSteps else s

/-- What the rules put in the same event as its cause: a free response controller takes an entry (R136),
destruction steps that are due take place (R150), the start-up sequence goes on (R102), a walk that is
due starts (R155, R157), the media port serves its slots (R64), and the head unit meets the gate
(R169).
DEDUCED (unsafe): notes/assumptions/1.md. DESIGN CHOICE (unsafe): notes/assumptions/41.md. -/
def State.settle (s : State) : State :=
  s.takeIfFree.destroyAllDue.progress.startWalkIfDue.serveMedia.serveStore

end Sys2Proof.Machine
end

