-- ==== Sys2Proof/Machine/Credentials.lean ====
section
/-! DEFINITION. The credential engine (chapter 5): PRESENT and its stages, SET-SECRET, and the credential
management requests. Each request takes the number of its management request. -/

namespace Sys2Proof.Machine

/-- Attempts left: the limit minus the counter (R77). -/
def CredentialRecord.left (x : CredentialRecord) : Nat := x.limit - x.counter

/-! ### PRESENT -/

/-- Checks 4 and 5 of R82, made again where a charge had to wait (R83): the reply they give, if any. -/
def State.presentBlocked (s : State) (c : CredIx) : Option (ResultCode × List Byte) :=
  if s.work.credentials[c].counter = s.work.credentials[c].limit then some (.exhausted, le 1 0)
  else if 0 < s.credentials[c].backoff then some (.backingOff, le 2 s.credentials[c].backoff)
  else none

/-- PRESENT: the checks of R82 in order, then the charge (R83). -/
def presentRequest (id : Nat) (credential : Byte) (readMask writeMask : BitVec 16) (options : Byte)
    (secret : List Byte) (s : State) : State :=
  match credIxOf credential with
  | none => s.reply id 0x02 .badRequest []
  | some c =>
    if secret.length = 0 ∨ 64 < secret.length then s.reply id 0x02 .badRequest []
    else if s.work.credentials[c].secret.isNone then s.reply id 0x02 .notFound []
    else if s.work.mode = .lockdown ∧ c ≠ 0 then s.reply id 0x02 .lockdown []
    else
      match s.presentBlocked c with
      | some (result, body) => s.reply id 0x02 result body
      | none => s.submitNow (.charge ⟨id, c, readMask, writeMask, options.getLsbD 0⟩ secret)

/-- The source of a credential's ATTEMPTS trigger (R92). -/
def attemptsSource (c : CredIx) : SourceIx := if c = 0 then srcAdminAttempts else srcUserAttempts

/-- The ATTEMPTS trigger and its alert (R92). -/
def State.attemptsTrigger (c : CredIx) (s : State) : State :=
  (s.trigger (attemptsSource c)).alert .attempts (s.severityFor (attemptsSource c))
    (some (attemptsSource c)) none (some c.val) 0

/-- A presentation fails with charged counter a: the back-off is set, at the limit the trigger is raised,
and the reply, if one is still awaited, is BAD-SECRET (R84, R87, R92). Where SET-LIMIT has meanwhile lowered
the limit below a, the attempts left are 0.
DEDUCED (unsafe): notes/assumptions/43.md. -/
def State.presentFails (p : PresentRequest) (a : Nat) (s : State) : State :=
  let t := s.setBackoff p.credential (backoffFor a)
  let u := if a = s.work.credentials[p.credential].limit then t.attemptsTrigger p.credential else t
  u.reply p.id 0x02 .badSecret (le 1 (s.work.credentials[p.credential].limit - a))

/-- The charge of a PRESENT is answered done (R83): the working counter takes the charged value and the
derivation begins, unless a link reset has detached the request, which is then abandoned (R87).
DESIGN CHOICE (unsafe): notes/assumptions/23.md. -/
def State.chargeDone (p : PresentRequest) (secret : List Byte) (s : State) : State :=
  let x := s.stored.credentials[p.credential]
  let t := s.setCredential p.credential x
  if s.attached p.id then
    match x.secret with
    | some v => { t with derivation := some ⟨v.salt, v.cost, secret, .present p x.counter⟩ }
    | none => t.presentFails p x.counter
  else t.presentFails p x.counter

/-- Whether a grant list lets a right of a region be opened (R78). -/
def granted (grants : List GrantEntry) (k : RightKind) (r : RegionIx) : Bool :=
  grants.any fun g => g.region == r && (g.rights == .both
    || match k with
       | .read => g.rights == .read
       | .write => g.rights == .write)

/-- Whether a presentation names a right: asked for in its masks and, for a user, granted (R86). -/
def State.names (s : State) (p : PresentRequest) (k : RightKind) (r : RegionIx) : Bool :=
  (match k with
    | .read => inMask p.readMask r.val
    | .write => inMask p.writeMask r.val)
  && (p.credential == 0 || granted s.work.credentials[p.credential].grants k r)

/-- An open request for one right: opened if its region passes the tests of R29. -/
def State.openNamed (p : PresentRequest) (k : RightKind) (s : State) (r : RegionIx) : State :=
  if s.names p k r && s.openable r then s.openRight k r else s

/-- The open request of a matching presentation (R29, R86). -/
def State.openRequest (p : PresentRequest) (s : State) : State :=
  allRegions.foldl (State.openNamed p .write) (allRegions.foldl (State.openNamed p .read) s)

/-- The rights the region table reports opened, those already OPEN included (R29). -/
def State.openedMask (s : State) (p : PresentRequest) (k : RightKind) : BitVec 16 :=
  maskOf fun r => s.names p k r && s.openable r && (s.regions[r].right k == .opened)

/-- A retirement handed to the boot window: a SHOWN window becomes RETIRED (R109). -/
def State.retire (s : State) : State :=
  if s.window.state = .shown then { s with window := { s.window with state := .retired } } else s

/-- The opening of a matching PRESENT, decided against the mode of the refund's done event (R86). -/
def State.opening (p : PresentRequest) (s : State) : State :=
  if s.work.mode = .lockdown ∧ p.credential ≠ 0 then s.reply p.id 0x02 .lockdown []
  else
    let t := s.setCredStatus p.credential { s.credentials[p.credential] with presented := true }
    let u := t.openRequest p
    let v := if p.retire then u.retire else u
    v.reply p.id 0x02 .done
      (bytes16 (v.openedMask p .read) ++ bytes16 (v.openedMask p .write)
        ++ le 1 s.work.credentials[p.credential].left ++ [windowByte v.window.state])

/-- The refund is answered done (R85): counter, P and Np are 0; for credential 0 LOCKDOWN returns to
ARMED and the response controller takes the administrator refund; the opening follows. -/
def State.refundDone (p : PresentRequest) (s : State) : State :=
  let t := s.setCredential p.credential s.stored.credentials[p.credential]
  let u := { t with work := { t.work with
    deadlines := { t.work.deadlines with p := 0, np := 0 }
    mode := if p.credential = 0 ∧ t.work.mode = Mode.lockdown then .armed else t.work.mode } }
  let v := if p.credential = 0 then u.administratorRefund else u
  v.opening p

/-! ### SET-SECRET -/

/-- SET-SECRET: its checks, then the salt draw (R93). -/
def setSecretRequest (id : Nat) (credential cost : Byte) (secret : List Byte) (s : State) : State :=
  match credIxOf credential with
  | none => s.reply id 0x04 .badRequest []
  | some c =>
    if secret.length = 0 ∨ 64 < secret.length then s.reply id 0x04 .badRequest []
    else
      s.requestDraw (.salt ⟨id, c, secret, clamp 4 12 cost.toNat, c == 0 && s.work.mode == .factory⟩)

/-- The salt arrives and the derivation begins; the salt of an abandoned request is discarded (R93,
R94). -/
def State.saltArrives (q : SecretRequest) (salt : BitVec 128) (s : State) : State :=
  if s.attached q.id then { s with derivation := some ⟨salt, q.cost, q.secret, .secret q⟩ } else s

/-- The secret unit is answered done (R94). -/
def State.secretDone (q : SecretRequest) (s : State) : State :=
  let t := (s.setCredential q.credential s.stored.credentials[q.credential]).setBackoff q.credential 0
  let u := { t with work := { t.work with
    mode := if q.arms ∧ t.work.mode = Mode.factory then .armed else t.work.mode } }
  u.reply q.id 0x04 .done (le 1 q.cost)

/-- The secret bytes of a SET-SECRET are overwritten once its derivation has ended (R81). -/
def SecretRequest.overwritten (q : SecretRequest) : SecretRequest := { q with secret := [] }

/-- The running derivation ends (R81, R84, R93): the digest of a PRESENT is compared with the verifier, and
a match is followed by the refund (R85); that of a SET-SECRET goes into the secret unit.
DESIGN CHOICE (unsafe): notes/assumptions/23.md. -/
def State.derivationEnds (s : State) : State :=
  match s.derivation with
  | none => s
  | some d =>
    let digest := Config.derive d.salt d.cost d.secret
    let t := { s with derivation := none }
    match d.use with
    | .present p a =>
      match s.work.credentials[p.credential].secret with
      | some v => if digest = v.digest then t.submit (.refund p) else t.presentFails p a
      | none => t.presentFails p a
    | .secret q => t.submit (.secret q.overwritten ⟨d.salt, digest, d.cost⟩)

/-! ### Managing credentials -/

/-- REMOVE-CREDENTIAL (R95). -/
def removeCredentialRequest (id : Nat) (credential : Byte) (s : State) : State :=
  match credIxOf credential with
  | none => s.reply id 0x05 .badRequest []
  | some c =>
    if c = 0 then s.reply id 0x05 .badRequest []
    else if s.work.credentials[c].secret.isNone then s.reply id 0x05 .notFound []
    else if s.work.credentials[c].grants.any fun g => s.work.regions[g.region].ratchets.fixedGrants then
      s.reply id 0x05 .ratcheted []
    else s.submitNow (.remove id c)

def State.removeDone (id : Nat) (c : CredIx) (s : State) : State :=
  State.reply id 0x05 .done []
    ((s.setCredential c s.stored.credentials[c]).setCredStatus c ⟨false, 0⟩)

/-- The rights of a grant list's entry for a region; a missing entry counts as NONE (R96). -/
def grantFor (r : RegionIx) (grants : List GrantEntry) : GrantRights :=
  match grants.find? fun g => g.region == r with
  | some g => g.rights
  | none => .none

/-- GRANT (R96). One whose rights equal the present entry's is answered DONE with the grant list, as one
that commits is.
DESIGN CHOICE (unsafe): notes/assumptions/28.md. -/
def grantRequest (id : Nat) (user region rights : Byte) (s : State) : State :=
  match credIxOf user, regionIxOf region, grantOf rights with
  | some c, some r, some g =>
    if c = 0 then s.reply id 0x06 .badRequest []
    else if s.work.credentials[c].secret.isNone ∨ (g ≠ .none ∧ s.work.regions[r].enabled = false) then
      s.reply id 0x06 .notFound []
    else if s.work.regions[r].ratchets.fixedGrants = true
        ∧ g ≠ grantFor r s.work.credentials[c].grants then s.reply id 0x06 .ratcheted []
    else if g = grantFor r s.work.credentials[c].grants then
      s.reply id 0x06 .done (grantBytes s.work.credentials[c].grants)
    else s.submitNow (.grant id c r g)
  | _, _, _ => s.reply id 0x06 .badRequest []

def State.grantDone (id : Nat) (c : CredIx) (s : State) : State :=
  State.reply id 0x06 .done (grantBytes s.stored.credentials[c].grants)
    (s.setCredential c s.stored.credentials[c])

/-- SET-LIMIT (R97). -/
def setLimitRequest (id : Nat) (credential limit : Byte) (s : State) : State :=
  match credIxOf credential with
  | none => s.reply id 0x07 .badRequest []
  | some c =>
    if s.work.credentials[c].secret.isNone then s.reply id 0x07 .notFound []
    else s.submitNow (.limit id c (clamp 1 99 limit.toNat))

def State.limitDone (id : Nat) (c : CredIx) (limit : Nat) (s : State) : State :=
  State.reply id 0x07 .done (le 1 limit ++ le 1 s.stored.credentials[c].left)
    (s.setCredential c s.stored.credentials[c])

/-- RESET-ATTEMPTS (R98). -/
def resetAttemptsRequest (id : Nat) (credential : Byte) (s : State) : State :=
  match credIxOf credential with
  | none => s.reply id 0x08 .badRequest []
  | some c =>
    if s.work.credentials[c].secret.isNone then s.reply id 0x08 .notFound []
    else s.submitNow (.resetAttempts id c)

def State.resetAttemptsDone (id : Nat) (c : CredIx) (s : State) : State :=
  State.reply id 0x08 .done (le 1 s.stored.credentials[c].limit)
    ((s.setCredential c s.stored.credentials[c]).setBackoff c 0)

/-! ### REVERT (R162) -/

/-- REVERT: the checks of R162, then the revert charge. -/
def revertRequest (id : Nat) (scrub : Byte) (code : List Byte) (s : State) : State :=
  if code.length ≠ 32 then s.reply id 0x19 .badRequest []
  else if s.define.isSome then s.reply id 0x19 .busy []
  else if s.response.running.isSome then s.reply id 0x19 .responseActive []
  else if 0 < s.revertBackoff then s.reply id 0x19 .backingOff (le 2 s.revertBackoff)
  else s.submitNow (.revertCharge id (yes scrub) code)

/-- The right code begins the revert operation (R163): every right LOCKED, every flag clear, and the
crypto-erase of every enabled region begun. -/
def State.beginRevert (id : Nat) (scrub : Bool) (s : State) : State :=
  let t := { s.lockAll.clearFlags with reverting := true, revertRequest := some (id, scrub) }
  allRegions.foldl (fun u r =>
    if u.work.regions[r].enabled then u.beginErase r .revert (scrub && r == 0) else u) t

/-- The revert charge is answered done (R162): the code is compared, unless a link reset has abandoned
the REVERT. -/
def State.revertChargeDone (id : Nat) (scrub : Bool) (code : List Byte) (s : State) : State :=
  let a := s.stored.revertCounter
  let t := { s with work := { s.work with revertCounter := a } }
  if s.attached id then
    if code = s.fuses.revertCode then t.beginRevert id scrub
    else State.reply id 0x19 .badSecret (le 2 (backoffFor a)) { t with revertBackoff := backoffFor a }
  else t

end Sys2Proof.Machine
end

