-- ==== Sys2Proof/Machine/Regions.lean ====
section
/-! DEFINITION. The region table's requests (chapter 2): LOCK, DEFINE-REGION with its three courses, and
RATCHET. -/

namespace Sys2Proof.Machine

/-- The rights of a kind that are OPEN, as a mask. -/
def State.openMask (s : State) (k : RightKind) : BitVec 16 :=
  maskOf fun r => s.regions[r].right k == .opened

/-- The rights of a kind named by a mask become LOCKED; bits of regions that are not enabled are ignored
(R30). -/
def State.lockMask (k : RightKind) (mask : BitVec 16) (s : State) : State :=
  allRegions.foldl
    (fun t r => if inMask mask r.val && t.work.regions[r].enabled then t.lockRight k r else t) s

/-- LOCK (R30). -/
def lockRequest (id : Nat) (readMask writeMask : BitVec 16) (forget : Byte) (s : State) : State :=
  let t := (s.lockMask .read readMask).lockMask .write writeMask
  let u := if yes forget then t.clearFlags else t
  u.reply id 0x03 .done (bytes16 (u.openMask .read) ++ bytes16 (u.openMask .write))

/-- A region record as a region summary (R182). -/
def State.regionSummary (s : State) (r : RegionIx) : List Byte :=
  let x := s.work.regions[r]
  let v := s.regions[r]
  [BitVec.ofNat 8 r.val,
    packByte x.enabled (v.read == .opened) (v.write == .opened) (x.powerOnRead == .opened)
      (x.powerOnWrite == .opened) x.conceal x.absorb v.eraseHold,
    conditionByte x.condition, regionSetByte x.ratchets, flagByte s.keys[r].loaded.isSome]
  ++ le 6 (match x.enabled, x.extent with | true, some e => e.start | _, _ => 0)
  ++ le 6 (if r = 0 then s.geometry.capacity else
      match x.enabled, x.extent with | true, some e => e.length | _, _ => 0)
  ++ le 4 s.work.keys[r].generation ++ le 1 x.faultCount

/-! ### DEFINE-REGION -/

/-- Whether two ranges share an LBA. -/
def overlaps (a b : Extent) : Bool := decide (a.start < b.start + b.length ∧ b.start < a.start + a.length)

/-- Whether a range meets another enabled region 1 to 15 (R37 check 6). -/
def State.meetsOther (s : State) (r : RegionIx) (e : Extent) : Bool :=
  allRegions.any fun q => q != 0 && q != r && s.work.regions[q].enabled &&
    match s.work.regions[q].extent with
    | some x => overlaps e x
    | none => false

/-- Check 7 of R37 on what a request would make of a region: `none` for a disabling. -/
def RegionRecord.ratchetForbids (x : RegionRecord) (f : Option RegionFields) : Bool :=
  (x.ratchets.fixedBounds && match f with
    | none => true
    | some f => f.extent != x.extent)
  || (x.ratchets.fixedFlags && match f with
    | none => false
    | some f => (x.conceal && !f.conceal) || (x.absorb && !f.absorb))

/-- A disabling: a crypto-erase of the region without scrub, begun in the taking event (R40). -/
def State.beginDisabling (id : Nat) (r : RegionIx) (s : State) : State :=
  State.settle (State.beginErase r .disabling false { s with define := some ⟨id, r, .disabling⟩ })

/-- An enabling: new material is drawn for the region (R38, R49). -/
def State.beginEnabling (id : Nat) (r : RegionIx) (f : RegionFields) (s : State) : State :=
  State.drawKey r .enabling { s with define := some ⟨id, r, .enabling f⟩ }

/-- A change submits its region-definition unit (R39). -/
def State.beginChange (id : Nat) (r : RegionIx) (f : RegionFields) (s : State) : State :=
  State.submitNow (.regionDefinition ⟨id, r, .change f⟩) { s with define := some ⟨id, r, .change f⟩ }

/-- DEFINE-REGION: the checks of R37 in order, that of a spent slot (R47), then the course. Check 7 looks at
the ratchets the record holds, so a RATCHET still unanswered after a link reset does not count (R42, R44).
DESIGN CHOICE (unsafe): notes/assumptions/47.md. -/
def defineRegionRequest (id : Nat) (region enable : Byte) (start length : BitVec 48)
    (powerOnRead powerOnWrite conceal absorb : Byte) (s : State) : State :=
  match regionIxOf region with
  | none => s.reply id 0x09 .badRequest []
  | some r =>
    let x := s.work.regions[r]
    let e : Extent := ⟨start.toNat, length.toNat⟩
    let f : RegionFields := ⟨if r = 0 then none else some e, rightOf powerOnRead, rightOf powerOnWrite,
      yes conceal, yes absorb⟩
    if r = 0 ∧ yes enable = false then s.reply id 0x09 .badRequest []
    else if s.define.isSome then s.reply id 0x09 .busy []
    else if s.response.running.isSome then s.reply id 0x09 .responseActive []
    else if s.work.scrubList ≠ [] then s.reply id 0x09 .scrubActive []
    else if yes enable = false ∧ x.enabled = false then s.reply id 0x09 .done []
    else if r ≠ 0 ∧ yes enable = true ∧ (e.length = 0 ∨ s.geometry.capacity ≤ e.start
        ∨ s.geometry.capacity < e.start + e.length) then s.reply id 0x09 .range []
    else if r ≠ 0 ∧ yes enable = true ∧ s.meetsOther r e = true then s.reply id 0x09 .overlap []
    else if yes enable = false then
      if x.ratchetForbids none then s.reply id 0x09 .ratcheted [] else s.beginDisabling id r
    else if x.ratchetForbids (some f) then s.reply id 0x09 .ratcheted []
    else if x.enabled = true then s.beginChange id r f
    else if s.spent r then s.reply id 0x09 .range []
    else s.beginEnabling id r f

/-- The erase hold of a disabling ends, and with it the DEFINE-REGION. -/
def State.endDisabling (r : RegionIx) (s : State) : State :=
  { (s.dropErase r .disabling).releaseHold r with define := none }

/-- What a crypto-erase of a response that waited for the disabling of region r does once it is answered
(R149): it begins if r stays enabled, and is passed over otherwise. -/
def State.afterDisabling (r : RegionIx) (s : State) : State :=
  match s.eraseOf r .response with
  | some e =>
    if e.stage = .waitDisabling then
      if s.work.regions[r].enabled then (s.dropErase r .response).beginErase r .response e.scrub
      else s.passOver r
    else s
  | none => s

/-- The region-definition unit is answered done (R38 to R40). A change of bounds that finds its region on the
scrub list moves the entry's cursor, and a head's issue position, to the new start, so that the walk it held back
stays within the region (R154, R155); R39 names neither.
DESIGN CHOICE (unsafe): notes/assumptions/56.md. -/
def State.defineDone (d : DefineRequest) (s : State) : State :=
  let t := s.setRegion d.region (match d.kind with
    | .change f => { s.work.regions[d.region] with
        extent := f.extent, powerOnRead := f.powerOnRead, powerOnWrite := f.powerOnWrite,
        conceal := f.conceal, absorb := f.absorb }
    | .enabling _ | .disabling => s.stored.regions[d.region])
  let u := t.rebuildBoundary
  match d.kind with
  | .enabling _ =>
    let v := { (u.setStatus d.region ⟨.locked, .locked, false, 0⟩).setSlotKey d.region
      { u.keys[d.region] with loaded := none } with define := none }
    v.reply d.id 0x09 .done (v.regionSummary d.region)
  | .change f =>
    let v := if f.extent = s.work.regions[d.region].extent then u else u.entryToStart d.region
    State.reply d.id 0x09 .done [] { v with define := none }
  | .disabling => ((u.endDisabling d.region).reply d.id 0x09 .done []).afterDisabling d.region

/-- The region-definition unit is answered unsafe (R38 to R40, R51). -/
def State.defineUnsafe (d : DefineRequest) (s : State) : State :=
  match d.kind with
  | .enabling _ =>
    State.reply d.id 0x09 .storeUnsafe []
      { s.setKey d.region s.stored.keys[d.region] with define := none }
  | .change _ => State.reply d.id 0x09 .storeUnsafe [] { s with define := none }
  | .disabling =>
    State.afterDisabling d.region
      (State.reply d.id 0x09 .storeUnsafe []
        ((s.setKey d.region s.stored.keys[d.region]).endDisabling d.region))

/-! ### RATCHET -/

/-- The resulting ratchet set of each region of a mask in index order, then the device set (R44, R182). -/
def State.ratchetBytes (s : State) (mask : BitVec 16) : List Byte :=
  ((allRegions.filter fun r => inMask mask r.val).map fun r => regionSetByte s.work.regions[r].ratchets)
    ++ [deviceSetByte s.work.deviceRatchets]

/-- Whether a RATCHET would add nothing new (R44). -/
def State.ratchetsNothing (s : State) (mask : BitVec 16) (rs : RegionRatchets) (ds : DeviceRatchets) :
    Bool :=
  (allRegions.all fun r => !inMask mask r.val
    || s.work.regions[r].ratchets.union rs == s.work.regions[r].ratchets)
  && s.work.deviceRatchets.union ds == s.work.deviceRatchets

/-- RATCHET (R44). One that adds nothing is answered DONE with the body of one that commits.
DESIGN CHOICE (unsafe): notes/assumptions/28.md. -/
def ratchetRequest (id : Nat) (mask : BitVec 16) (regionSet deviceSet : Byte) (s : State) : State :=
  match regionSetOf regionSet, deviceSetOf deviceSet with
  | some rs, some ds =>
    if (rs.fixedBounds = true ∧ inMask mask 0 = true) ∨ (rs ≠ noRegionRatchets ∧ mask = 0) then
      s.reply id 0x0A .badRequest []
    else if allRegions.any fun r => s.disabling r then s.reply id 0x0A .busy []
    else if allRegions.any fun r => inMask mask r.val && !s.work.regions[r].enabled then
      s.reply id 0x0A .notFound []
    else if s.ratchetsNothing mask rs ds then s.reply id 0x0A .done (s.ratchetBytes mask)
    else s.submitNow (.ratchet id mask rs ds)
  | _, _ => s.reply id 0x0A .badRequest []

/-- The ratchet unit is answered done (R44). -/
def State.ratchetDone (id : Nat) (mask : BitVec 16) (rs : RegionRatchets) (ds : DeviceRatchets)
    (s : State) : State :=
  let t := { s with work := { s.work with
    regions := addRatchets mask rs s.work.regions
    deviceRatchets := s.work.deviceRatchets.union ds } }
  t.reply id 0x0A .done (t.ratchetBytes mask)

end Sys2Proof.Machine
end

