-- ==== Sys2Proof/Machine/Tamper.lean ====
section
/-! DEFINITION. The tamper input block (sections 7.1 to 7.4): sampling, events and re-arm of the trigger
groups, lines found open at power-on, SET-TAMPER and CLEAR-TAMPER. -/

namespace Sys2Proof.Machine

/-- The lines of a group (R115). -/
def groupLines : Group → List LineIx
  | .a => [0]
  | .b => [1]
  | .enclosure => [2, 3]

def groupOf (n : LineIx) : Group := if n = 0 then .a else if n = 1 then .b else .enclosure

/-- The source of a group (R115). -/
def groupSource : Group → SourceIx
  | .a => srcTamperA
  | .b => srcTamperB
  | .enclosure => srcEnclosure

def TamperBlock.armed (t : TamperBlock) : Group → Bool
  | .a => t.armedA
  | .b => t.armedB
  | .enclosure => t.armedEnclosure

/-- A group becomes ARMED (`true`) or RESTING. -/
def State.setArmed (g : Group) (v : Bool) (s : State) : State :=
  match g with
  | .a => { s with tamper := { s.tamper with armedA := v } }
  | .b => { s with tamper := { s.tamper with armedB := v } }
  | .enclosure => { s with tamper := { s.tamper with armedEnclosure := v } }

def State.setLine (n : LineIx) (x : LineStatus) (s : State) : State :=
  { s with tamper := { s.tamper with lines := s.tamper.lines.set n x } }

/-- A set of lines as a mask (section 12.1). -/
def lineMask (lines : List LineIx) : Nat := (lines.map fun n => 2 ^ n.val).sum

/-- One line at a sample: the run rises at an unchanged level, saturating, and is 1 at a changed one
(R116). -/
def LineStatus.sample (level : Bool) (x : LineStatus) : LineStatus :=
  { x with level := level, run := if level = x.level then saturate 255 x.run else 1 }

/-- All four lines sampled (R116). -/
def State.sampleLines (levels : BitVec 4) (s : State) : State :=
  { s with tamper := { s.tamper with
      lines := tabMapIx (fun i (x : LineStatus) => x.sample (levels.getLsbD i)) s.tamper.lines } }

/-- The enabled lines of a group that stand away from idle with a run equal to their debounce (R117). -/
def State.eventLines (s : State) (g : Group) : List LineIx :=
  (groupLines g).filter fun n =>
    s.work.lines[n].enabled && s.tamper.lines[n].level != s.work.lines[n].idle
      && s.tamper.lines[n].run == s.work.lines[n].debounce

/-- Whether a group with an enabled line stands wholly at rest (R118).
DEDUCED (unsafe): notes/assumptions/30.md. -/
def State.atRest (s : State) (g : Group) : Bool :=
  ((groupLines g).any fun n => s.work.lines[n].enabled) && (groupLines g).all fun n =>
    !s.work.lines[n].enabled || (s.tamper.lines[n].level == s.work.lines[n].idle
      && decide (s.work.lines[n].debounce ≤ s.tamper.lines[n].run))

/-- The latched flag of a line set (R119 step 1). -/
def State.latch (s : State) (n : LineIx) : State := s.setLine n { s.tamper.lines[n] with latched := true }

/-- An event of a group naming lines (R119): flags latched, trigger handed, TAMPER alert queued, the
group RESTING. Bit 31 of the value marks an event found at power-on. -/
def State.groupEvent (g : Group) (lines : List LineIx) (foundOpen : Bool) (s : State) : State :=
  let t := (lines.foldl State.latch s).setArmed g false
  (t.trigger (groupSource g)).alert .tamper (s.severityFor (groupSource g)) (some (groupSource g)) none
    (some (lineMask lines + if foundOpen then 2 ^ 31 else 0)) 0

/-- An ARMED group gives its event at a sample (R117). -/
def State.eventIfDue (g : Group) (s : State) : State :=
  if s.tamper.armed g ∧ s.eventLines g ≠ [] then s.groupEvent g (s.eventLines g) false else s

/-- A RESTING group re-arms at a sample (R118). -/
def State.rearmIfDue (g : Group) (s : State) : State :=
  if s.tamper.armed g = false ∧ s.atRest g then s.setArmed g true else s

/-- A sample evaluates one group: as RESTING or as ARMED, whichever it was at the sample (R116). -/
def State.evaluate (s : State) (g : Group) : State :=
  if s.tamper.armed g then s.eventIfDue g else s.rearmIfDue g

/-- The groups in the order in which one sample evaluates them.
DESIGN CHOICE (unsafe): notes/assumptions/44.md. -/
def allGroups : List Group := [.a, .b, .enclosure]

/-- A sample in normal running (R116). Two groups that give events at it hand their triggers and queue
their alerts in the order A, B, enclosure.
DESIGN CHOICE (unsafe): notes/assumptions/44.md. -/
def State.sample (levels : BitVec 4) (s : State) : State :=
  allGroups.foldl State.evaluate (s.sampleLines levels)

/-- One group at the sample of step 5 (R120). -/
def State.findOpen (s : State) (g : Group) : State :=
  let enabled := (groupLines g).filter fun n => s.work.lines[n].enabled
  let away := enabled.filter fun n => s.tamper.lines[n].level != s.work.lines[n].idle
  if away ≠ [] then s.groupEvent g away true
  else if enabled ≠ [] then s.setArmed g true
  else s.setArmed g false

/-- The first sample of step 5: levels taken with runs of 1, and each group decided (R120). -/
def State.firstSample (levels : BitVec 4) (s : State) : State :=
  allGroups.foldl State.findOpen
    { s with tamper := { s.tamper with
        lines := tabMapIx (fun i (x : LineStatus) => { x with level := levels.getLsbD i, run := 1 }) s.tamper.lines } }

/-! ### SET-TAMPER and CLEAR-TAMPER -/

/-- The configuration a SET-TAMPER forms for a line (R121).
DEDUCED (unsafe): notes/assumptions/29.md. -/
def State.newLine (s : State) (n : LineIx) (enable : Bool) (p : Polarity) (debounce : Nat) : LineConfig :=
  ⟨enable, p,
    match p with
    | .rising => false
    | .falling => true
    | .both => s.tamper.lines[n].level,
    debounce⟩

/-- Check 3 of R121 under FIXED-TAMPER. -/
def LineConfig.fixedForbids (x : LineConfig) (enable : Bool) (p : Polarity) (debounce : Nat) : Bool :=
  x.enabled && (!enable || p != x.polarity || decide (x.debounce < debounce))

/-- SET-TAMPER (R121). -/
def setTamperRequest (id : Nat) (line enable polarity debounce : Byte) (s : State) : State :=
  match lineIxOf line, polarityOf polarity with
  | some n, some p =>
    let d := clamp 2 255 debounce.toNat
    if s.tamper.changePending then s.reply id 0x0D .busy []
    else if s.work.deviceRatchets.fixedTamper && s.work.lines[n].fixedForbids (yes enable) p d then
      s.reply id 0x0D .ratcheted []
    else
      State.submitNow (.setTamper id n (s.newLine n (yes enable) p d))
        { s with tamper := { s.tamper with changePending := true } }
  | _, _ => s.reply id 0x0D .badRequest []

/-- A line configuration as a reply carries it: enabled, polarity, idle level, debounce (R122, R182).
DESIGN CHOICE (unsafe): notes/assumptions/28.md. -/
def LineConfig.bytes (x : LineConfig) : List Byte :=
  [flagByte x.enabled, polarityByte x.polarity, flagByte x.idle] ++ le 1 x.debounce

/-- SET-TAMPER answered done (R122). -/
def State.tamperDone (id : Nat) (n : LineIx) (x : LineConfig) (s : State) : State :=
  let t := { s with
    work := { s.work with lines := s.work.lines.set n x }
    tamper := { s.tamper with changePending := false } }
  let u := (t.setLine n { t.tamper.lines[n] with latched := false, run := 0 }).setArmed (groupOf n) false
  u.reply id 0x0D .done x.bytes

/-- CLEAR-TAMPER (R123).
DESIGN CHOICE (unsafe): notes/assumptions/28.md. -/
def clearTamperRequest (id : Nat) (lines : Byte) (s : State) : State :=
  let t := { s with tamper := { s.tamper with
    lines := tabMapIx (fun i (x : LineStatus) => if lines.getLsbD i then { x with latched := false } else x)
      s.tamper.lines } }
  t.reply id 0x0E .done
    (t.tamper.lines.toList.map (fun x => flagByte x.latched)
      ++ t.tamper.lines.toList.map (fun x => flagByte x.level))

end Sys2Proof.Machine
end

