-- ==== Sys2Proof/Machine/Time.lean ====
section
/-! DEFINITION. The time base and the deadline counters (sections 7.5 to 7.8): second ticks, powered
minutes, Q marks and SET-DEADLINE. -/

namespace Sys2Proof.Machine

/-- The Q mark: the mark count returns to 0, P is charged when Dp is not 0, and a deadline charge is
asked for (R127, R128, R130). -/
def State.takeQMark (s : State) : State :=
  let t := { s with deadlines := { s.deadlines with marks := 0 } }
  if t.work.deadlines.dp ≠ 0 then t.chargeP.askCharge else t.askCharge

/-- A minute is counted: the second count returns to 0 and the mark count rises; at Q, or above a lowered
Q, the Q mark is taken (R127). -/
def State.countMinute (s : State) : State :=
  let t := { s with deadlines := { s.deadlines with seconds := 0, marks := s.deadlines.marks + 1 } }
  if t.work.deadlines.q ≤ t.deadlines.marks then t.takeQMark else t

/-- A second tick at the deadline counters (R127). -/
def State.countSecond (s : State) : State :=
  if 59 ≤ s.deadlines.seconds then s.countMinute
  else { s with deadlines := { s.deadlines with seconds := s.deadlines.seconds + 1 } }

/-- A second tick at the credential engine: each running back-off falls by one (R90, R162). -/
def State.tickBackoffs (s : State) : State :=
  { s with
    credentials := tabMap (fun x => { x with backoff := x.backoff - 1 }) s.credentials
    revertBackoff := s.revertBackoff - 1 }

/-- The BUSY slots whose seconds remaining reach 0 at this tick (R70). -/
def State.expiring (s : State) : List SlotIx :=
  allSlots.filter fun i => s.port.slots[i].any fun x => decide (x.seconds ≤ 1)

/-- The seconds remaining of each BUSY slot fall by one (R70). -/
def State.tickSlots (s : State) : State :=
  { s with port := { s.port with
      slots := tabMap (Option.map fun x => { x with seconds := x.seconds - 1 }) s.port.slots } }

/-- The slots that expire at this tick, in index order (R70). A walk that the end of the last stale chunk
releases starts (R157) before the freed slot is granted, and each slot is granted before the next expires. -/
def State.expireSlots (slots : List SlotIx) (s : State) : State :=
  slots.foldl (fun t i => (t.expire i).startWalkIfDue.serveMedia) s

/-- The time stamp rises by one, up to its last value (R125). -/
def State.tickStamp (s : State) : State :=
  { s with time := { s.time with stamp := saturate 4294967295 s.time.stamp } }

/-- A second tick at every block that counts seconds, in the order R125 lists them.
DEDUCED (unsafe): notes/assumptions/31.md. -/
def State.second (s : State) : State :=
  ((s.tickBackoffs.tickSlots.expireSlots s.expiring).tickStamp).countSecond

/-! ### SET-DEADLINE -/

/-- Check 3 of R132 on the clamped request. -/
def DeadlineRecord.fixedForbids (x : DeadlineRecord) (dp dn q : Nat) : Bool :=
  let loosens (old new : Nat) : Bool := old != 0 && (new == 0 || decide (old < new))
  loosens x.dp dp || loosens x.dn dn || decide (x.q < q)

/-- A non-zero Dp below 30 is raised to 30 (R132). -/
def clampDp (dp : Nat) : Nat := if dp = 0 then 0 else max 30 dp

/-- SET-DEADLINE (R132). -/
def setDeadlineRequest (id : Nat) (dp : BitVec 16) (dn q : Byte) (s : State) : State :=
  let dp' := clampDp dp.toNat
  let q' := clamp 5 60 q.toNat
  if 254 < dn.toNat then s.reply id 0x0F .range []
  else if s.deadlines.changePending then s.reply id 0x0F .busy []
  else if s.work.deviceRatchets.fixedDeadlines && s.work.deadlines.fixedForbids dp' dn.toNat q' then
    s.reply id 0x0F .ratcheted []
  else
    State.submitNow (.setDeadline id dp' dn.toNat q')
      { s with deadlines := { s.deadlines with changePending := true } }

def State.deadlineDone (id dp dn q : Nat) (s : State) : State :=
  State.reply id 0x0F .done (le 2 dp ++ le 1 dn ++ le 1 q)
    { s with
      work := { s.work with deadlines := { s.work.deadlines with dp := dp, dn := dn, q := q } }
      deadlines := { s.deadlines with changePending := false } }

end Sys2Proof.Machine
end

