-- ==== Sys2Proof/Machine/Settings.lean ====
section
/-! DEFINITION. The remaining owning blocks' requests: the boot window and label (section 6.4, 6.5), the
response table and erase orders (R134, R144), the hold-up settings (R171), the scrub share and media
timeout (R74, R75). -/

namespace Sys2Proof.Machine

def State.setWindowState (w : WindowState) (s : State) : State :=
  { s with window := { s.window with state := w } }

/-! ### Boot window -/

def State.windowPending (v : Bool) (s : State) : State :=
  { s with window := { s.window with changePending := v } }

/-- SET-WINDOW (R110). -/
def setWindowRequest (id : Nat) (enable : Byte) (w : BitVec 32) (s : State) : State :=
  if s.window.state = .loading ∨ s.window.changePending = true then s.reply id 0x13 .busy []
  else if yes enable = true ∧ (w.toNat = 0 ∨ min 65536 s.geometry.capacity < w.toNat) then
    s.reply id 0x13 .range []
  else (s.windowPending true).submitNow (.setWindow id (yes enable) w.toNat)

/-- The window state after SET-WINDOW's done answer (R110). -/
def windowAfter (enable wasEnabled : Bool) (w : WindowState) : WindowState :=
  if enable then (if wasEnabled then w else .retired) else .off

def State.setWindowDone (id : Nat) (enable : Bool) (w : Nat) (s : State) : State :=
  let t := { s with
    work := { s.work with window := s.work.window.apply enable w }
    window := ⟨windowAfter enable s.work.window.enabled s.window.state, false⟩ }
  t.reply id 0x13 .done (windowByte t.window.state :: le 4 t.work.window.w ++ le 4 t.work.window.l)

/-- BEGIN-LOAD (R111). -/
def beginLoadRequest (id : Nat) (s : State) : State :=
  if s.window.changePending then s.reply id 0x14 .busy []
  else if s.window.state = .off then s.reply id 0x14 .notFound []
  else (s.setWindowState .loading).reply id 0x14 .done []

/-- END-LOAD (R112). -/
def endLoadRequest (id : Nat) (imageLength : BitVec 32) (s : State) : State :=
  if s.window.changePending then s.reply id 0x15 .busy []
  else if s.window.state ≠ .loading then s.reply id 0x15 .badRequest []
  else (s.windowPending true).submitNow (.imageLength id (min imageLength.toNat s.work.window.w))

def State.imageLengthDone (id l : Nat) (s : State) : State :=
  let t := { s with
    work := { s.work with window := { s.work.window with l := l } }
    window := ⟨if s.window.state = WindowState.loading then .retired else s.window.state, false⟩ }
  t.reply id 0x15 .done (le 4 l ++ [windowByte t.window.state])

/-- SET-LABEL (R114): the text completed to 64 bytes with zero bytes. -/
def setLabelRequest (id : Nat) (text : List Byte) (s : State) : State :=
  if 64 < text.length then s.reply id 0x16 .badRequest []
  else if s.window.changePending then s.reply id 0x16 .busy []
  else (s.windowPending true).submitNow (.label id (text ++ List.replicate (64 - text.length) 0))

def State.labelDone (id : Nat) (text : List Byte) (s : State) : State :=
  State.reply id 0x16 .done [] (State.windowPending false { s with work := { s.work with label := text } })

/-- RETIRE-WINDOW (R109). Each reply carries the window state, that of a window left LOADING too.
DESIGN CHOICE (unsafe): notes/assumptions/28.md. -/
def retireWindowRequest (id : Nat) (s : State) : State :=
  if s.window.state = .loading then s.reply id 0x17 .busy [windowByte s.window.state]
  else
    let t := s.retire
    t.reply id 0x17 .done [windowByte t.window.state]

/-! ### Response table and erase orders -/

/-- Check 3 of R134 under FIXED-RESPONSES. -/
def ResponseEntry.fixedForbids (x : ResponseEntry) (level : Level) (severity : Severity) : Bool :=
  decide (level.rank < x.level.rank) || (x.severity == .high && severity == .low)

/-- SET-RESPONSE (R134). -/
def setResponseRequest (id : Nat) (source level severity : Byte) (s : State) : State :=
  match tableSourceOf source, levelOf level, severityOf severity with
  | some src, some l, some v =>
    if s.response.changePending then s.reply id 0x0B .busy []
    else if s.work.deviceRatchets.fixedResponses && (s.entryOf src).fixedForbids l v then
      s.reply id 0x0B .ratcheted []
    else
      State.submitNow (.setResponse id src ⟨l, v⟩)
        { s with response := { s.response with changePending := true } }
  | _, _, _ => s.reply id 0x0B .badRequest []

def State.setResponseDone (id : Nat) (src : SourceIx) (e : ResponseEntry) (s : State) : State :=
  State.reply id 0x0B .done [levelByte e.level, severityByte e.severity]
    { s with
      work := { s.work with responseTable := s.work.responseTable.set (src.val - 1) e (by omega) }
      response := { s.response with changePending := false } }

/-- The sources of the pending set as a mask (R182). -/
def State.pendingSources (s : State) : BitVec 16 :=
  s.response.triggers.foldl (fun m e => m ||| bit e.source.val) 0

/-- The running response's level, NONE when none runs (R182). -/
def State.runningLevel (s : State) : Level :=
  match s.response.running with
  | some r => r.level
  | none => .none

/-- ERASE-ORDER (R144): the order is entered as a trigger of source ORDER and answered with the pending
sources and running level as they stand after the entry.
DEDUCED (unsafe): notes/assumptions/37.md. -/
def eraseOrderRequest (id : Nat) (regions : BitVec 16) (level : Byte) (s : State) : State :=
  if regions = 0 ∨ ¬ (levelOf level = some .erase ∨ levelOf level = some .scrub) then
    s.reply id 0x0C .badRequest []
  else if allRegions.any fun r => inMask regions r.val && !s.work.regions[r].enabled then
    s.reply id 0x0C .notFound []
  else
    let t := s.triggerOrder (if levelOf level = some .scrub then .scrub else .erase) regions
    (t.reply id 0x0C .done (bytes16 t.pendingSources ++ [levelByte t.runningLevel])).settle

/-! ### Hold-up settings -/

/-- SET-HOLDUP (R171). -/
def setHoldupRequest (id : Nat) (gateMode threshold conversionTime : Byte) (s : State) : State :=
  match gateOf gateMode, conversionOf conversionTime with
  | some g, some c =>
    if s.holdup.changePending then s.reply id 0x10 .busy []
    else
      State.submitNow (.setHoldup id ⟨g, clamp 64 255 threshold.toNat, c⟩)
        { s with holdup := { s.holdup with changePending := true } }
  | _, _ => s.reply id 0x10 .badRequest []

/-- SET-HOLDUP answered done (R171): the settings apply, a conversion in flight is cancelled and the low
count is 0; in CONTINUOUS conversions run from this event. The head, if any, meets the gate afresh at the
end of the event. -/
def State.holdupDone (id : Nat) (x : HoldupSettings) (s : State) : State :=
  State.reply id 0x10 .done ([gateByte x.gate] ++ le 1 x.threshold ++ [conversionByte x.time])
    { s with
      work := { s.work with holdup := x }
      store := { s.store with headWaiting := false }
      holdup := { s.holdup with
        converting := x.gate == .continuous && s.isRunning && s.startUp.powerGood
        lowCount := 0
        changePending := false } }

/-! ### Media port settings -/

/-- SET-SCRUB-SHARE (R74). -/
def setScrubShareRequest (id : Nat) (share : Byte) (s : State) : State :=
  s.submitNow (.scrubShare id (clamp 0 15 share.toNat))

def State.scrubShareDone (id v : Nat) (s : State) : State :=
  State.reply id 0x11 .done (le 1 v)
    { s with
      work := { s.work with scrubShare := v }
      port := { s.port with acc := 0, credit := 0 } }

/-- SET-MEDIA-TIMEOUT (R75). -/
def setMediaTimeoutRequest (id : Nat) (seconds : Byte) (s : State) : State :=
  s.submitNow (.mediaTimeout id (clamp 1 255 seconds.toNat))

def State.mediaTimeoutDone (id v : Nat) (s : State) : State :=
  State.reply id 0x12 .done (le 1 v) { s with work := { s.work with mediaTimeout := v } }

end Sys2Proof.Machine
end

