-- ==== Sys2Proof/Machine/Answers.lean ====
section
/-! DEFINITION. The answers to commit units: done at the end of a write (R167), unsafe at the eighth low
code (R169), what each requester does with them, the units that wait inside a requester (R166), and the
gate decision at a conversion end (R168, R169). -/

namespace Sys2Proof.Machine

/-! ### Scrub units (R159, R160) -/

/-- A checkpoint answered done: the checkpoint position is the cursor written (R159). -/
def State.checkpointDone (s : State) : State :=
  let position := match s.stored.scrubList with
    | e :: _ => e.cursor
    | [] => s.scrub.checkpoint
  State.tryFinish { s with scrub := { s.scrub with commitHeld := .none, checkpoint := position } }

/-- A scrub finish answered done: the head is NORMAL and leaves the list, its key makes the unload test,
SCRUB-DONE is queued, and the next head takes its place (R160). -/
def State.finishDone (s : State) : State :=
  match s.scrubHead with
  | none => s
  | some h =>
    let t := s.setRegion h { s.work.regions[h] with condition := .normal }
    let u := { t with
      work := { t.work with scrubList := t.work.scrubList.drop 1 }
      scrub := { t.scrub with commitHeld := .none } }
    ((u.alert .scrubDone .low none (some (bit h.val)) (some s.work.regions[h].faultCount) 0).unloadTest
      h).settleHead

/-! ### Revert unit (R163, R164) -/

/-- The volatile state of the tamper lines after a revert: flags cleared and groups RESTING; last levels
and runs as they are (R163). -/
def TamperBlock.cleared (x : TamperBlock) : TamperBlock :=
  { lines := tabMap (fun l => { l with latched := false }) x.lines
    armedA := false, armedB := false, armedEnclosure := false, changePending := x.changePending }

/-- Every working copy takes the value written; rights are LOCKED and holds ended (R151, R163). -/
def State.takeReverted (s : State) : State :=
  let t := s.lockAll
  State.rebuildBoundary
    { t with
      work := t.stored
      regions := tabMap (fun x => { x with eraseHold := false }) t.regions
      erases := []
      reverting := false
      revertRequest := none }

/-- The other blocks at the done answer of the revert unit (R163). The response controller is free: a unit of
the response it drops leaves the commit queue unwritten and unanswered. The positions and the walk generation of the
scrub engine are absent, until a head gives them; its chunks at the media end as stale (R153).
DESIGN CHOICE (unsafe): notes/assumptions/34.md.
DESIGN CHOICE (unsafe): notes/assumptions/39.md. -/
def State.clearReverted (s : State) : State :=
  { s with
    window := ⟨.off, false⟩
    tamper := s.tamper.cleared
    credentials := tabMap (fun x => { x with backoff := 0 }) s.credentials
    revertBackoff := 0
    response := { s.response with
      triggers := [], running := none, answerDue := false, count := 0, countResetDue := false }
    store := { s.store with
      queue := s.store.queue.filter fun u => !u.ofResponse
      deferred := s.store.deferred.filter fun u => !u.ofResponse }
    port := { s.port with acc := 0, credit := 0 }
    scrub := { s.scrub.outdate (fun _ => true) with
      walkGeneration := 0, issue := none, checkpoint := 0
      formed := s.scrub.formed.filter fun f => f.place == .atMedia } }

/-- A region that was the head of the scrub list before the list was rebuilt makes its unload test
(R54). -/
def State.unloadOldHead (old : Option RegionIx) (s : State) : State :=
  match old with
  | some h => s.unloadTest h
  | none => s

/-- The revert unit answered done (R163). The walk of the new head starts before the REVERTED alert is
queued, so that an alert of its own stands before it (R158, R177). -/
def State.revertDone (id : Nat) (s : State) : State :=
  ((((s.takeReverted.clearReverted.settleHead).unloadOldHead s.scrubHead).startWalkIfDue).alert .reverted
    .high none none none 0).reply id 0x19 .done []

/-- The crypto-erase of region r of a revert that has been answered unsafe ends: the working key record is
the stored one again, and the erase hold no (R51, R164). A region that another crypto-erase holds keeps both.
DESIGN CHOICE (unsafe): notes/assumptions/34.md. -/
def State.endRevertErase (r : RegionIx) (s : State) : State :=
  if s.erasing r then s else (s.setKey r s.stored.keys[r]).setHold r false

/-- The revert unit answered unsafe (R164): the key records and erase holds of the revert are restored.
DESIGN CHOICE (unsafe): notes/assumptions/34.md. -/
def State.revertUnsafe (id : Nat) (s : State) : State :=
  let regions := (s.erases.filter fun e => e.party == .revert).map (·.region)
  let t : State := { s with
    erases := s.erases.filter fun e => e.party != .revert
    reverting := false
    revertRequest := none }
  (regions.foldl (fun u r => u.endRevertErase r) t).reply id 0x19 .storeUnsafe []

/-! ### What requesters do with an answer -/

/-- The requester's reaction to the done answer of a unit; the store already holds what was written. -/
def State.unitDone (u : CommitUnit) (s : State) : State :=
  match u with
  | .charge p secret => s.chargeDone p secret
  | .revertCharge id scrub code => s.revertChargeDone id scrub code
  | .refund p => s.refundDone p
  | .secret q _ => s.secretDone q
  | .regionDefinition d => s.defineDone d
  | .remove id c => s.removeDone id c
  | .grant id c _ _ => s.grantDone id c
  | .limit id c l => s.limitDone id c l
  | .resetAttempts id c => s.resetAttemptsDone id c
  | .ratchet id mask rs ds => s.ratchetDone id mask rs ds
  | .responseBegin => s.submitCountReset.responseBeginDone
  | .keyDestruction r => s.submitCountReset.keyDestructionDone r
  | .responseEnd => s.responseEndDone
  | .countReset => State.submitCountReset { s with work := { s.work with lastResponse := s.stored.lastResponse } }
  | .checkpoint => s.checkpointDone
  | .finish => s.finishDone
  | .deadlineCharge => { s with deadlines := { s.deadlines with chargeHeld := false } }
  | .setResponse id src e => s.setResponseDone id src e
  | .setTamper id n c => s.tamperDone id n c
  | .setDeadline id dp dn q => s.deadlineDone id dp dn q
  | .setHoldup id x => s.holdupDone id x
  | .setWindow id enable w => s.setWindowDone id enable w
  | .imageLength id l => s.imageLengthDone id l
  | .label id text => s.labelDone id text
  | .scrubShare id v => s.scrubShareDone id v
  | .mediaTimeout id v => s.mediaTimeoutDone id v
  | .revert id _ => s.revertDone id

/-- A unit of the running response is resubmitted at once, behind a count reset that is due (R139, R141,
R143, R147). -/
def State.resubmit (u : CommitUnit) (s : State) : State :=
  if s.response.running.isSome then s.submitCountReset.submit u else s.submitCountReset

/-- The requester's reaction to the unsafe answer of a unit (R169). -/
def State.unitUnsafe (u : CommitUnit) (s : State) : State :=
  match u with
  | .charge p _ => s.reply p.id 0x02 .storeUnsafe []
  | .revertCharge id _ _ => s.reply id 0x19 .storeUnsafe []
  | .refund p => s.reply p.id 0x02 .storeUnsafe []
  | .secret q _ => s.reply q.id 0x04 .storeUnsafe []
  | .regionDefinition d => s.defineUnsafe d
  | .remove id _ => s.reply id 0x05 .storeUnsafe []
  | .grant id _ _ _ => s.reply id 0x06 .storeUnsafe []
  | .limit id _ _ => s.reply id 0x07 .storeUnsafe []
  | .resetAttempts id _ => s.reply id 0x08 .storeUnsafe []
  | .ratchet id _ _ _ => s.reply id 0x0A .storeUnsafe []
  | .responseBegin => s.resubmit .responseBegin
  | .keyDestruction r => if (s.eraseOf r .response).isSome then s.resubmit (.keyDestruction r) else s
  | .responseEnd => s.resubmit .responseEnd
  | .countReset => s.submitCountReset
  | .checkpoint => State.tryFinish { s with scrub := { s.scrub with commitHeld := .none } }
  | .finish => s.submit .finish
  | .deadlineCharge => { s with deadlines := { s.deadlines with chargeHeld := false } }
  | .setResponse id _ _ =>
    State.reply id 0x0B .storeUnsafe [] { s with response := { s.response with changePending := false } }
  | .setTamper id _ _ =>
    State.reply id 0x0D .storeUnsafe [] { s with tamper := { s.tamper with changePending := false } }
  | .setDeadline id _ _ _ =>
    State.reply id 0x0F .storeUnsafe [] { s with deadlines := { s.deadlines with changePending := false } }
  | .setHoldup id _ =>
    State.reply id 0x10 .storeUnsafe [] { s with holdup := { s.holdup with changePending := false } }
  | .setWindow id _ _ => (s.windowPending false).reply id 0x13 .storeUnsafe []
  | .imageLength id _ => (s.windowPending false).reply id 0x15 .storeUnsafe []
  | .label id _ => (s.windowPending false).reply id 0x16 .storeUnsafe []
  | .scrubShare id _ => s.reply id 0x11 .storeUnsafe []
  | .mediaTimeout id _ => s.reply id 0x12 .storeUnsafe []
  | .revert id _ => s.revertUnsafe id

/-! ### Units that wait inside a requester (R166) -/

/-- The oldest unit that waits inside a requester, and the rest. -/
def State.firstDeferred (s : State) (q : Requester) : Option CommitUnit :=
  s.store.deferred.find? fun u => u.requester == q

def State.dropDeferred (u : CommitUnit) (s : State) : State :=
  { s with store := { s.store with deferred := s.store.deferred.erase u } }

/-- The checks that a charge of a PRESENT meets again when it would be submitted (R83). -/
def State.deferredBlocked (s : State) : CommitUnit → Option (Nat × ResultCode × List Byte)
  | .charge p _ => (s.presentBlocked p.credential).map fun x => (p.id, x)
  | _ => none

/-- A unit that waits inside a requester is submitted once the requester holds none (R166); a charge that
is now blocked is answered instead, and the next is looked at (R83). The charge of a PRESENT that a link
reset has detached while it waited here is still submitted, and counts as a failure once answered done
(chargeDone): R87 has no row for that stage.
DESIGN CHOICE (unsafe): notes/assumptions/42.md. -/
def State.submitDeferredUpTo (q : Requester) : Nat → State → State
  | 0, s => s
  | n + 1, s =>
    if s.holds q then s
    else
      match s.firstDeferred q with
      | none => s
      | some u =>
        let t := s.dropDeferred u
        match t.deferredBlocked u with
        | some (id, result, body) => (t.reply id 0x02 result body).submitDeferredUpTo q n
        | none => t.submit u

/-- DESIGN CHOICE (unsafe): notes/assumptions/21.md. -/
def State.submitDeferred (q : Requester) (s : State) : State :=
  s.submitDeferredUpTo q s.store.deferred.length

/-! ### The answers (R167, R169) -/

/-- The head unit leaves the commit queue. -/
def State.popHead (s : State) : State :=
  { s with store := { s.store with queue := s.store.queue.drop 1, writing := none, headWaiting := false } }

/-- The write of the head has ended: the store holds its records, the unit leaves the queue, its
requester is answered done, and a unit waiting inside that requester follows (R166, R167). -/
def State.answerDone (u : CommitUnit) (image : Records) (s : State) : State :=
  ((State.unitDone u { s.popHead with stored := image }).submitDeferred u.requester).settle

/-- The head is answered unsafe: the low count returns to 0, STORE-UNSAFE is queued with the unit's
number, and the requester is answered (R169). -/
def State.answerUnsafe (u : CommitUnit) (s : State) : State :=
  let t := { s.popHead with holdup := { s.holdup with lowCount := 0 } }
  ((State.unitUnsafe u (t.alert .storeUnsafe .high none none (some u.number) 0)).submitDeferred
    u.requester).settle

/-! ### Conversion ends (R168, R169) -/

/-- The conversion in flight ends with a code, which becomes the latest; in CONTINUOUS the next starts
(R168, R169). -/
def State.recordCode (code : Nat) (s : State) : State :=
  { s with holdup := { s.holdup with
      latestCode := code
      converting := decide (s.gateMode = .continuous ∧ s.startUp.powerGood = true) } }

/-- Whether the head waits for this conversion end; none is decided after the fall of power-good
(R167). -/
def State.decides (s : State) : Bool := s.store.headWaiting && s.startUp.powerGood

/-- A code at or above the threshold: the episode ends and a waiting head passes (R169). -/
def State.codePasses (s : State) : State :=
  let t := { s with holdup := { s.holdup with episodeLow := false } }
  match s.store.queue with
  | u :: _ =>
    if s.decides then State.startWrite u { t with holdup := { t.holdup with lowCount := 0 } } else t
  | [] => t

/-- HOLDUP-LOW is queued when an episode begins (R169). -/
def State.enterEpisode (code : Nat) (s : State) : State :=
  if s.holdup.episodeLow then s
  else State.alert .holdupLow .high none none (some code) 0
    { s with holdup := { s.holdup with episodeLow := true } }

/-- A code below the threshold: a waiting head's low count rises, and at 8 it is answered unsafe; else it
waits for the next end, which in ON-DEMAND starts now (R169). -/
def State.codeLow (code : Nat) (s : State) : State :=
  let t := s.enterEpisode code
  match s.store.queue with
  | u :: _ =>
    if s.decides then
      if 8 ≤ s.holdup.lowCount + 1 then t.answerUnsafe u
      else { t with holdup := { t.holdup with lowCount := t.holdup.lowCount + 1, converting := true } }
    else t
  | [] => t

/-- A conversion ends (R168, R169). -/
def State.conversionEnds (code : Nat) (s : State) : State :=
  if s.holdup.converting then
    let t := s.recordCode code
    if s.work.holdup.threshold ≤ code then t.codePasses else t.codeLow code
  else s

end Sys2Proof.Machine
end

