-- ==== Sys2Proof/Machine/Admission.lean ====
section
/-! DEFINITION. The transfer admission unit (chapter 1): the checks of R3 and R4, the segment-planning
walk (R6), dispositions (R9, R10), the verdict (R12, R13) and FLUSH (R19). -/

namespace Sys2Proof.Machine

/-! ### Checks -/

/-- The status of the tag check of R3 on a request of one of the six kinds, if it fails. -/
def State.tagCheck (s : State) (tag : BitVec 8) : Option Status :=
  if 63 < tag.toNat then some .badRequest
  else if (s.transfer tag.toNat).isSome then some .tagInUse
  else none

/-- The status of the range check of R4, if it fails. -/
def State.rangeCheck (s : State) (start count : Nat) : Option Status :=
  if count = 0 ∨ 65536 < count then some .badRequest
  else if s.geometry.capacity ≤ start then some .outOfRange
  else if s.geometry.capacity < start + count then some .outOfRange
  else none

/-! ### Owners and the walk (R6) -/

/-- Whether the boot window owns an LBA (R6 case 1). -/
def State.windowOwns (s : State) (p : Nat) : Bool :=
  (s.window.state == .shown || s.window.state == .loading) && decide (p < s.work.window.w)

/-- The end of region r's range; C for a region without one. -/
def State.regionEnd (s : State) (r : RegionIx) : Nat :=
  match s.work.regions[r].extent with
  | some e => e.start + e.length
  | none => s.geometry.capacity

/-- The owner of the segment opened at p, and its end in a transfer that ends at `stop` (R6). -/
def State.ownerAt (s : State) (stop p : Nat) : Owner × Nat :=
  if s.windowOwns p then (.window, min s.work.window.w stop)
  else
    match s.regionAt p with
    | some r => (.region r, min (s.regionEnd r) stop)
    | none => (.region 0, min ((s.nextStart p).getD stop) stop)

/-! ### Dispositions (R9, R10) -/

/-- The disposition of a WINDOW segment; only a SHOWN or LOADING window owns one (R9). -/
def windowDisposition (w : WindowState) : TransferKind → Disposition
  | .read => .image
  | .write | .discard | .flush => if w = .loading then .imageWrite else .refuse .windowReadOnly

/-- The disposition of a segment of a region from its condition, right and flags (R10). -/
def regionDisposition (x : RegionRecord) (v : RegionStatus) (kind : TransferKind) : Disposition :=
  if x.condition = .scrubQueued ∨ x.condition = .scrubbing then
    match kind with
    | .read => .zero
    | .write | .discard | .flush => .refuse .scrubbing
  else
    match kind with
    | .read => if v.read = .opened then .cipher else if x.conceal then .zero else .refuse .locked
    | .write | .discard | .flush =>
      if v.write = .opened then .cipher else if x.absorb then .absorb else .refuse .locked

def State.dispositionOf (s : State) (kind : TransferKind) : Owner → Disposition
  | .window => windowDisposition s.window.state kind
  | .region r => regionDisposition s.work.regions[r] s.regions[r] kind

/-- The image block count of an IMAGE segment (R9). -/
def State.imageCount (s : State) (first last : Nat) : Nat :=
  if s.window.state = .loading then last - first else min last s.work.window.l - first

/-- The generation recorded in a CIPHER segment (R11). -/
def State.recordedGeneration (s : State) : Owner → Disposition → Nat
  | .region r, .cipher => s.work.keys[r].generation
  | _, _ => 0

/-- Whether a segment needs an operation on the downstream port (R5). -/
def Segment.mediaBound (x : Segment) : Bool :=
  match x.disposition with
  | .cipher | .imageWrite | .plain => true
  | .image => decide (0 < x.imageBlocks)
  | .zero | .absorb | .refuse _ => false

/-- A segment's state once its transfer is admitted (R13). -/
def Segment.onceAdmitted (x : Segment) : Segment := { x with state := if x.mediaBound then .waiting else .done }

/-- The segment opened at p (R6, R9 to R11). -/
def State.segmentAt (s : State) (kind : TransferKind) (stop p : Nat) : Segment :=
  let o := s.ownerAt stop p
  let d := s.dispositionOf kind o.1
  { first := p, count := o.2 - p, owner := some o.1, disposition := d
    generation := s.recordedGeneration o.1 d
    imageBlocks := if d = .image then s.imageCount p o.2 else 0
    state := .waiting, status := .good }

/-- The segments of [p, stop): every segment holds at least one block, so as many steps as blocks
suffice (R6). -/
def State.plan (s : State) (kind : TransferKind) (stop : Nat) : Nat → Nat → List Segment
  | 0, _ => []
  | n + 1, p =>
    if stop ≤ p then []
    else
      let x := s.segmentAt kind stop p
      x :: s.plan kind stop n (p + x.count)

/-! ### Verdict (R12, R13) -/

/-- The refusal of a segment, if it has one. -/
def Segment.refusal (x : Segment) : Option Status :=
  match x.disposition with
  | .refuse status => some status
  | .cipher | .zero | .absorb | .image | .imageWrite | .plain => none

/-- The status of the refused segment with the lowest first LBA; segments are in LBA order (R12). -/
def refusalOf (segments : List Segment) : Option Status := segments.findSome? Segment.refusal

/-- The places of the media-bound segments, counted from i. -/
def queuePlaces (tag : Nat) : Nat → List Segment → List (Nat × Nat)
  | _, [] => []
  | i, x :: xs => if x.mediaBound then (tag, i) :: queuePlaces tag (i + 1) xs else queuePlaces tag (i + 1) xs

/-- The admitted count of a CIPHER segment's region rises by one (R13, R35). -/
def State.raiseAdmitted (s : State) (x : Segment) : State :=
  match x.disposition, x.owner with
  | .cipher, some (.region r) => s.setStatus r { s.regions[r] with admitted := s.regions[r].admitted + 1 }
  | _, _ => s

/-- What a segment that is not media-bound moves on the upstream port at admission: the zero fill of a
READ (R17), the discarded data of an absorbed WRITE (R15). -/
def State.serveAtAdmission (tag start : Nat) (kind : TransferKind) (s : State) (x : Segment) : State :=
  if x.mediaBound then s
  else
    match kind with
    | .read => s.send (.readData tag (x.first - start) [.zeros x.count])
    | .write => s.send (.dataTaken tag (x.first - start) x.count)
    | .discard | .flush => s

/-- The transfer entry of an admitted request (R13). -/
def admittedEntry (tag : Nat) (kind : TransferKind) (start count : Nat) (data : List Block)
    (segments : List Segment) : Transfer where
  tag := tag
  kind := kind
  start := start
  count := count
  segments := segments.map Segment.onceAdmitted
  outstanding := (segments.filter Segment.mediaBound).length
  merged := .good
  mergedFrom := 0
  data := data

/-- An entry is made in the transfer table and its media-bound segments enter the segment queue; one with
nothing outstanding completes at once (R2, R13, R18). -/
def State.enterTransfer (t : Transfer) (s : State) : State :=
  if t.outstanding = 0 then s.send (.completion t.tag t.merged)
  else { s with
    transfers := s.transfers ++ [t]
    port := { s.port with queue := s.port.queue ++ queuePlaces t.tag 0 t.segments } }

/-- An admitted transfer in its taking event (R13), up to the grants the port makes in it (R64). -/
def State.admitTransfer (t : Transfer) (s : State) : State :=
  State.enterTransfer t
    (t.segments.foldl (State.serveAtAdmission t.tag t.start t.kind) (t.segments.foldl State.raiseAdmitted s))

/-- A READ, WRITE or DISCARD taken by the admission unit (R3, R4, R12, R13). -/
def State.takeBlocks (kind : TransferKind) (tag : BitVec 8) (start : BitVec 48) (count : BitVec 17)
    (data : List Block) (s : State) : State :=
  match s.tagCheck tag with
  | some status => s.send (.completion tag.toNat status)
  | none =>
    match s.rangeCheck start.toNat count.toNat with
    | some status => s.send (.completion tag.toNat status)
    | none =>
      let segments := s.plan kind (start.toNat + count.toNat) count.toNat start.toNat
      match refusalOf segments with
      | some status => s.send (.completion tag.toNat status)
      | none =>
        (s.admitTransfer (admittedEntry tag.toNat kind start.toNat count.toNat data segments)).serveMedia

/-- The one segment of a FLUSH (R8). -/
def flushSegment : Segment := ⟨0, 0, none, .plain, 0, 0, .waiting, .good⟩

/-- A FLUSH taken by the admission unit (R8, R19). -/
def State.takeFlush (tag : BitVec 8) (s : State) : State :=
  match s.tagCheck tag with
  | some status => s.send (.completion tag.toNat status)
  | none => (s.admitTransfer (admittedEntry tag.toNat .flush 0 0 [] [flushSegment])).serveMedia

end Sys2Proof.Machine
end

