-- ==== Sys2Proof/Machine/Management.lean ====
section
/-! DEFINITION. The management channel (chapter 11): authority (R80), the taking of a request message
(R173, R174), STATUS-QUERY (R176), FETCH-ALERTS (R178), and the carriage of MANAGE-SEND and MANAGE-FETCH
(R21, R22). -/

namespace Sys2Proof.Machine

/-! ### STATUS-QUERY (R176, R182) -/

/-- What the reduced view tells of a credential: present, attempts left, back-off. -/
def State.credentialBrief (s : State) (c : CredIx) : List Byte :=
  [flagByte s.work.credentials[c].secret.isSome] ++ le 1 s.work.credentials[c].left
    ++ le 2 s.credentials[c].backoff

/-- The reduced view after its view byte. -/
def State.reducedView (s : State) : List Byte :=
  [modeByte s.work.mode, windowByte s.window.state] ++ s.work.label
    ++ allCredentials.flatMap s.credentialBrief ++ le 1 s.alerts.count

/-- What the full view adds of a credential: counter, limit, cost (R176). The cost of a credential that is not
present is absent (R77) and R182 gives no byte for it: it is reported as 0.
DESIGN CHOICE (unsafe): notes/assumptions/54.md. -/
def State.credentialMore (s : State) (c : CredIx) : List Byte :=
  le 1 s.work.credentials[c].counter ++ le 1 s.work.credentials[c].limit
    ++ le 1 (match s.work.credentials[c].secret with
      | some v => v.cost
      | none => 0)

def ResponseEntry.bytes (x : ResponseEntry) : List Byte := [levelByte x.level, severityByte x.severity]

def LastResponse.bytes (x : LastResponse) : List Byte :=
  bytes16 x.sources ++ [levelByte x.level] ++ bytes16 x.mask ++ le 4 x.stamp ++ le 1 x.count

/-- The last-response record as it is reported: with the controller's working count (R147, R176).
DEDUCED (unsafe): notes/assumptions/45.md. -/
def State.reportedResponse (s : State) : LastResponse :=
  { s.work.lastResponse with count := s.response.count }

/-- The response items of the full view. -/
def State.responseView (s : State) : List Byte :=
  s.work.responseTable.toList.flatMap ResponseEntry.bytes ++ s.reportedResponse.bytes
    ++ bytes16 s.pendingSources
    ++ bytes16 (match s.response.running with
      | some r => r.sources
      | none => 0)
    ++ [levelByte s.runningLevel]

/-- The scrub list and the cursor. -/
def State.scrubView (s : State) : List Byte :=
  le 1 s.work.scrubList.length ++ s.work.scrubList.map (fun e => BitVec.ofNat 8 e.region.val)
    ++ le 6 s.cursor

/-- A tamper line: enabled, polarity, idle level, debounce, latched flag, last level. -/
def State.lineView (s : State) (n : LineIx) : List Byte :=
  s.work.lines[n].bytes ++ [flagByte s.tamper.lines[n].latched, flagByte s.tamper.lines[n].level]

/-- The time source, stamp and deadline items. -/
def State.timeView (s : State) : List Byte :=
  timeSourceByte s.time.source :: le 4 s.time.stamp ++ le 2 s.work.deadlines.p ++ le 1 s.work.deadlines.np
    ++ le 1 s.work.deadlines.q ++ le 2 s.work.deadlines.dp ++ le 1 s.work.deadlines.dn

/-- The hold-up items. -/
def State.holdupView (s : State) : List Byte :=
  [gateByte s.work.holdup.gate] ++ le 1 s.work.holdup.threshold ++ [conversionByte s.work.holdup.time]
    ++ le 1 s.holdup.latestCode

/-- What the full view adds to the reduced one, in the order R176 lists it. -/
def State.fullAdds (s : State) : List Byte :=
  le 4 s.work.window.w ++ le 4 s.work.window.l ++ allRegions.flatMap s.regionSummary
    ++ allCredentials.flatMap s.credentialMore
    ++ le 1 s.work.revertCounter ++ le 2 s.revertBackoff ++ [deviceSetByte s.work.deviceRatchets]
    ++ s.responseView ++ s.scrubView ++ allLines.flatMap s.lineView ++ s.timeView ++ s.holdupView
    ++ le 1 s.alerts.triggerLevel ++ [flagByte s.alerts.overrun]

/-- The body of a STATUS-QUERY reply: the full view when any presented flag is set (R176). -/
def State.statusBody (s : State) : List Byte :=
  if s.anyPresented then 1 :: s.reducedView ++ s.fullAdds else 0 :: s.reducedView

def statusQueryRequest (id : Nat) (s : State) : State := s.reply id 0x01 .done s.statusBody

/-! ### FETCH-ALERTS (R178) -/

/-- The body of a FETCH-ALERTS reply: overrun as it stood, the count after, the records removed. -/
def AlertQueue.fetchBody (level : Option (BitVec 8)) (q : AlertQueue) : List Byte :=
  [flagByte q.overrun] ++ le 1 (q.fetch level).count ++ le 1 q.fetched.length
    ++ q.fetched.flatMap alertBytes

def fetchAlertsRequest (id : Nat) (level : Option (BitVec 8)) (s : State) : State :=
  State.reply id 0x18 .done (s.alerts.fetchBody level) { s with alerts := s.alerts.fetch level }

/-! ### Authority (R80) -/

/-- Whether the target credential of a SET-SECRET is presented. -/
def State.targetPresented (s : State) (credential : Byte) : Bool :=
  match credIxOf credential with
  | some c => s.credentials[c].presented
  | none => false

/-- Whether the authority a request needs is held (R80). -/
def State.authority (s : State) : Instr → Bool
  | .statusQuery | .present .. | .lock .. | .fetchAlerts .. | .revert .. => true
  | .setSecret c _ _ => s.targetPresented c || s.administrator
  | .retireWindow => s.anyPresented
  | .removeCredential .. | .grant .. | .setLimit .. | .resetAttempts .. | .defineRegion .. | .ratchet ..
  | .setResponse .. | .eraseOrder .. | .setTamper .. | .clearTamper .. | .setDeadline .. | .setHoldup ..
  | .setScrubShare .. | .setMediaTimeout .. | .setWindow .. | .beginLoad | .endLoad .. | .setLabel .. =>
    s.administrator
  | .powerGoodRise | .powerGoodFall | .storeReadEnd | .read .. | .write .. | .discard .. | .flush ..
  | .manageSend .. | .manageFetch .. | .linkReset | .mediaData .. | .mediaCompletion ..
  | .mediaTimeout .. | .segmentIssue | .chunkIssue | .secondTick | .minuteCounted | .qMark
  | .backoffEnd .. | .revertBackoffEnd | .sampleTick .. | .tamperEvent .. | .groupRearm ..
  | .slowSourceRunning | .timeFaultNeverStarted | .timeFaultStopped | .randomSourceReady
  | .randomDrawEnd .. | .derivationEnd | .conversionEnd .. | .commitWriteStart | .commitWriteEnd
  | .deferredUnitSubmit .. | .keyDestruction .. | .responseTake | .scrubWalkStart
  | .requestOfUnknownKind .. => false

/-- The kinds a revert operation leaves open (R163). -/
def openDuringRevert : Instr → Bool
  | .statusQuery | .fetchAlerts .. => true
  | _ => false

/-! ### Taking a request (R173, R174) -/

/-- A request that passed R174 is handed to its owning block, by the request kind. -/
def handRequest (id : Nat) (i : Instr) (s : State) : State :=
  match i with
  | .statusQuery => statusQueryRequest id s
  | .present c r w o secret => presentRequest id c r w o secret s
  | .lock r w f => lockRequest id r w f s
  | .setSecret c cost secret => setSecretRequest id c cost secret s
  | .removeCredential c => removeCredentialRequest id c s
  | .grant c r g => grantRequest id c r g s
  | .setLimit c l => setLimitRequest id c l s
  | .resetAttempts c => resetAttemptsRequest id c s
  | .defineRegion r e st n pr pw cl ab => defineRegionRequest id r e st n pr pw cl ab s
  | .ratchet m rs ds => ratchetRequest id m rs ds s
  | .setResponse src l v => setResponseRequest id src l v s
  | .eraseOrder m l => eraseOrderRequest id m l s
  | .setTamper n e p d => setTamperRequest id n e p d s
  | .clearTamper m => clearTamperRequest id m s
  | .setDeadline dp dn q => setDeadlineRequest id dp dn q s
  | .setHoldup g t c => setHoldupRequest id g t c s
  | .setScrubShare v => setScrubShareRequest id v s
  | .setMediaTimeout v => setMediaTimeoutRequest id v s
  | .setWindow e w => setWindowRequest id e w s
  | .beginLoad => beginLoadRequest id s
  | .endLoad l => endLoadRequest id l s
  | .setLabel text => setLabelRequest id text s
  | .retireWindow => retireWindowRequest id s
  | .fetchAlerts t => fetchAlertsRequest id t s
  | .revert scrub code => revertRequest id scrub code s
  | .powerGoodRise | .powerGoodFall | .storeReadEnd | .read .. | .write .. | .discard .. | .flush ..
  | .manageSend .. | .manageFetch .. | .linkReset | .mediaData .. | .mediaCompletion ..
  | .mediaTimeout .. | .segmentIssue | .chunkIssue | .secondTick | .minuteCounted | .qMark
  | .backoffEnd .. | .revertBackoffEnd | .sampleTick .. | .tamperEvent .. | .groupRearm ..
  | .slowSourceRunning | .timeFaultNeverStarted | .timeFaultStopped | .randomSourceReady
  | .randomDrawEnd .. | .derivationEnd | .conversionEnd .. | .commitWriteStart | .commitWriteEnd
  | .deferredUnitSubmit .. | .keyDestruction .. | .responseTake | .scrubWalkStart
  | .requestOfUnknownKind .. => s

/-- The slot becomes WORKING on a new current request; an unfetched reply is discarded (R173).
DESIGN CHOICE (safe): notes/assumptions/20.md. -/
def State.beginRequest (s : State) : State :=
  { s with management :=
      ⟨.working, none, some s.management.nextId, s.management.nextId + 1⟩ }

/-- Checks 2 and 3 of R174: the result of the first that fails. -/
def State.requestRefusal (s : State) (i : Instr) : Option ResultCode :=
  if s.reverting = true ∧ openDuringRevert i = false then some .busy
  else if s.authority i then none else some .notPresented

/-- A message is taken into the slot, checked and handed to its owning block (R174). `read` is what the
message spells; `none` fails check 1. -/
def State.takeMessage (kind : Byte) (read : Option Instr) (s : State) : State :=
  let id := s.management.nextId
  match read with
  | none => s.beginRequest.reply id kind .badRequest []
  | some i =>
    match s.requestRefusal i with
    | some result => s.beginRequest.reply id kind result []
    | none => handRequest id i s.beginRequest

/-- A request message whose kind and fields are given is offered to the channel: taken unless the slot is
WORKING, when it is discarded (R173). Field values that no message of the kind can carry fail check 1 of
R174.
DESIGN CHOICE (safe): notes/assumptions/18.md. DESIGN CHOICE (safe): notes/assumptions/19.md. -/
def State.offerRequest (i : Instr) (s : State) : State :=
  if s.management.slot = .working then s
  else s.takeMessage ((kindCode i).getD 0) (if messageFits i then some i else none)

/-! ### Carriage (R21, R22) -/

/-- MANAGE-SEND (R21). -/
def State.takeManageSend (tag : BitVec 8) (message : List Byte) (s : State) : State :=
  match s.tagCheck tag with
  | some status => s.send (.completion tag.toNat status)
  | none =>
    if message.length < 4 ∨ 1028 < message.length then s.send (.completion tag.toNat .badRequest)
    else if s.management.slot = .working then s.send (.completion tag.toNat .mgmtBusy)
    else (s.send (.completion tag.toNat .good)).takeMessage (messageKind message) (readMessage message)

/-- The reply message a fetch delivers (R173). -/
def ManagementChannel.fetched (m : ManagementChannel) : Reply :=
  match m.slot, m.buffer with
  | .working, _ => ⟨pendingKind, .done, []⟩
  | .replyReady, some r => r
  | .replyReady, none | .idle, _ => ⟨emptyKind, .done, []⟩

/-- The slot after a fetch: a delivered reply leaves it IDLE and the buffer empty (R173). -/
def ManagementChannel.afterFetch (m : ManagementChannel) : ManagementChannel :=
  if m.slot = .replyReady then { m with slot := .idle, buffer := none } else m

/-- MANAGE-FETCH (R22). -/
def State.takeManageFetch (tag : BitVec 8) (s : State) : State :=
  match s.tagCheck tag with
  | some status => s.send (.completion tag.toNat status)
  | none =>
    { (s.send (.reply tag.toNat s.management.fetched.message)).send (.completion tag.toNat .good) with
      management := s.management.afterFetch }

/-- A link reset at the channel: the slot is IDLE, the buffer empty, and a current request detached
(R175). -/
def State.resetChannel (s : State) : State :=
  { s with management := { s.management with slot := .idle, buffer := none, current := none } }

end Sys2Proof.Machine
end

