-- ==== Sys2Proof/Machine/Events.lean ====
section
/-! DEFINITION. Operations that several commands share at the upstream port and the internal sources of
events: the taking of requests and of those that waited for port ready (R1), the link reset across the
blocks (section 1.4), the end of a random draw (R48) and the events of the time sources (R124, R126). -/

namespace Sys2Proof.Machine

/-! ### Requests at the upstream port -/

/-- A request is taken from the upstream port (R1). -/
def State.takeRequest (i : Instr) (s : State) : State :=
  match i with
  | .read tag start count => s.takeBlocks .read tag start count []
  | .write tag start count data => s.takeBlocks .write tag start count data
  | .discard tag start count => s.takeBlocks .discard tag start count []
  | .flush tag => s.takeFlush tag
  | .manageSend tag message => s.takeManageSend tag message
  | .manageFetch tag => s.takeManageFetch tag
  | .requestOfUnknownKind tag => s.send (.completion tag.toNat .badRequest)
  | .statusQuery | .present .. | .lock .. | .setSecret .. | .removeCredential .. | .grant ..
  | .setLimit .. | .resetAttempts .. | .defineRegion .. | .ratchet .. | .setResponse ..
  | .eraseOrder .. | .setTamper .. | .clearTamper .. | .setDeadline .. | .setHoldup ..
  | .setScrubShare .. | .setMediaTimeout .. | .setWindow .. | .beginLoad | .endLoad .. | .setLabel ..
  | .retireWindow | .fetchAlerts .. | .revert .. => s.offerRequest i
  | .powerGoodRise | .powerGoodFall | .storeReadEnd | .linkReset | .mediaData .. | .mediaCompletion ..
  | .mediaTimeout .. | .segmentIssue | .chunkIssue | .secondTick | .minuteCounted | .qMark
  | .backoffEnd .. | .revertBackoffEnd | .sampleTick .. | .tamperEvent .. | .groupRearm ..
  | .slowSourceRunning | .timeFaultNeverStarted | .timeFaultStopped | .randomSourceReady
  | .randomDrawEnd .. | .derivationEnd | .conversionEnd .. | .commitWriteStart | .commitWriteEnd
  | .deferredUnitSubmit .. | .keyDestruction .. | .responseTake | .scrubWalkStart => s

/-- A request is offered: taken while port ready is asserted, else it remains with the front-end (R1).
DEDUCED (unsafe): notes/assumptions/17.md. -/
def State.request (i : Instr) (s : State) : State :=
  if s.startUp.portReady then s.takeRequest i else { s with offered := s.offered ++ [i] }

/-- Requests that remained with the front-end are taken, oldest first, once port ready is asserted (R1).
-/
def State.takeOffered (s : State) : State :=
  if s.startUp.portReady then
    s.offered.foldl (fun t i => t.takeRequest i) { s with offered := [] }
  else s

/-! ### Link reset (section 1.4) -/

/-- The zero fill of one slot that a link reset abandons, in place of the plaintext held for it: of every block
of a CIPHER segment of a READ (R56). -/
def State.slotFill (s : State) (i : SlotIx) : Option PortEvent :=
  match s.port.slots[i].map SlotRecord.occupant with
  | some (.segment tag index) =>
    match s.transfer tag with
    | none => none
    | some t =>
      match t.segments[index]? with
      | none => none
      | some seg =>
        if t.kind = .read ∧ seg.disposition = .cipher then
          some (.readData tag (seg.first - t.start) [.zeros seg.count])
        else none
  | _ => none

/-- What a link reset delivers for the segments it abandons: the zero fill that R56 states, or nothing, as R17,
R23 and R59 have it. The rules do not agree, so which of the two is left free.
DESIGN CHOICE (safe): notes/assumptions/48.md. -/
def State.abandonedFills (s : State) : List PortEvent :=
  (allSlots.filterMap s.slotFill).filter fun _ => Config.fillsAbandoned

/-- The admission unit and the media port (R23, R72): entries, queue and slots are emptied, the
accumulator and credit are 0, and the media abort is sent. The plaintext held for abandoned segments is discarded
(R17, R56). -/
def State.emptyPort (s : State) : State :=
  { s with
    transfers := []
    port := { s.port with queue := [], slots := tabMap (fun _ => none) s.port.slots, acc := 0, credit := 0 }
    sent := s.sent ++ .mediaAbort :: s.abandonedFills }

/-- A region's admitted count becomes 0; one that was above 0 is drained (R35, R36). -/
def State.zeroAdmitted (s : State) (r : RegionIx) : State :=
  if s.regions[r].admitted = 0 then s
  else (s.setStatus r { s.regions[r] with admitted := 0 }).unloadTest r

/-- The derivation is stopped: its PRESENT is counted as failed (R87), its SET-SECRET dropped (R94). -/
def State.stopDerivation (s : State) : State :=
  match s.derivation with
  | none => s
  | some d =>
    let t := { s with derivation := none }
    match d.use with
    | .present p a => t.presentFails p a
    | .secret _ => t

/-- A salt draw that waits inside an abandoned SET-SECRET is not made (R48, R94).
DEDUCED (unsafe): notes/assumptions/33.md. -/
def State.dropWaitingSalts (s : State) : State :=
  { s with random := { s.random with waiting := s.random.waiting.filter Draw.isKey } }

/-- A link reset, taken by every block it reaches (R23, R35, R72, R87, R94, R175). Where it removes the last
stale chunk that held the head, the walk starts in its event and the head's condition becomes SCRUBBING (R157),
although R34 says that a link reset changes no condition.
DESIGN CHOICE (unsafe): notes/assumptions/51.md.
DEDUCED (unsafe): notes/assumptions/33.md. -/
def State.linkReset (s : State) : State :=
  State.settle
    ((allRegions.foldl State.zeroAdmitted s.emptyPort.abandonChunks).resetChannel.stopDerivation.dropWaitingSalts)

/-! ### Random draws (R48) -/

/-- A requester's second draw is requested in the event in which its first ends (R48). -/
def State.requestWaiting (key : Bool) (s : State) : State :=
  match s.random.waiting.find? fun d => d.isKey == key with
  | some d =>
    { s with random := { s.random with
        queue := s.random.queue ++ [d], waiting := s.random.waiting.erase d } }
  | none => s

/-- The draw in service ends and hands its bits to its requester (R48, R49, R93). -/
def State.endDraw (bits : BitVec 512) (s : State) : State :=
  match s.random.queue with
  | [] => s
  | d :: rest =>
    let t := State.requestWaiting d.isKey { s with random := { s.random with queue := rest } }
    match d with
    | .key r generation use => t.takeMaterial r generation use bits
    | .salt q => t.saltArrives q (bits.extractLsb' 0 128)

/-! ### Start-up and time sources -/

/-- The sample of step 5, and steps 6 to 12 as far as they do not wait (R100 to R102, R120). -/
def State.stepFive (levels : BitVec 4) (s : State) : State :=
  let t := s.firstSample levels
  State.releaseController { t with startUp := { t.startUp with phase := .resuming } }

/-- The slow source is seen running (R124). -/
def State.seeSlow (s : State) : State :=
  if s.ticking then
    if s.time.source = .awaiting then { s with time := { s.time with source := .slow } } else s
  else if s.time.early = .nothing then { s with time := { s.time with early := .running } }
  else s

/-- 2 s after the rise of power-good run out without the slow source seen running (R126). -/
def State.seeNeverStarted (s : State) : State :=
  if s.ticking then if s.time.source = .awaiting then s.timeFault 1 else s
  else if s.time.early = .nothing then { s with time := { s.time with early := .late } }
  else s

/-- 1.5 s run out in SLOW without a slow second tick (R126): FAULTED, one second tick at once, the
trigger and the alert. -/
def State.seeStopped (s : State) : State :=
  if s.ticking = true ∧ s.time.source = .slow then
    (State.second { s with time := { s.time with source := .faulted } }).timeFault 2
  else s

end Sys2Proof.Machine
end

