-- ==== Sys2Proof/Machine/Media.lean ====
section
/-! DEFINITION. The meanings of the downstream port's commands: read data and completions (R68, R69),
media timeouts (R70), and the arbiter's grants (R64 to R67). Messages are not taken once power-good has
fallen (R99). -/

namespace Sys2Proof.Machine

/-- A data message (R68). -/
def execMediaData (operation : BitVec 32) (offset : BitVec 17) (block : Block) (s : State) :
    Host.Outcome State Fault Refusal :=
  .next (if s.startUp.powerGood then s.quiet.takeData operation offset.toNat block else s.quiet)

/-- A completion is taken for the BUSY slot that holds its operation number (R68, R69). -/
def State.takeCompletion (operation : BitVec 32) (good : Bool) (s : State) : State :=
  match s.slotOf operation with
  | none => s
  | some i =>
    match s.port.slots[i] with
    | none => s
    | some x => (s.release i x (x.completionStatus good)).settle

/-- A completion message (R68, R69). -/
def execMediaCompletion (operation : BitVec 32) (good : Bool) (s : State) :
    Host.Outcome State Fault Refusal :=
  .next (if s.startUp.powerGood then s.quiet.takeCompletion operation good else s.quiet)

/-- The last second of a BUSY slot runs out (R70).
DESIGN CHOICE (unsafe): notes/assumptions/5.md. -/
def execMediaTimeout (slot : SlotIx) (s : State) : Host.Outcome State Fault Refusal :=
  .next (if s.port.slots[slot].any fun x => decide (x.seconds ≤ 1) then (s.quiet.expire slot).settle
    else s.quiet)

/-- The arbiter grants the oldest host segment (R64 case 2, R66).
DESIGN CHOICE (safe): notes/assumptions/4.md. -/
def execSegmentIssue (s : State) : Host.Outcome State Fault Refusal :=
  .next (match s.nextGrant with
    | .host i => s.quiet.grantOnce (.host i)
    | .nothing | .credited _ _ | .chunk _ _ => s.quiet)

/-- The arbiter grants the offered chunk (R64 cases 1 and 3, R67). -/
def execChunkIssue (s : State) : Host.Outcome State Fault Refusal :=
  .next (match s.nextGrant with
    | .credited i c => s.quiet.grantOnce (.credited i c)
    | .chunk i c => s.quiet.grantOnce (.chunk i c)
    | .nothing | .host _ => s.quiet)

end Sys2Proof.Machine
end

