-- ==== Sys2Proof/Machine/Power.lean ====
section
/-! DEFINITION. The meanings of the power and start-up commands: the rise and fall of power-good (R99)
and the end of the store read (R100). -/

namespace Sys2Proof.Machine

/-- POWER_GOOD_RISE (R99): every volatile item takes its power-on value and step 1 begins. The boundary
list stands at that of the stored regions from the rise on, as the working copies do.
DESIGN CHOICE (safe): notes/assumptions/12.md. DESIGN CHOICE (unsafe): notes/assumptions/39.md. -/
def execPowerGoodRise (s : State) : Host.Outcome State Fault Refusal :=
  .next (State.rebuildBoundary (State.atPowerOn s.geometry s.fuses s.stored s.offered s.pending))

/-- POWER_GOOD_FALL (R99, R167): port ready is deasserted; no further unit is taken and no conversion
starts.
DEDUCED (unsafe): notes/assumptions/32.md. -/
def execPowerGoodFall (s : State) : Host.Outcome State Fault Refusal :=
  .next { s.quiet with startUp := { s.startUp with powerGood := false, portReady := false } }

/-- STORE_READ_END (R100): step 1 ends; steps 2 to 4 follow and step 5 begins.
DESIGN CHOICE (safe): notes/assumptions/6.md. -/
def execStoreReadEnd (s : State) : Host.Outcome State Fault Refusal :=
  .next (if s.startUp.phase = .reading then s.quiet.firstSteps.settle else s.quiet)

end Sys2Proof.Machine
end

