-- ==== Sys2Proof/Machine/Requests.lean ====
section
/-! DEFINITION. The meanings of the management requests: each is a request message of its kind offered to
the management channel (R173, R174), which hands it to its owning block. While port ready is deasserted
it waits with the front-end (R1); while the slot is WORKING it is discarded (R173). -/

namespace Sys2Proof.Machine

/-- STATUS-QUERY (R176). -/
def execStatusQuery (s : State) : Host.Outcome State Fault Refusal :=
  .next (s.quiet.request .statusQuery)

/-- PRESENT (R82 to R87). -/
def execPresent (credential : BitVec 8) (readMask writeMask : BitVec 16) (options : BitVec 8)
    (secret : List Byte) (s : State) : Host.Outcome State Fault Refusal :=
  .next (s.quiet.request (.present credential readMask writeMask options secret))

/-- LOCK (R30). -/
def execLock (readMask writeMask : BitVec 16) (forget : BitVec 8) (s : State) :
    Host.Outcome State Fault Refusal :=
  .next (s.quiet.request (.lock readMask writeMask forget))

/-- SET-SECRET (R93, R94). -/
def execSetSecret (credential : BitVec 8) (cost : BitVec 8) (secret : List Byte) (s : State) :
    Host.Outcome State Fault Refusal :=
  .next (s.quiet.request (.setSecret credential cost secret))

/-- REMOVE-CREDENTIAL (R95). -/
def execRemoveCredential (credential : BitVec 8) (s : State) : Host.Outcome State Fault Refusal :=
  .next (s.quiet.request (.removeCredential credential))

/-- GRANT (R96). -/
def execGrant (user region rights : BitVec 8) (s : State) : Host.Outcome State Fault Refusal :=
  .next (s.quiet.request (.grant user region rights))

/-- SET-LIMIT (R97). -/
def execSetLimit (credential limit : BitVec 8) (s : State) : Host.Outcome State Fault Refusal :=
  .next (s.quiet.request (.setLimit credential limit))

/-- RESET-ATTEMPTS (R98). -/
def execResetAttempts (credential : BitVec 8) (s : State) : Host.Outcome State Fault Refusal :=
  .next (s.quiet.request (.resetAttempts credential))

/-- DEFINE-REGION (R37 to R40). -/
def execDefineRegion (region enable : BitVec 8) (start length : BitVec 48)
    (powerOnRead powerOnWrite conceal absorb : BitVec 8) (s : State) : Host.Outcome State Fault Refusal :=
  .next (s.quiet.request (.defineRegion region enable start length powerOnRead powerOnWrite conceal absorb))

/-- RATCHET (R44). -/
def execRatchet (regions : BitVec 16) (regionSet deviceSet : BitVec 8) (s : State) :
    Host.Outcome State Fault Refusal :=
  .next (s.quiet.request (.ratchet regions regionSet deviceSet))

/-- SET-RESPONSE (R134). -/
def execSetResponse (source level severity : BitVec 8) (s : State) : Host.Outcome State Fault Refusal :=
  .next (s.quiet.request (.setResponse source level severity))

/-- ERASE-ORDER (R144). -/
def execEraseOrder (regions : BitVec 16) (level : BitVec 8) (s : State) :
    Host.Outcome State Fault Refusal :=
  .next (s.quiet.request (.eraseOrder regions level))

/-- SET-TAMPER (R121, R122). -/
def execSetTamper (line enable polarity debounce : BitVec 8) (s : State) :
    Host.Outcome State Fault Refusal :=
  .next (s.quiet.request (.setTamper line enable polarity debounce))

/-- CLEAR-TAMPER (R123). -/
def execClearTamper (lines : BitVec 8) (s : State) : Host.Outcome State Fault Refusal :=
  .next (s.quiet.request (.clearTamper lines))

/-- SET-DEADLINE (R132). -/
def execSetDeadline (dp : BitVec 16) (dn q : BitVec 8) (s : State) : Host.Outcome State Fault Refusal :=
  .next (s.quiet.request (.setDeadline dp dn q))

/-- SET-HOLDUP (R171). -/
def execSetHoldup (gateMode threshold conversionTime : BitVec 8) (s : State) :
    Host.Outcome State Fault Refusal :=
  .next (s.quiet.request (.setHoldup gateMode threshold conversionTime))

/-- SET-SCRUB-SHARE (R74). -/
def execSetScrubShare (share : BitVec 8) (s : State) : Host.Outcome State Fault Refusal :=
  .next (s.quiet.request (.setScrubShare share))

/-- SET-MEDIA-TIMEOUT (R75). -/
def execSetMediaTimeout (seconds : BitVec 8) (s : State) : Host.Outcome State Fault Refusal :=
  .next (s.quiet.request (.setMediaTimeout seconds))

/-- SET-WINDOW (R110). -/
def execSetWindow (enable : BitVec 8) (w : BitVec 32) (s : State) : Host.Outcome State Fault Refusal :=
  .next (s.quiet.request (.setWindow enable w))

/-- BEGIN-LOAD (R111). -/
def execBeginLoad (s : State) : Host.Outcome State Fault Refusal :=
  .next (s.quiet.request .beginLoad)

/-- END-LOAD (R112). -/
def execEndLoad (imageLength : BitVec 32) (s : State) : Host.Outcome State Fault Refusal :=
  .next (s.quiet.request (.endLoad imageLength))

/-- SET-LABEL (R114). -/
def execSetLabel (text : List Byte) (s : State) : Host.Outcome State Fault Refusal :=
  .next (s.quiet.request (.setLabel text))

/-- RETIRE-WINDOW (R109). -/
def execRetireWindow (s : State) : Host.Outcome State Fault Refusal :=
  .next (s.quiet.request .retireWindow)

/-- FETCH-ALERTS (R178). -/
def execFetchAlerts (triggerLevel : Option (BitVec 8)) (s : State) : Host.Outcome State Fault Refusal :=
  .next (s.quiet.request (.fetchAlerts triggerLevel))

/-- REVERT (R162 to R164). -/
def execRevert (scrub : BitVec 8) (code : List Byte) (s : State) : Host.Outcome State Fault Refusal :=
  .next (s.quiet.request (.revert scrub code))

end Sys2Proof.Machine
end

