-- ==== Sys2Proof/Machine/Ticks.lean ====
section
/-! DEFINITION. The meanings of the commands of time: second ticks and what their counts bring about
(R125 to R128, R90, R162), sample ticks and the tamper groups (R116 to R120), and the sources of time
(R124, R126). A count's last step taken alone does what the tick would do to that count alone. -/

namespace Sys2Proof.Machine

/-- A second tick, from step 2 of the start-up sequence on (R125). -/
def execSecondTick (s : State) : Host.Outcome State Fault Refusal :=
  .next (if s.ticking then s.quiet.second.settle else s.quiet)

/-- The second count reaches 60 (R127).
DESIGN CHOICE (unsafe): notes/assumptions/5.md. -/
def execMinuteCounted (s : State) : Host.Outcome State Fault Refusal :=
  .next (if s.ticking = true ∧ 59 ≤ s.deadlines.seconds then s.quiet.countMinute.settle else s.quiet)

/-- The mark count reaches Q (R127, R128). -/
def execQMark (s : State) : Host.Outcome State Fault Refusal :=
  .next (if s.ticking = true ∧ s.work.deadlines.q ≤ s.deadlines.marks + 1 then s.quiet.takeQMark.settle
    else s.quiet)

/-- A credential's back-off count reaches 0 (R90).
DESIGN CHOICE (unsafe): notes/assumptions/5.md. -/
def execBackoffEnd (credential : CredIx) (s : State) : Host.Outcome State Fault Refusal :=
  .next (if s.credentials[credential].backoff ≤ 1 then s.quiet.setBackoff credential 0 else s.quiet)

/-- The revert back-off count reaches 0 (R162). -/
def execRevertBackoffEnd (s : State) : Host.Outcome State Fault Refusal :=
  .next (if s.revertBackoff ≤ 1 then { s.quiet with revertBackoff := 0 } else s.quiet)

/-- A sample tick (R116): the first after step 5 begins ends that step (R120). -/
def State.sampleTick (levels : BitVec 4) (s : State) : State :=
  match s.startUp.phase with
  | .reading => s
  | .sampling => (s.stepFive levels).settle.takeOffered
  | .resuming | .running => (s.sample levels).settle

/-- A sample tick (R116, R120). -/
def execSampleTick (levels : BitVec 4) (s : State) : Host.Outcome State Fault Refusal :=
  .next (s.quiet.sampleTick levels)

/-- A trigger group gives an event (R117, R119).
DESIGN CHOICE (safe): notes/assumptions/4.md. -/
def execTamperEvent (group : Group) (s : State) : Host.Outcome State Fault Refusal :=
  .next (s.quiet.eventIfDue group).settle

/-- A trigger group re-arms (R118). -/
def execGroupRearm (group : Group) (s : State) : Host.Outcome State Fault Refusal :=
  .next (s.quiet.rearmIfDue group)

/-- The slow source is seen running (R124). -/
def execSlowSourceRunning (s : State) : Host.Outcome State Fault Refusal := .next s.quiet.seeSlow

/-- The slow source has not started in 2 s (R126). -/
def execTimeFaultNeverStarted (s : State) : Host.Outcome State Fault Refusal :=
  .next s.quiet.seeNeverStarted.settle

/-- The slow source has stopped (R126). -/
def execTimeFaultStopped (s : State) : Host.Outcome State Fault Refusal :=
  .next s.quiet.seeStopped.settle

end Sys2Proof.Machine
end

