-- ==== Sys2Proof/Machine/Transfers.lean ====
section
/-! DEFINITION. The meanings of the upstream port's commands: the six transfer kinds (section 1.1), a
request of another kind (R3), and the link reset (section 1.4). -/

namespace Sys2Proof.Machine

/-- READ (chapter 1). -/
def execRead (tag : BitVec 8) (start : BitVec 48) (count : BitVec 17) (s : State) :
    Host.Outcome State Fault Refusal :=
  .next (s.quiet.request (.read tag start count))

/-- WRITE (chapter 1). -/
def execWrite (tag : BitVec 8) (start : BitVec 48) (count : BitVec 17) (data : List Block) (s : State) :
    Host.Outcome State Fault Refusal :=
  .next (s.quiet.request (.write tag start count data))

/-- DISCARD (chapter 1). -/
def execDiscard (tag : BitVec 8) (start : BitVec 48) (count : BitVec 17) (s : State) :
    Host.Outcome State Fault Refusal :=
  .next (s.quiet.request (.discard tag start count))

/-- FLUSH (R19). -/
def execFlush (tag : BitVec 8) (s : State) : Host.Outcome State Fault Refusal :=
  .next (s.quiet.request (.flush tag))

/-- MANAGE-SEND (R21, R173, R174). -/
def execManageSend (tag : BitVec 8) (message : List Byte) (s : State) : Host.Outcome State Fault Refusal :=
  .next (s.quiet.request (.manageSend tag message))

/-- MANAGE-FETCH (R22, R173). -/
def execManageFetch (tag : BitVec 8) (s : State) : Host.Outcome State Fault Refusal :=
  .next (s.quiet.request (.manageFetch tag))

/-- A request whose kind is outside the six (R3). -/
def execRequestOfUnknownKind (tag : BitVec 8) (s : State) : Host.Outcome State Fault Refusal :=
  .next (s.quiet.request (.requestOfUnknownKind tag))

/-- Link reset (R23, R72, R175). -/
def execLinkReset (s : State) : Host.Outcome State Fault Refusal := .next s.quiet.linkReset

end Sys2Proof.Machine
end

