-- ==== Sys2Proof/Machine/Units.lean ====
section
/-! DEFINITION. The meanings of the commands of the random source (R48), the derivation unit (R81), the
hold-up monitor (R168, R169), the secure store (R167) and its requesters (R166), and of the steps that
blocks take of themselves: key destruction (R50), the taking of a trigger (R136), the start of a walk
(R155). -/

namespace Sys2Proof.Machine

/-- The random source has gathered its start-up sample (R48). -/
def execRandomSourceReady (s : State) : Host.Outcome State Fault Refusal :=
  .next { s.quiet with random := { s.random with ready := true } }

/-- The draw in service ends with its bits; a salt is its low 128 bits (R48). A draw requested in
RUNNING-UP waits.
DESIGN CHOICE (safe): notes/assumptions/6.md. DESIGN CHOICE (unsafe): notes/assumptions/14.md. -/
def execRandomDrawEnd (bits : BitVec 512) (s : State) : Host.Outcome State Fault Refusal :=
  .next (if s.random.ready then (s.quiet.endDraw bits).settle.takeOffered else s.quiet)

/-- The running derivation ends (R81, R84, R93). -/
def execDerivationEnd (s : State) : Host.Outcome State Fault Refusal :=
  .next s.quiet.derivationEnds.settle

/-- A conversion ends (R168, R169).
DESIGN CHOICE (safe): notes/assumptions/6.md. DESIGN CHOICE (unsafe): notes/assumptions/14.md. -/
def execConversionEnd (nanovolts : BitVec 32) (s : State) : Host.Outcome State Fault Refusal :=
  .next (s.quiet.conversionEnds (conversionCode nanovolts.toNat))

/-- The gate passes the head without a conversion: gate mode OFF (R167, R169). -/
def State.passHead (s : State) : State :=
  match s.store.queue, s.store.writing with
  | u :: _, none =>
    if s.startUp.powerGood = true ∧ s.gateMode = .off then s.startWrite u else s
  | _, _ => s

/-- The gate passes the head unit (R167 stage 2).
DESIGN CHOICE (safe): notes/assumptions/4.md. -/
def execCommitWriteStart (s : State) : Host.Outcome State Fault Refusal := .next s.quiet.passHead

/-- The write of the head ends (R167 stage 4). -/
def State.writeEnds (s : State) : State :=
  match s.store.queue, s.store.writing with
  | u :: _, some image => s.answerDone u image
  | _, _ => s

/-- The write of the head unit ends (R167 stage 4).
DESIGN CHOICE (safe): notes/assumptions/6.md. -/
def execCommitWriteEnd (s : State) : Host.Outcome State Fault Refusal := .next s.quiet.writeEnds

/-- A unit waiting inside its requester is submitted (R166).
DESIGN CHOICE (safe): notes/assumptions/4.md. -/
def execDeferredUnitSubmit (requester : Requester) (s : State) : Host.Outcome State Fault Refusal :=
  .next (s.quiet.submitDeferred requester).settle

/-- The destruction step of a region's crypto-erase (R50, R150).
DESIGN CHOICE (safe): notes/assumptions/4.md. -/
def execKeyDestruction (region : RegionIx) (s : State) : Host.Outcome State Fault Refusal :=
  .next (s.quiet.destroyIfDue region).settle

/-- The free response controller takes a pending entry (R136, R138). -/
def execResponseTake (s : State) : Host.Outcome State Fault Refusal := .next s.quiet.takeIfFree.settle

/-- The walk of the scrub list's head starts (R155, R157).
DESIGN CHOICE (safe): notes/assumptions/4.md. -/
def execScrubWalkStart (s : State) : Host.Outcome State Fault Refusal :=
  .next s.quiet.startWalkIfDue.settle

end Sys2Proof.Machine
end

