-- ==== Sys2Proof/Machine/Dispatch.lean ====
section
/-! DEFINITION. The dispatch of the Z42's commands: one arm for each row of spec/opcode_table.json. -/

namespace Sys2Proof.Machine

def exec (i : Instr) (s : State) : Host.Outcome State Fault Refusal :=
  match i with
  | .powerGoodRise => Sys2Proof.Machine.execPowerGoodRise s
  | .powerGoodFall => Sys2Proof.Machine.execPowerGoodFall s
  | .storeReadEnd => Sys2Proof.Machine.execStoreReadEnd s
  | .read tag start count => Sys2Proof.Machine.execRead tag start count s
  | .write tag start count data => Sys2Proof.Machine.execWrite tag start count data s
  | .discard tag start count => Sys2Proof.Machine.execDiscard tag start count s
  | .flush tag => Sys2Proof.Machine.execFlush tag s
  | .manageSend tag message => Sys2Proof.Machine.execManageSend tag message s
  | .manageFetch tag => Sys2Proof.Machine.execManageFetch tag s
  | .linkReset => Sys2Proof.Machine.execLinkReset s
  | .mediaData operation offset block => Sys2Proof.Machine.execMediaData operation offset block s
  | .mediaCompletion operation good => Sys2Proof.Machine.execMediaCompletion operation good s
  | .mediaTimeout slot => Sys2Proof.Machine.execMediaTimeout slot s
  | .segmentIssue => Sys2Proof.Machine.execSegmentIssue s
  | .chunkIssue => Sys2Proof.Machine.execChunkIssue s
  | .secondTick => Sys2Proof.Machine.execSecondTick s
  | .minuteCounted => Sys2Proof.Machine.execMinuteCounted s
  | .qMark => Sys2Proof.Machine.execQMark s
  | .backoffEnd credential => Sys2Proof.Machine.execBackoffEnd credential s
  | .revertBackoffEnd => Sys2Proof.Machine.execRevertBackoffEnd s
  | .sampleTick levels => Sys2Proof.Machine.execSampleTick levels s
  | .tamperEvent group => Sys2Proof.Machine.execTamperEvent group s
  | .groupRearm group => Sys2Proof.Machine.execGroupRearm group s
  | .slowSourceRunning => Sys2Proof.Machine.execSlowSourceRunning s
  | .timeFaultNeverStarted => Sys2Proof.Machine.execTimeFaultNeverStarted s
  | .timeFaultStopped => Sys2Proof.Machine.execTimeFaultStopped s
  | .randomSourceReady => Sys2Proof.Machine.execRandomSourceReady s
  | .randomDrawEnd bits => Sys2Proof.Machine.execRandomDrawEnd bits s
  | .derivationEnd => Sys2Proof.Machine.execDerivationEnd s
  | .conversionEnd nanovolts => Sys2Proof.Machine.execConversionEnd nanovolts s
  | .commitWriteStart => Sys2Proof.Machine.execCommitWriteStart s
  | .commitWriteEnd => Sys2Proof.Machine.execCommitWriteEnd s
  | .deferredUnitSubmit requester => Sys2Proof.Machine.execDeferredUnitSubmit requester s
  | .keyDestruction region => Sys2Proof.Machine.execKeyDestruction region s
  | .responseTake => Sys2Proof.Machine.execResponseTake s
  | .scrubWalkStart => Sys2Proof.Machine.execScrubWalkStart s
  | .statusQuery => Sys2Proof.Machine.execStatusQuery s
  | .present credential readMask writeMask options secret => Sys2Proof.Machine.execPresent credential readMask writeMask options secret s
  | .lock readMask writeMask forget => Sys2Proof.Machine.execLock readMask writeMask forget s
  | .setSecret credential cost secret => Sys2Proof.Machine.execSetSecret credential cost secret s
  | .removeCredential credential => Sys2Proof.Machine.execRemoveCredential credential s
  | .grant user region rights => Sys2Proof.Machine.execGrant user region rights s
  | .setLimit credential limit => Sys2Proof.Machine.execSetLimit credential limit s
  | .resetAttempts credential => Sys2Proof.Machine.execResetAttempts credential s
  | .defineRegion region enable start length powerOnRead powerOnWrite conceal absorb => Sys2Proof.Machine.execDefineRegion region enable start length powerOnRead powerOnWrite conceal absorb s
  | .ratchet regions regionSet deviceSet => Sys2Proof.Machine.execRatchet regions regionSet deviceSet s
  | .setResponse source level severity => Sys2Proof.Machine.execSetResponse source level severity s
  | .eraseOrder regions level => Sys2Proof.Machine.execEraseOrder regions level s
  | .setTamper line enable polarity debounce => Sys2Proof.Machine.execSetTamper line enable polarity debounce s
  | .clearTamper lines => Sys2Proof.Machine.execClearTamper lines s
  | .setDeadline dp dn q => Sys2Proof.Machine.execSetDeadline dp dn q s
  | .setHoldup gateMode threshold conversionTime => Sys2Proof.Machine.execSetHoldup gateMode threshold conversionTime s
  | .setScrubShare share => Sys2Proof.Machine.execSetScrubShare share s
  | .setMediaTimeout seconds => Sys2Proof.Machine.execSetMediaTimeout seconds s
  | .setWindow enable w => Sys2Proof.Machine.execSetWindow enable w s
  | .beginLoad => Sys2Proof.Machine.execBeginLoad s
  | .endLoad imageLength => Sys2Proof.Machine.execEndLoad imageLength s
  | .setLabel text => Sys2Proof.Machine.execSetLabel text s
  | .retireWindow => Sys2Proof.Machine.execRetireWindow s
  | .fetchAlerts triggerLevel => Sys2Proof.Machine.execFetchAlerts triggerLevel s
  | .revert scrub code => Sys2Proof.Machine.execRevert scrub code s
  | .requestOfUnknownKind tag => Sys2Proof.Machine.execRequestOfUnknownKind tag s

end Sys2Proof.Machine
end

