-- ==== Sys2Proof/Machine/Step.lean ====
section
/-! DEFINITION. One step of the machine: the command at the front of the queue is run. -/

namespace Sys2Proof.Machine

/-- The front command runs with the queue's rest; on an empty queue the part idles.
DESIGN CHOICE (safe): notes/assumptions/2.md. DESIGN CHOICE (safe): notes/assumptions/36.md. -/
def step (s : State) : Host.Outcome State Fault Refusal :=
  match s.pending with
  | [] => .next s
  | i :: rest => exec i { s with pending := rest }

/-- The state with the command a table word spells in front of its queue; unchanged where it spells
none.
DESIGN CHOICE (safe): notes/assumptions/3.md. -/
def State.withFetchWord (s : State) (nbits w : Nat) : State :=
  match decodeTableWord nbits w with
  | some i => { s with pending := i :: s.pending }
  | none => s

end Sys2Proof.Machine
end

