-- ==== Sys2Proof/Safety.lean ====
section
/-! DEFINITION. The terms in which statements about the part are made: laws of its state that every step
keeps, states in which nothing further is due, and the shapes of the two answers a management request
gets in its taking event (a reply, or a submitted commit unit). -/

namespace Sys2Proof.Machine

/-! ### Laws of the state -/

/-- The alert queue holds at most 15 entries, its holding entry is occupied only while it holds 15, and
the attention line stands as R179 gives it (R177, R179). -/
def State.AlertLaw (s : State) : Prop :=
  s.alerts.queue.length ≤ 15 ∧ (s.alerts.holding.isSome = true → s.alerts.queue.length = 15)
    ∧ s.alerts.attention = s.alerts.attentionLaw

/-- No requester has two units in the commit queue (R166). -/
def State.CommitLaw (s : State) : Prop := (s.store.queue.map CommitUnit.requester).Nodup

/-- The transfer table holds at most one entry per tag, and every tag is 0 to 63 (R2). -/
def State.TagLaw (s : State) : Prop :=
  (s.transfers.map Transfer.tag).Nodup ∧ ∀ t ∈ s.transfers, t.tag ≤ 63

/-- A region's key is loaded only under an open right, an admitted CIPHER segment, or as the head of the
scrub list (R52). -/
def State.KeyLaw (s : State) : Prop :=
  ∀ r : RegionIx, s.keys[r].loaded.isSome = true →
    s.regions[r].read = .opened ∨ s.regions[r].write = .opened ∨ 0 < s.regions[r].admitted
      ∨ s.scrubHead = some r

/-- The generations of a slot are in order: stored, working, highest drawn; a write under way carries one
between the first two; an outstanding draw is of one already counted as drawn (R46). -/
def State.GenerationLaw (s : State) : Prop :=
  ∀ r : RegionIx,
    s.stored.keys[r].generation ≤ s.work.keys[r].generation
    ∧ s.work.keys[r].generation ≤ s.keys[r].highestDrawn
    ∧ s.keys[r].highestDrawn ≤ lastGeneration
    ∧ (∀ image, s.store.writing = some image →
        s.stored.keys[r].generation ≤ image.keys[r].generation
        ∧ image.keys[r].generation ≤ s.work.keys[r].generation)
    ∧ (∀ g use, (Draw.key r g use ∈ s.random.queue ∨ Draw.key r g use ∈ s.random.waiting) →
        g ≤ s.keys[r].highestDrawn)

/-- Attempt counters within their limits, in every copy (R91). -/
def Records.AttemptsWithin (p : Records) : Prop :=
  ∀ c : CredIx, p.credentials[c].counter ≤ p.credentials[c].limit

/-- No stored attempt counter exceeds its limit, now or once the write under way ends (R91). -/
def State.AttemptLaw (s : State) : Prop :=
  s.stored.AttemptsWithin ∧ s.work.AttemptsWithin
    ∧ ∀ image, s.store.writing = some image → image.AttemptsWithin

/-! ### States in which nothing further is due -/

/-- Nothing waits for the media port: no walk under way, and no grant to make. -/
def State.MediaStill (s : State) : Prop := s.scrub.phase ≠ .walking ∧ s.nextGrant = .nothing

/-- The commit queue's head, if any, has met the gate already or cannot meet it. -/
def State.StoreStill (s : State) : Prop :=
  s.store.queue = [] ∨ s.store.writing.isSome = true ∨ s.store.headWaiting = true
    ∨ s.startUp.powerGood = false

/-- No trigger waits for a free response controller. -/
def State.ResponseStill (s : State) : Prop := s.responseFree = true → s.response.triggers = []

/-- The part is running and no rule has anything left to do in the present event. -/
def State.Still (s : State) : Prop :=
  s.ResponseStill ∧ (∀ r : RegionIx, s.destructionsDue r = []) ∧ s.startUp.phase ≠ .resuming
    ∧ s.walkDue = false ∧ s.MediaStill ∧ s.StoreStill

/-- As Still, with no scrub list, no crypto-erase and no walk to restart by the event; the commit queue is
not looked at. -/
def State.Calm (s : State) : Prop :=
  s.ResponseStill ∧ s.erases = [] ∧ s.startUp.phase ≠ .resuming ∧ s.work.scrubList = []
    ∧ s.nextGrant = .nothing

/-! ### The secure store at an answer -/

/-- The write of a unit that is alone in the store runs, with these contents. -/
def State.Writes (s : State) (u : CommitUnit) (image : Records) : Prop :=
  s.store.queue = [u] ∧ s.store.deferred = [] ∧ s.store.writing = some image

/-- A unit that is alone in the store meets the end of a conversion at this voltage with seven low codes
behind it, and the code is below the threshold (R168, R169). -/
def State.MeetsEighthLow (s : State) (u : CommitUnit) (nanovolts : BitVec 32) : Prop :=
  s.store.queue = [u] ∧ s.store.deferred = [] ∧ s.store.headWaiting = true ∧ s.startUp.powerGood = true
    ∧ s.holdup.converting = true ∧ s.holdup.lowCount = 7 ∧ s.holdup.episodeLow = true
    ∧ min 255 ((512 * nanovolts.toNat + 3300000000) / 6600000000) < s.work.holdup.threshold

/-- The store once that unit has been answered and nothing follows it. -/
def emptyStore : SecureStore := ⟨[], none, false, []⟩

/-- The slot with the reply to the current request (R174). -/
def State.replied (s : State) (kind : Byte) (result : ResultCode) (body : List Byte) : ManagementChannel :=
  { s.management with slot := .replyReady, current := none, buffer := some ⟨kind, result, body⟩ }

/-! ### Keys and transfers -/

/-- The key material of a region can be loaded: it is there and its integrity check passes (R53). -/
def State.MaterialLoads (s : State) (r : RegionIx) : Prop :=
  ∃ m, s.work.keys[r].material = some m ∧ m.integrity = s.fuses.rootKey

/-- The merged status of a transfer entry is GOOD while no segment of it that is done has failed, and else
the status of the failed one with the lowest first LBA (R16, R18). -/
def Transfer.MergedRight (t : Transfer) : Prop :=
  (t.merged = .good ∧ ∀ y ∈ t.segments, y.state = .done → y.status = .good)
  ∨ (t.merged ≠ .good ∧ ∃ y ∈ t.segments, y.state = .done ∧ y.status = t.merged ∧ y.first = t.mergedFrom
      ∧ ∀ z ∈ t.segments, z.state = .done → z.status ≠ .good → y.first ≤ z.first)

/-! ### The status a query reports -/

/-- A number as k bytes, the least significant first (section 12.1). -/
def littleEndian (k v : Nat) : List Byte := (List.range k).map fun i => BitVec.ofNat 8 (v / 256 ^ i)

/-- A byte whose bit n is the n-th flag. -/
def flagsByte (flags : List Bool) : Byte :=
  BitVec.ofNat 8 ((flags.zipIdx.map fun x => if x.1 then 2 ^ x.2 else 0).sum)

/-- The 22 bytes of a region summary, field by field (R182). -/
def State.summary (s : State) (r : RegionIx) : List Byte :=
  let x := s.work.regions[r]
  let v := s.regions[r]
  let bounds (field : Extent → Nat) : Nat := if x.enabled then x.extent.elim 0 field else 0
  [BitVec.ofNat 8 r.val,
    flagsByte [x.enabled, v.read == .opened, v.write == .opened, x.powerOnRead == .opened,
      x.powerOnWrite == .opened, x.conceal, x.absorb, v.eraseHold],
    conditionByte x.condition,
    flagsByte [x.ratchets.fixedBounds, x.ratchets.fixedGrants, x.ratchets.fixedFlags,
      x.ratchets.theftWipe],
    flagByte s.keys[r].loaded.isSome]
  ++ littleEndian 6 (bounds Extent.start)
  ++ littleEndian 6 (if r = 0 then s.geometry.capacity else bounds Extent.length)
  ++ littleEndian 4 s.work.keys[r].generation ++ [BitVec.ofNat 8 x.faultCount]

/-- The resulting ratchet set of each region of a mask in index order, then the device set (R44, R182). -/
def State.ratchetSets (s : State) (mask : BitVec 16) : List Byte :=
  (((List.finRange 16).filter fun r : RegionIx => mask.getLsbD r.val).map fun r : RegionIx =>
    let x := s.work.regions[r].ratchets
    flagsByte [x.fixedBounds, x.fixedGrants, x.fixedFlags, x.theftWipe])
  ++ [flagsByte [s.work.deviceRatchets.fixedResponses, s.work.deviceRatchets.fixedTamper,
    s.work.deviceRatchets.fixedDeadlines]]

/-! ### Requests at the upstream port -/

/-- The tag of a request of one of the six kinds (section 1.1). -/
def requestTag : Instr → Option (BitVec 8)
  | .read tag _ _ | .write tag _ _ _ | .discard tag _ _ | .flush tag | .manageSend tag _
  | .manageFetch tag => some tag
  | _ => none

/-- Kind, tag, start LBA, block count and write data of a READ, WRITE or DISCARD (section 1.1). -/
def blockFields : Instr → Option (TransferKind × Nat × Nat × Nat × List Block)
  | .read tag start count => some (.read, tag.toNat, start.toNat, count.toNat, [])
  | .write tag start count data => some (.write, tag.toNat, start.toNat, count.toNat, data)
  | .discard tag start count => some (.discard, tag.toNat, start.toNat, count.toNat, [])
  | _ => none

/-- Only a completion is sent (R1). -/
def State.completes (s : State) (tag : Nat) (status : Status) : State :=
  { s with sent := [.completion tag status] }

/-- A tag names a transfer and is free (R3). -/
def State.TagFree (s : State) (tag : Nat) : Prop := tag ≤ 63 ∧ ∀ t ∈ s.transfers, t.tag ≠ tag

/-- A block range that lies in the part (R4). -/
def State.RangeFits (s : State) (start count : Nat) : Prop :=
  0 < count ∧ count ≤ 65536 ∧ start < s.geometry.capacity ∧ start + count ≤ s.geometry.capacity

/-- Segments that follow one another from `a` to `b` with none empty. -/
def Tiles : List Segment → Nat → Nat → Prop
  | [], a, b => a = b
  | x :: xs, a, b => x.first = a ∧ 0 < x.count ∧ Tiles xs (a + x.count) b

/-- Enabled regions 1 to 15 have bounds of at least one block and do not overlap, and the boundary list
holds exactly their starts (R27). -/
def State.BoundsLaw (s : State) : Prop :=
  s.boundary = boundaryOf s.work.regions
  ∧ (∀ r : RegionIx, r ≠ 0 → s.work.regions[r].enabled = true →
      ∃ e, s.work.regions[r].extent = some e ∧ 0 < e.length ∧ e.start + e.length ≤ s.geometry.capacity)
  ∧ ∀ (q r : RegionIx) (p : Nat), q ≠ 0 → r ≠ 0 → q ≠ r →
      s.work.regions[q].contains p = true → s.work.regions[r].contains p = false

/-- Two copies of the region records agree in what R27 looks at. -/
def Records.SameBounds (p q : Records) : Prop :=
  ∀ r : RegionIx, r ≠ 0 →
    p.regions[r].enabled = q.regions[r].enabled ∧ p.regions[r].extent = q.regions[r].extent

/-- Fields for region r give it bounds that lie in the part and meet no other enabled region (R37). -/
def State.Fits (s : State) (r : RegionIx) (f : RegionFields) : Prop :=
  ∃ e, f.extent = some e ∧ 0 < e.length ∧ e.start + e.length ≤ s.geometry.capacity
    ∧ ∀ (q : RegionIx) (x : Extent), q ≠ 0 → q ≠ r → s.work.regions[q].enabled = true →
      s.work.regions[q].extent = some x →
      e.start + e.length ≤ x.start ∨ x.start + x.length ≤ e.start

/-- What a DEFINE-REGION in progress still waits for: its draw, its crypto-erase, or its unit (R38 to R40). -/
def State.defineWaits (s : State) : Nat :=
  ((s.random.queue ++ s.random.waiting).filter fun d => match d with
    | .key _ _ .enabling => true
    | _ => false).length
  + (s.erases.filter fun e => e.party == .disabling && e.stage != .committing).length
  + ((s.store.queue ++ s.store.deferred).filter fun u => match u with
    | .regionDefinition _ => true
    | _ => false).length

/-- A DEFINE-REGION in progress fits the regions as they stand, waits for at most one thing, and is the one
whose unit is submitted; a disabling draws no material (R37 to R40, R50). -/
def State.DefineLaw (s : State) : Prop :=
  (∀ (d : DefineRequest) (f : RegionFields), s.define = some d → d.region ≠ 0 →
    d.kind = .enabling f ∨ d.kind = .change f → s.Fits d.region f)
  ∧ s.defineWaits ≤ (if s.define.isSome then 1 else 0)
  ∧ (∀ d : DefineRequest, CommitUnit.regionDefinition d ∈ s.store.queue ++ s.store.deferred →
      s.define = some d)
  ∧ ∀ (r : RegionIx) (g : Nat),
      Draw.key r g (.erase .disabling) ∉ s.random.queue ++ s.random.waiting

/-- A write under way is that of the queue's head; it changes bounds only of the region it defines, to those
of the definition, or disables every region 1 to 15 for a REVERT (R38 to R40, R163, R165). -/
def State.WriteLaw (s : State) : Prop :=
  ∀ image : Records, s.store.writing = some image →
    match s.store.queue with
    | [] => False
    | .regionDefinition d :: _ =>
      ∀ r : RegionIx, r ≠ 0 →
        if r = d.region then
          image.regions[r].enabled = (match d.kind with
            | .enabling _ => true
            | .change _ => s.work.regions[r].enabled
            | .disabling => false)
          ∧ image.regions[r].extent = (match d.kind with
            | .enabling f | .change f => f.extent
            | .disabling => none)
        else image.regions[r].enabled = s.stored.regions[r].enabled
          ∧ image.regions[r].extent = s.stored.regions[r].extent
    | .revert _ _ :: _ => ∀ r : RegionIx, r ≠ 0 → image.regions[r].enabled = false
    | _ :: _ => image.SameBounds s.stored

/-- The law of the region bounds with what keeps it: both copies agree, and neither a DEFINE-REGION in
progress nor a write under way can break it (R27, R37). -/
def State.RegionLaw (s : State) : Prop :=
  s.BoundsLaw ∧ s.work.SameBounds s.stored ∧ s.DefineLaw ∧ s.WriteLaw

/-! ### Management requests in their taking event -/

/-- Port ready is asserted, the slot can take a message, and no revert operation runs. -/
def State.TakesRequests (s : State) : Prop :=
  s.startUp.portReady = true ∧ s.management.slot ≠ .working ∧ s.reverting = false

/-- As TakesRequests, with the administrator's authority held (R80). -/
def State.TakesAdministrator (s : State) : Prop := s.TakesRequests ∧ s.administrator = true

/-- Only the management slot changes: it holds the reply to the request just taken (R174). -/
def State.answered (s : State) (kind : Byte) (result : ResultCode) (body : List Byte) : State :=
  { s with
    sent := []
    management := ⟨.replyReady, some ⟨kind, result, body⟩, none, s.management.nextId + 1⟩ }

/-- The number of the next management request. -/
def State.nextRequest (s : State) : Nat := s.management.nextId

/-- The request just taken is WORKING (R173). -/
def State.working (s : State) : State :=
  { s with sent := [], management := ⟨.working, none, some s.nextRequest, s.nextRequest + 1⟩ }

/-- `t` is `s` with a unit at the tail of the commit queue, and with nothing else changed but what the
gate does with a unit that became the head by it (R166, R169). -/
def State.Submitted (s t : State) (u : CommitUnit) : Prop :=
  t = { s with store := t.store, holdup := t.holdup }
    ∧ t.store.queue = s.store.queue ++ [u] ∧ t.store.deferred = s.store.deferred
    ∧ (s.store.queue ≠ [] ∧ s.StoreStill → t.holdup = s.holdup ∧ t.store.writing = s.store.writing
        ∧ t.store.headWaiting = s.store.headWaiting)

end Sys2Proof.Machine
end

