-- ==== Sys2Proof/WellFormed.lean ====
section
/-! DEFINITION. When a command's operands are ones that the part's ports and inputs can present: the
blocks a WRITE brings, the block of a data message, field sizes of request messages (R180), the sense
voltage of 0 to 3.30 V (R168). A command that fails here still has its meaning (the owning check refuses
it, or its excess is never read); statements name this check where they need it. -/

namespace Sys2Proof

/-- A block holds its data units: one when B is 512, eight when B is 4096 (R55). -/
def blockFits (b : Block) : Bool := b.length == 1 || b.length == 8

/-- A WRITE carries N blocks of one size (section 1.1). -/
def writeFits (count : BitVec 17) (data : List Block) : Bool :=
  data.length == count.toNat && data.all blockFits
    && data.all fun b => b.length == (data.headD []).length

/-- The hold-up sense input measures 0 to 3.30 V (R168). -/
def voltageFits (nanovolts : BitVec 32) : Bool := decide (nanovolts.toNat ≤ 3300000000)

/-- Well-formedness of a command. -/
def Instr.wellFormed : Instr → Bool
  | .write _ _ count data => writeFits count data
  | .mediaData _ _ block => blockFits block
  | .conversionEnd nanovolts => voltageFits nanovolts
  | .present c r w o secret => Machine.messageFits (.present c r w o secret)
  | .setSecret c cost secret => Machine.messageFits (.setSecret c cost secret)
  | .setLabel text => Machine.messageFits (.setLabel text)
  | .revert scrub code => Machine.messageFits (.revert scrub code)
  | .powerGoodRise | .powerGoodFall | .storeReadEnd | .read .. | .discard .. | .flush ..
  | .manageSend .. | .manageFetch .. | .linkReset | .mediaCompletion .. | .mediaTimeout ..
  | .segmentIssue | .chunkIssue | .secondTick | .minuteCounted | .qMark | .backoffEnd ..
  | .revertBackoffEnd | .sampleTick .. | .tamperEvent .. | .groupRearm .. | .slowSourceRunning
  | .timeFaultNeverStarted | .timeFaultStopped | .randomSourceReady | .randomDrawEnd ..
  | .derivationEnd | .commitWriteStart | .commitWriteEnd | .deferredUnitSubmit .. | .keyDestruction ..
  | .responseTake | .scrubWalkStart | .requestOfUnknownKind .. | .statusQuery | .lock ..
  | .removeCredential .. | .grant .. | .setLimit .. | .resetAttempts .. | .defineRegion .. | .ratchet ..
  | .setResponse .. | .eraseOrder .. | .setTamper .. | .clearTamper .. | .setDeadline .. | .setHoldup ..
  | .setScrubShare .. | .setMediaTimeout .. | .setWindow .. | .beginLoad | .endLoad .. | .retireWindow
  | .fetchAlerts .. => true

end Sys2Proof
end

