-- ==== Sys2Proof/Certificates/Slice0/Obligations.lean ====
section
/-! DEFINITION. The statements about the model that the provers settle, each formalising what rules of the
spec say (named in its docstring). `exec c s = .next t` says that the command completes. -/

section

open Sys2Proof Sys2Proof.Machine

/-! ### The machine as a whole -/

/-- One step runs the command at the front of the queue with the queue's rest; an empty queue idles (the
model's choice, notes/assumptions/2.md). -/
def Obligations.StepRunsFrontCommand : Prop :=
  (∀ (c : Instr) (rest : List Instr) (s : State),
    step { s with pending := c :: rest } = exec c { s with pending := rest })
  ∧ ∀ s : State, s.pending = [] → step s = .next s

/-- The laws that steps keep hold in the state right after reset. -/
def Obligations.LawsHoldAtReset : Prop :=
  State.reset.AlertLaw ∧ State.reset.CommitLaw ∧ State.reset.TagLaw ∧ State.reset.KeyLaw
    ∧ State.reset.GenerationLaw ∧ State.reset.AttemptLaw ∧ State.reset.RegionLaw

/-- What the manual gives the first power-on after manufacture (the factory values of R25, R45, R61, R77,
R104, R107, R114, R115, R127, R133, R145, R147, R162, R168 and the power-on values of R99): every stored
record, and every volatile item.
That the working copies stand at the stored values from the rise on, that the model's own fields (what was sent,
and the queue of commands) are empty, that a volatile item without a power-on value stands at 0, OFF or END, and the
bytes of a last-response record that holds no response are the model's choices (notes/assumptions/3.md, 12.md, 16.md,
39.md, 46.md); that requests the front-end holds are an item of their own, empty at reset, is its reading (17.md). -/
def Obligations.ResetIsFactory : Prop :=
  let s := State.reset
  s.work = s.stored ∧ s.stored.mode = .factory ∧ s.startUp = ⟨true, false, .reading⟩
  ∧ (∀ r : RegionIx, s.stored.regions[r].enabled = (r == 0)
      ∧ s.stored.regions[r].condition = (if r = 0 then .normal else .unused)
      ∧ s.stored.regions[r].ratchets = ⟨false, false, false, false⟩
      ∧ s.stored.keys[r].generation = 1 ∧ s.stored.keys[r].material.isSome = (r == 0)
      ∧ s.keys[r] = ⟨1, none⟩ ∧ s.regions[r] = ⟨.locked, .locked, false, 0⟩)
  ∧ (∀ c : CredIx, s.stored.credentials[c] = ⟨none, 0, if c = 0 then 10 else 5, []⟩
      ∧ s.credentials[c] = ⟨false, 0⟩)
  ∧ (∀ n : SourceIx, n ≠ 0 → s.entryOf n = if n = 1 then ⟨.relock, .high⟩ else ⟨.alert, .low⟩)
  ∧ (∀ n : LineIx, s.stored.lines[n] = ⟨false, .rising, false, 16⟩)
  ∧ s.stored.deadlines = ⟨0, 0, 15, 0, 0⟩ ∧ s.stored.holdup = ⟨.onDemand, 160, .us24⟩
  ∧ s.stored.window = ⟨false, 2048, 0⟩ ∧ s.stored.label = List.replicate 64 0
  ∧ s.stored.scrubShare = 4 ∧ s.stored.mediaTimeout = 30 ∧ s.stored.scrubList = []
  ∧ s.stored.inProgress = none ∧ s.stored.revertCounter = 0 ∧ s.transfers = []
  ∧ s.port.queue = [] ∧ (∀ i : SlotIx, s.port.slots[i] = none) ∧ s.port.nextOperation = 0
  ∧ s.store.queue = [] ∧ s.alerts.queue = [] ∧ s.alerts.attention = false ∧ s.pending = []
  ∧ s.stored.lastResponse = ⟨0, .none, 0, 0, 0⟩ ∧ s.stored.deviceRatchets = ⟨false, false, false⟩
  ∧ (∀ r : RegionIx, s.stored.regions[r].extent = none ∧ s.stored.regions[r].powerOnRead = .locked
      ∧ s.stored.regions[r].powerOnWrite = .locked ∧ s.stored.regions[r].conceal = false
      ∧ s.stored.regions[r].absorb = false ∧ s.stored.regions[r].faultCount = 0)
  ∧ (∀ n : LineIx, s.tamper.lines[n] = ⟨false, false, 0⟩) ∧ (∀ g : Group, s.tamper.armed g = false)
  ∧ s.tamper.changePending = false ∧ s.boundary = [] ∧ s.random = ⟨false, [], []⟩ ∧ s.port.acc = 0 ∧ s.port.credit = 0
  ∧ s.revertBackoff = 0 ∧ s.derivation = none ∧ s.window = ⟨.off, false⟩
  ∧ s.time = ⟨.awaiting, 0, .nothing⟩ ∧ s.deadlines = ⟨0, 0, false, false⟩
  ∧ s.response = ⟨[], none, false, false, 0, false, false⟩ ∧ s.erases = []
  ∧ s.scrub = ⟨.idle, 0, none, [], .none, 0, []⟩ ∧ s.define = none ∧ s.reverting = false
  ∧ s.revertRequest = none ∧ s.store = ⟨[], none, false, []⟩ ∧ s.holdup = ⟨false, 0, 0, false, false⟩
  ∧ s.management = ⟨.idle, none, none, 0⟩ ∧ s.alerts = ⟨[], none, false, 1, false⟩
  ∧ s.offered = [] ∧ s.sent = []

/-- Every step keeps the law of the alert queue and the attention line (R177, R179). -/
def Obligations.AlertLawKept : Prop :=
  ∀ s t : State, s.AlertLaw → step s = .next t → t.AlertLaw

/-- Every step keeps the commit queue free of two requests of one requester (R166). -/
def Obligations.CommitLawKept : Prop :=
  ∀ s t : State, s.CommitLaw → step s = .next t → t.CommitLaw

/-- Every step keeps one transfer entry per tag, under tags 0 to 63 (R2). -/
def Obligations.TagLawKept : Prop :=
  ∀ s t : State, s.TagLaw → step s = .next t → t.TagLaw

/-- Every step keeps keys out of the cipher key store but under an open right, an admitted segment, or at
the scrub head (R52). -/
def Obligations.KeyLawKept : Prop :=
  ∀ s t : State, s.KeyLaw → step s = .next t → t.KeyLaw

/-- Every step keeps the order of generations, and no stored generation ever falls (R46). -/
def Obligations.GenerationsNeverFall : Prop :=
  ∀ s t : State, s.GenerationLaw → step s = .next t →
    t.GenerationLaw ∧ ∀ r : RegionIx, s.stored.keys[r].generation ≤ t.stored.keys[r].generation

/-- Every step keeps each attempt counter within its limit (R91). -/
def Obligations.AttemptLawKept : Prop :=
  ∀ s t : State, s.AttemptLaw → step s = .next t → t.AttemptLaw

/-- Every step keeps the law of the region bounds: enabled regions 1 to 15 have bounds in the part and do not
overlap, and the boundary list holds exactly their starts (BoundsLaw, the first part of RegionLaw; R27). The
other parts of RegionLaw rule out states that no run reaches: the two copies agree on the bounds, a
DEFINE-REGION in progress fits and is the one whose unit is written (R37 to R40), and no draw of key material
stands for a disabling (R50). -/
def Obligations.BoundsLawKept : Prop :=
  ∀ s t : State, s.RegionLaw → step s = .next t → t.RegionLaw

/-- Nothing the part does changes what was fixed at manufacture: B, C, the root key, the revert code. -/
def Obligations.ManufactureUnchanged : Prop :=
  ∀ s t : State, step s = .next t → t.geometry = s.geometry ∧ t.fuses = s.fuses

/-- A step that begins and ends in LOCKDOWN opens no right (R31, R86, R105). -/
def Obligations.LockdownOpensNothing : Prop :=
  ∀ s t : State, s.work.mode = .lockdown → step s = .next t → t.work.mode = .lockdown →
    ∀ (r : RegionIx) (k : RightKind), t.regions[r].right k = .opened → s.regions[r].right k = .opened

/-! ### Power and start-up -/

/-- The rise of power-good gives every volatile item its power-on value and keeps the store (R99); the
fall only deasserts port ready and power-good.
That the working copies stand at the stored ones, and items without a power-on value at 0, LOCKED, OFF,
RESTING or END, in the rise itself and before the start-up steps that set them is the model's choice
(notes/assumptions/12.md, 39.md); that nothing else changes at the fall is its reading (notes/assumptions/32.md),
as it is that requests the front-end holds stay with it (notes/assumptions/17.md). -/
def Obligations.PowerGoodEvents : Prop :=
  ∀ s : State,
    (∃ t, exec .powerGoodRise s = .next t ∧ t.startUp = ⟨true, false, .reading⟩
      ∧ t.stored = s.stored ∧ t.fuses = s.fuses ∧ t.geometry = s.geometry ∧ t.pending = s.pending
      ∧ (∀ r : RegionIx, t.regions[r] = ⟨.locked, .locked, false, 0⟩
          ∧ t.keys[r] = ⟨s.stored.keys[r].generation, none⟩)
      ∧ (∀ c : CredIx, t.credentials[c] = ⟨false, 0⟩) ∧ t.revertBackoff = 0
      ∧ t.transfers = [] ∧ t.port.queue = [] ∧ (∀ i : SlotIx, t.port.slots[i] = none)
      ∧ t.port.acc = 0 ∧ t.port.credit = 0 ∧ t.port.nextOperation = 0
      ∧ t.store = ⟨[], none, false, []⟩ ∧ t.holdup = ⟨false, 0, 0, false, false⟩
      ∧ t.alerts = ⟨[], none, false, 1, false⟩ ∧ t.management.slot = .idle
      ∧ t.management.buffer = none ∧ t.time = ⟨.awaiting, 0, .nothing⟩
      ∧ t.deadlines = ⟨0, 0, false, false⟩ ∧ t.response.triggers = [] ∧ t.response.running = none
      ∧ t.random = ⟨false, [], []⟩ ∧ t.derivation = none ∧ t.reverting = false
      ∧ t.work = s.stored ∧ t.boundary = boundaryOf s.stored.regions ∧ t.window = ⟨.off, false⟩
      ∧ (∀ n : LineIx, t.tamper.lines[n] = ⟨false, false, 0⟩) ∧ (∀ g : Group, t.tamper.armed g = false)
      ∧ t.tamper.changePending = false ∧ t.scrub = ⟨.idle, 0, none, [], .none, 0, []⟩ ∧ t.erases = []
      ∧ t.define = none ∧ t.revertRequest = none
      ∧ t.response = ⟨[], none, false, false, s.stored.lastResponse.count, false, false⟩
      ∧ t.management = ⟨.idle, none, none, 0⟩ ∧ t.offered = s.offered ∧ t.sent = [])
    ∧ exec .powerGoodFall s =
        .next { s with sent := [], startUp := { s.startUp with powerGood := false, portReady := false } }

/-- The end of the store read: every working copy is the stored one, but that SCRUBBING is read as
SCRUB-QUEUED and that Np and P are charged where their deadlines are on; no key is loaded; each deadline fires
by its charged count, with its trigger and its alert; a deadline charge is submitted exactly if a count moved;
step 5 is reached, and nothing else changes but what the gate does with that charge (R34, R100, R101, R128 to
R130). A crystal seen running before step 2 makes the time source SLOW at it; 2 s that ran out before step 2 make it
FAULTED, with the TIME-FAULT trigger and its alert of value 1 ahead of the deadlines' (R124, R126). Each trigger
entered has its level and severity by the response table, no mask and repeat count 0 (R135).
That a condition read as SCRUB-QUEUED is never stored as SCRUBBING, and that what was seen of the crystal is
remembered until step 2, are the model's readings (notes/assumptions/13.md, 38.md). -/
def Obligations.StoreReadCharges : Prop :=
  ∀ s : State, s.startUp = ⟨true, false, .reading⟩ → s.response.released = false →
    s.response.triggers = [] → s.erases = [] → s.scrub.phase = .idle → s.scrub.formed = [] →
    s.port.queue = [] → s.deadlines.chargeHeld = false →
    let d := s.stored.deadlines
    let np := if d.dn = 0 then d.np else min 255 (d.np + 1)
    let p := if d.dp = 0 then d.p else min 65535 (d.p + d.q)
    ∃ t, exec .storeReadEnd s = .next t ∧ t.startUp = ⟨true, false, .sampling⟩
      ∧ t.work.deadlines = { d with p := p, np := np }
      ∧ (∀ r : RegionIx, t.work.regions[r] =
          { s.stored.regions[r] with condition :=
              if s.stored.regions[r].condition = .scrubbing then .scrubQueued
              else s.stored.regions[r].condition })
      ∧ t.boundary = boundaryOf s.stored.regions ∧ t.work.mode = s.stored.mode
      ∧ t.work.credentials = s.stored.credentials ∧ t.work.keys = s.stored.keys
      ∧ t.stored = s.stored ∧ t.regions = s.regions
      ∧ (srcPowerOn ∈ t.response.triggers.map PendingTrigger.source ↔
          d.dn ≠ 0 ∧ d.dn < np ∧ s.stored.responseTable[6].level ≠ .none)
      ∧ (srcPowered ∈ t.response.triggers.map PendingTrigger.source ↔
          d.dp ≠ 0 ∧ d.dp ≤ p ∧ s.stored.responseTable[5].level ≠ .none)
      ∧ (srcTimeFault ∈ t.response.triggers.map PendingTrigger.source ↔
          s.time.early = .late ∧ s.stored.responseTable[7].level ≠ .none)
      ∧ (∀ e ∈ t.response.triggers, e.source ∈ [srcPowered, srcPowerOn, srcTimeFault]
          ∧ e = ⟨e.source, (t.entryOf e.source).level, (t.entryOf e.source).severity, 0, 0⟩)
      ∧ (t.response.triggers.map PendingTrigger.source).Nodup
      ∧ (t.store.queue = if p ≠ d.p ∨ np ≠ d.np then [.deadlineCharge] else [])
      ∧ t.work = { s.stored with
          regions := t.work.regions, deadlines := { d with p := p, np := np } }
      ∧ (∀ r : RegionIx, t.keys[r] = { s.keys[r] with loaded := none })
      ∧ t = { s with
          sent := [], startUp := ⟨true, false, .sampling⟩, work := t.work
          boundary := boundaryOf s.stored.regions, keys := t.keys, store := t.store, holdup := t.holdup
          deadlines := { s.deadlines with chargeHeld := decide (p ≠ d.p ∨ np ≠ d.np) }
          time := { s.time with source := match s.time.early with
            | .nothing => s.time.source
            | .running => .slow
            | .late => .faulted }
          response := { s.response with
            count := s.stored.lastResponse.count, triggers := t.response.triggers }
          alerts := t.alerts }
      ∧ (let f := if s.time.early = .late then s.alerts.arrive ⟨.timeFault,
             s.stored.responseTable[7].severity, some srcTimeFault, none, some 1, s.time.stamp, 0⟩
           else s.alerts
         let q := if d.dn ≠ 0 ∧ d.dn < np then f.arrive ⟨.deadline,
             s.stored.responseTable[6].severity, some srcPowerOn, none, some np, s.time.stamp, 0⟩
           else f
         t.alerts = if d.dp ≠ 0 ∧ d.dp ≤ p then q.arrive ⟨.deadline,
             s.stored.responseTable[5].severity, some srcPowered, none, some p, s.time.stamp, 0⟩
           else q)

/-! ### Transfer admission -/

/-- The tag and kind check comes first: a tag above 63 or an unknown kind is BAD-REQUEST, a held tag is
TAG-IN-USE; neither makes an entry nor touches the one that holds the tag (R3). -/
def Obligations.TagAndKindChecked : Prop :=
  ∀ (s : State) (i : Instr) (tag : BitVec 8), s.startUp.portReady = true →
    exec (.requestOfUnknownKind tag) s = .next (s.completes tag.toNat .badRequest)
    ∧ (requestTag i = some tag → 63 < tag.toNat →
        exec i s = .next (s.completes tag.toNat .badRequest))
    ∧ (requestTag i = some tag → tag.toNat ≤ 63 → (∃ t ∈ s.transfers, t.tag = tag.toNat) →
        exec i s = .next (s.completes tag.toNat .tagInUse))

/-- A READ, WRITE or DISCARD that passes the tag check and fails the range check completes with the status
R4 gives, and changes nothing. -/
def Obligations.RangeChecked : Prop :=
  ∀ (s : State) (i : Instr) (kind : TransferKind) (tag start count : Nat) (data : List Block),
    s.startUp.portReady = true → blockFields i = some (kind, tag, start, count, data) → s.TagFree tag →
    ((count = 0 ∨ 65536 < count) → exec i s = .next (s.completes tag .badRequest))
    ∧ (0 < count → count ≤ 65536 →
        (s.geometry.capacity ≤ start ∨ s.geometry.capacity < start + count) →
        exec i s = .next (s.completes tag .outOfRange))

/-- A transfer with any refused segment completes with the status of the lowest one, and nothing else
happens (R12). -/
def Obligations.RefusedTransferMovesNothing : Prop :=
  ∀ (s : State) (i : Instr) (kind : TransferKind) (tag start count : Nat) (data : List Block)
    (x : Segment) (status : Status),
    s.startUp.portReady = true → blockFields i = some (kind, tag, start, count, data) → s.TagFree tag →
    s.RangeFits start count →
    x ∈ s.plan kind (start + count) count start → x.disposition = .refuse status →
    (∀ y ∈ s.plan kind (start + count) count start, ∀ st, y.disposition = .refuse st →
      x.first ≤ y.first) →
    exec i s = .next (s.completes tag status)

/-- An admitted transfer with every slot BUSY: its entry, its places in the queue, the admitted counts,
the zero fill or absorbed data moved at admission, and its completion if nothing is outstanding (R13,
R15, R17, R18).
The order of the messages sent is the model's (notes/assumptions/16.md). -/
def Obligations.AdmittedTransfer : Prop :=
  ∀ (s : State) (i : Instr) (kind : TransferKind) (tag start count : Nat) (data : List Block),
    s.startUp.portReady = true → blockFields i = some (kind, tag, start, count, data) → s.TagFree tag →
    s.RangeFits start count → s.freeSlot = none → s.scrub.phase ≠ .walking →
    let segments := s.plan kind (start + count) count start
    (∀ x ∈ segments, ∀ status, x.disposition ≠ .refuse status) →
    let bound := segments.filter Segment.mediaBound
    let served := (segments.filter fun x => !x.mediaBound).flatMap fun x => match kind with
      | .read => [PortEvent.readData tag (x.first - start) [.zeros x.count]]
      | .write => [PortEvent.dataTaken tag (x.first - start) x.count]
      | .discard | .flush => []
    ∃ t, exec i s = .next t
      ∧ t = { s with
          regions := t.regions, transfers := t.transfers, port := { s.port with queue := t.port.queue }
          sent := t.sent }
      ∧ (∀ r : RegionIx, t.regions[r] = { s.regions[r] with admitted := s.regions[r].admitted
          + (segments.filter fun x => x.disposition == .cipher && x.owner == some (.region r)).length })
      ∧ (bound = [] → t.transfers = s.transfers ∧ t.port.queue = s.port.queue
          ∧ t.sent = served ++ [.completion tag .good])
      ∧ (bound ≠ [] → t.sent = served
          ∧ t.transfers = s.transfers ++ [⟨tag, kind, start, count,
              segments.map (fun x => { x with state := if x.mediaBound then .waiting else .done }),
              bound.length, .good, 0, data⟩]
          ∧ t.port.queue = s.port.queue
              ++ (segments.zipIdx.filter fun x => x.1.mediaBound).map fun x => (tag, x.2))

/-- An admitted FLUSH is one PLAIN segment at the tail of the segment queue, whatever rights and window
are (R8, R19). -/
def Obligations.FlushQueuesPlainSegment : Prop :=
  ∀ (s : State) (tag : BitVec 8), s.startUp.portReady = true → s.TagFree tag.toNat →
    s.freeSlot = none → s.scrub.phase ≠ .walking →
    exec (.flush tag) s = .next { s with
      sent := []
      transfers := s.transfers ++ [⟨tag.toNat, .flush, 0, 0,
        [⟨0, 0, none, .plain, 0, 0, .waiting, .good⟩], 1, .good, 0, []⟩]
      port := { s.port with queue := s.port.queue ++ [(tag.toNat, 0)] } }

/-- The plan of a range covers it exactly once in LBA order, each segment wholly within one owner, with the
disposition its owner's state gives it (R6, R7, R9 to R11). The owner of an LBA is the window below W while it is
SHOWN or LOADING, else the enabled region 1 to 15 whose range holds it, else region 0 (R6). -/
def Obligations.PlanCoversRange : Prop :=
  ∀ (s : State) (kind : TransferKind) (start count : Nat), s.boundary = boundaryOf s.work.regions →
    let segments := s.plan kind (start + count) count start
    let within (q : RegionIx) (p : Nat) : Prop := s.work.regions[q].enabled = true
      ∧ ∃ e, s.work.regions[q].extent = some e ∧ e.start ≤ p ∧ p < e.start + e.length
    Tiles segments start (start + count)
    ∧ ∀ x ∈ segments, ∀ p, x.first ≤ p → p < x.first + x.count →
      match x.owner with
      | some .window =>
        (s.window.state = .shown ∨ s.window.state = .loading) ∧ p < s.work.window.w
        ∧ x.disposition = (if kind = .read then .image
            else if s.window.state = .loading then .imageWrite else .refuse .windowReadOnly)
        ∧ (kind = .read → x.imageBlocks = if s.window.state = .loading then x.count
            else min (x.first + x.count) s.work.window.l - x.first)
      | some (.region r) =>
        ¬ ((s.window.state = .shown ∨ s.window.state = .loading) ∧ p < s.work.window.w)
        ∧ (if r = 0 then ∀ q : RegionIx, q ≠ 0 → ¬ within q p else within r p)
        ∧ (let g := s.work.regions[r]
           let v := s.regions[r].right (if kind = .read then .read else .write)
           x.disposition =
             (if g.condition = .scrubQueued ∨ g.condition = .scrubbing then
                (if kind = .read then .zero else .refuse .scrubbing)
              else if v = .opened then .cipher
              else if kind = .read then (if g.conceal then .zero else .refuse .locked)
              else (if g.absorb then .absorb else .refuse .locked)))
        ∧ (x.disposition = .cipher → x.generation = s.work.keys[r].generation)
      | none => False

/-- No transfer has more than 32 segments: at most one of the window and of each region 1 to 15, at most one
of region 0 more than of regions 1 to 15, and so at most 16 of region 0 (R7). -/
def Obligations.PlanWithinThirtyTwo : Prop :=
  ∀ (s : State) (kind : TransferKind) (start count : Nat), s.BoundsLaw → s.RangeFits start count →
    let segments := s.plan kind (start + count) count start
    segments.length ≤ 32
    ∧ (segments.filter fun x => x.owner == some .window).length ≤ 1
    ∧ (∀ r : RegionIx, r ≠ 0 → (segments.filter fun x => x.owner == some (.region r)).length ≤ 1)
    ∧ (segments.filter fun x => x.owner == some (.region 0)).length ≤ 16
    ∧ (segments.filter fun x => x.owner == some (.region 0)).length
        ≤ 1 + (segments.filter fun x => x.owner != some .window && x.owner != some (.region 0)).length

/-! ### Media port -/

/-- The oldest host segment is issued to the granted slot as R66 gives it, charged by R65. A CIPHER WRITE
sends the segment's blocks of the transfer's data, each enciphered under its region's key at its LBA; an
IMAGE-WRITE sends them unchanged; every other operation sends no data (R15, R57, R60).
That the command is this one grant taken alone is the model's choice (notes/assumptions/4.md). -/
def Obligations.SegmentIssued : Prop :=
  ∀ (s : State) (i : SlotIx) (tag index : Nat) (rest : List (Nat × Nat)) (t : Transfer) (x : Segment),
    s.nextGrant = .host i → s.port.queue = (tag, index) :: rest → s.transfer tag = some t →
    t.segments[index]? = some x →
    ∃ u kind range data, exec .segmentIssue s = .next u
      ∧ u = { s with port := u.port, transfers := u.transfers, sent := u.sent }
      ∧ u.port.queue = rest ∧ u.port.nextOperation = s.port.nextOperation + 1
      ∧ u.port.slots = s.port.slots.set i
          (some ⟨.segment tag index, kind, range, s.port.nextOperation, s.work.mediaTimeout, []⟩)
      ∧ u.transfers = s.transfers.map (fun y => if y.tag = tag then
          { t with segments := t.segments.set index { x with state := .atMedia } } else y)
      ∧ u.sent = (if kind = .write then [.dataTaken tag (x.first - t.start) x.count] else [])
          ++ [.mediaOperation s.port.nextOperation i kind range data]
      ∧ (x.disposition = .cipher → t.kind = .read → kind = .read ∧ range = some ⟨x.first, x.count⟩)
      ∧ (x.disposition = .cipher → t.kind = .write → kind = .write ∧ range = some ⟨x.first, x.count⟩)
      ∧ (x.disposition = .cipher → t.kind = .discard →
          kind = .deallocate ∧ range = some ⟨x.first, x.count⟩)
      ∧ (x.disposition = .image →
          kind = .read ∧ range = some ⟨s.geometry.capacity + x.first, x.imageBlocks⟩)
      ∧ (x.disposition = .imageWrite → t.kind = .write →
          kind = .write ∧ range = some ⟨s.geometry.capacity + x.first, x.count⟩)
      ∧ (x.disposition = .imageWrite → t.kind = .discard →
          kind = .deallocate ∧ range = some ⟨s.geometry.capacity + x.first, x.count⟩)
      ∧ (x.disposition = .plain → kind = .flush ∧ range = none)
      ∧ (kind, range, data) = s.segmentOperation t x
      ∧ (∀ r, x.disposition = .cipher → t.kind = .write → x.owner = some (.region r) →
          data.length = x.count ∧ ∀ k b, k < x.count → t.data[x.first - t.start + k]? = some b →
            data[k]? = some (encipherBlock (s.pathKey r) s.geometry.unitsPerBlock (x.first + k) b))
      ∧ (x.disposition = .imageWrite → t.kind = .write →
          data.length = x.count ∧ ∀ k b, k < x.count → t.data[x.first - t.start + k]? = some b →
            data[k]? = some b)
      ∧ (t.kind ≠ .write ∨ (x.disposition ≠ .cipher ∧ x.disposition ≠ .imageWrite) → data = [])
      ∧ (s.work.scrubList = [] → u.port.acc = 0 ∧ u.port.credit = 0)
      ∧ (s.work.scrubList ≠ [] → s.port.acc + s.work.scrubShare < 16 →
          u.port.acc = s.port.acc + s.work.scrubShare ∧ u.port.credit = s.port.credit)
      ∧ (s.work.scrubList ≠ [] → 16 ≤ s.port.acc + s.work.scrubShare →
          u.port.acc = s.port.acc + s.work.scrubShare - 16
          ∧ u.port.credit = min (s.port.credit + 1) 4)

/-- A granted chunk is issued as a media WRITE of enciphered zeros, by credit or into an idle slot (R58,
R64, R67); beyond the port only the scrub engine's formed chunks and issue position move.
That the command is this one grant taken alone is the model's choice (notes/assumptions/4.md). -/
def Obligations.ChunkIssued : Prop :=
  ∀ (s : State) (i : SlotIx) (c : Chunk),
    (s.nextGrant = .credited i c ∨ s.nextGrant = .chunk i c) →
    ∃ u, exec .chunkIssue s = .next u
      ∧ u = { s with
          port := u.port, sent := u.sent
          scrub := { s.scrub with formed := u.scrub.formed, issue := u.scrub.issue } }
      ∧ u.port.queue = s.port.queue ∧ u.port.nextOperation = s.port.nextOperation + 1
      ∧ u.port.slots = s.port.slots.set i (some ⟨.chunk c, .write, some ⟨c.first, c.count⟩,
          s.port.nextOperation, s.work.mediaTimeout, []⟩)
      ∧ u.port.acc = s.port.acc
      ∧ u.port.credit = (if s.nextGrant = .credited i c then s.port.credit - 1 else s.port.credit)
      ∧ ⟨c, .atMedia⟩ ∈ u.scrub.formed
      ∧ u.sent = [.mediaOperation s.port.nextOperation i .write (some ⟨c.first, c.count⟩)
          ((List.range c.count).map fun k => encipherBlock (s.pathKey c.region)
            s.geometry.unitsPerBlock (c.first + k) (List.replicate s.geometry.unitsPerBlock 0))]

/-- The arbiter's choice: none without a FREE slot; an offered chunk by credit; else the oldest host
segment; else the chunk; always into the lowest FREE slot. Over n host grants while a scrub is listed, the
accumulator and the credit are what the share earns: one credit for each sixteen sixteenths, up to four
(R64, R65). -/
def Obligations.ArbiterSharesSlots : Prop :=
  (∀ s : State,
    ((∀ i : SlotIx, s.port.slots[i].isSome = true) → s.nextGrant = .nothing)
    ∧ ∀ i : SlotIx, s.port.slots[i] = none → (∀ j : SlotIx, j < i → s.port.slots[j].isSome = true) →
      (∀ c, s.offer = some c → 0 < s.port.credit → s.nextGrant = .credited i c)
      ∧ ((s.offer = none ∨ s.port.credit = 0) → s.port.queue ≠ [] → s.nextGrant = .host i)
      ∧ (∀ c, s.offer = some c → s.port.credit = 0 → s.port.queue = [] → s.nextGrant = .chunk i c)
      ∧ (s.offer = none → s.port.queue = [] → s.nextGrant = .nothing))
  ∧ ∀ (share n : Nat) (p : MediaPort), share ≤ 15 → p.acc ≤ 15 → p.credit ≤ 4 →
    let q := (MediaPort.hostGrant share true)^[n] p
    q.acc = (p.acc + n * share) % 16 ∧ q.credit = min 4 (p.credit + (p.acc + n * share) / 16)
      ∧ q.slots = p.slots ∧ q.queue = p.queue

/-- A block of read data is held in its slot, deciphered under the recorded region's key for a CIPHER
segment and unchanged for an IMAGE segment; data outside the range, or for an operation other than READ,
is ignored, as are messages that name no BUSY slot's operation and those that arrive once power-good has
fallen (R56, R60, R68, R99).
That no media message is taken after the fall is the model's reading of R99 (notes/assumptions/32.md). -/
def Obligations.MediaMessagesTaken : Prop :=
  ∀ (s : State) (offset : BitVec 17) (block : Block),
    (∀ (operation : BitVec 32) (good : Bool),
      (s.startUp.powerGood = false
        ∨ ∀ (i : SlotIx) (x : SlotRecord), s.port.slots[i] = some x → x.operation ≠ operation) →
      exec (.mediaData operation offset block) s = .next { s with sent := [] }
      ∧ exec (.mediaCompletion operation good) s = .next { s with sent := [] })
    ∧ ∀ (i : SlotIx) (x : SlotRecord), s.startUp.powerGood = true → s.slotOf x.operation = some i →
      s.port.slots[i] = some x →
      ((x.kind ≠ .read ∨ x.range.elim 0 (·.length) ≤ offset.toNat) →
        exec (.mediaData x.operation offset block) s = .next { s with sent := [] })
      ∧ ∀ (tag index : Nat) (t : Transfer) (g : Segment) (e : Extent), x.occupant = .segment tag index →
        s.transfer tag = some t → t.segments[index]? = some g → x.range = some e → x.kind = .read →
        offset.toNat < e.length →
        ∃ held, exec (.mediaData x.operation offset block) s = .next { s with
            sent := []
            port := { s.port with slots := s.port.slots.set i (some { x with arrived :=
              (offset.toNat, held) :: (x.arrived.filter fun y => y.1 != offset.toNat) }) } }
          ∧ (∀ r, g.disposition = .cipher → g.owner = some (.region r) → held =
              decipherBlock (s.pathKey r) s.geometry.unitsPerBlock (g.first + offset.toNat) block)
          ∧ (g.disposition = .image → held = block)

/-- The end of a host segment at the media, by completion or by timeout: the slot is FREE, the segment is
DONE and its status merged, its read data delivered, the transfer completed if it was the last, and a
CIPHER segment's region counts one less (R16 to R18, R35, R69, R70). What a GOOD CIPHER segment delivers is the
block held for each offset, a GOOD IMAGE segment those and zero fill of the blocks beyond them, any other zero
fill of every block; a read that ends GOOD with a block missing is MEDIA-ERROR (R17, R69).
That MEDIA_TIMEOUT is the last second of one slot taken alone is the model's choice (notes/assumptions/5.md). -/
def Obligations.HostSegmentEnds : Prop :=
  ∀ (s : State) (i : SlotIx) (x : SlotRecord) (tag index : Nat) (t : Transfer) (g : Segment) (good : Bool),
    s.startUp.powerGood = true → s.ResponseStill → s.erases = [] → s.startUp.phase ≠ .resuming →
    s.work.scrubList = [] → s.port.queue = [] → s.offer = none → s.StoreStill →
    s.slotOf x.operation = some i → s.port.slots[i] = some x → x.occupant = .segment tag index →
    s.transfer tag = some t → t.segments[index]? = some g →
    let ends (status : Status) (before : List PortEvent) (u : State) : Prop :=
      let t' := t.segmentDone index g status
      u = { s with
          port := { s.port with slots := s.port.slots.set i none }
          transfers := u.transfers, sent := u.sent, regions := u.regions, keys := u.keys }
      ∧ u.transfers = (if t'.outstanding = 0 then s.transfers.filter fun y => y.tag != tag
          else s.transfers.map fun y => if y.tag = tag then t' else y)
      ∧ (∃ (data : List ReadData) (held : List Block), u.sent = before
          ++ (if t.kind = .read then [.readData tag (g.first - t.start) data] else [])
          ++ (if t'.outstanding = 0 then [.completion tag t'.merged] else [])
        ∧ data = (if status = .good ∧ g.disposition = .cipher then [.blocks held]
            else if status = .good ∧ g.disposition = .image then
              [.blocks held, .zeros (g.count - g.imageBlocks)]
            else [.zeros g.count])
        ∧ held.length = x.range.elim 0 (·.length)
        ∧ ∀ (k : Nat) (b : Block), k < x.range.elim 0 (·.length) →
          (x.arrived.find? fun y => y.1 == k) = some (k, b) → held[k]? = some b)
      ∧ (∀ r : RegionIx, u.regions[r] =
          if g.disposition = .cipher ∧ g.owner = some (.region r) then
            { s.regions[r] with admitted := s.regions[r].admitted - 1 } else s.regions[r])
      ∧ (∀ r : RegionIx, u.keys[r].highestDrawn = s.keys[r].highestDrawn
          ∧ (u.keys[r].loaded = s.keys[r].loaded
            ∨ u.keys[r].loaded = none ∧ u.regions[r].read = .locked ∧ u.regions[r].write = .locked
              ∧ u.regions[r].admitted = 0))
    (∃ u, exec (.mediaCompletion x.operation good) s = .next u
      ∧ ends (if good = false then .mediaError
          else if x.kind = .read ∧ ∃ k < x.range.elim 0 (·.length), ∀ y ∈ x.arrived, y.1 ≠ k
            then .mediaError else .good) [] u)
    ∧ (x.seconds ≤ 1 → ∃ u, exec (.mediaTimeout i) s = .next u
        ∧ ends .mediaTimeout [.operationAbort x.operation] u)

/-- The merged status of two segments of a transfer does not depend on which ends first; whatever the
order, it is GOOD while none failed, and else that of the failed segment with the lowest first LBA (R16, R18).
A read segment that ends in error, by a FAILED completion or a timeout, is delivered as zero fill of all its
blocks, and a transfer whose last segment it is completes with that lowest segment's status (R17, R18).
That MEDIA_TIMEOUT is the last second of one slot taken alone is the model's choice (notes/assumptions/5.md). -/
def Obligations.MergeOrderFree : Prop :=
  (∀ (t : Transfer) (i j : Nat) (x y : Segment) (a b : Status), x.first ≠ y.first →
    ((t.segmentDone i x a).segmentDone j y b).merged = ((t.segmentDone j y b).segmentDone i x a).merged
    ∧ ((t.segmentDone i x a).segmentDone j y b).mergedFrom
        = ((t.segmentDone j y b).segmentDone i x a).mergedFrom)
  ∧ (∀ (t : Transfer) (i : Nat) (x : Segment) (a : Status), t.MergedRight → t.segments[i]? = some x →
      x.state ≠ .done → (t.segmentDone i x a).MergedRight)
  ∧ ∀ (s : State) (i : SlotIx) (x : SlotRecord) (tag index : Nat) (t : Transfer) (g : Segment),
    s.startUp.powerGood = true → s.ResponseStill → s.erases = [] → s.startUp.phase ≠ .resuming →
    s.work.scrubList = [] → s.port.queue = [] → s.offer = none → s.StoreStill →
    s.slotOf x.operation = some i → s.port.slots[i] = some x → x.occupant = .segment tag index →
    s.transfer tag = some t → t.segments[index]? = some g → t.kind = .read → t.MergedRight →
    g.state ≠ .done →
    let fails (status : Status) (u : State) : Prop :=
      PortEvent.readData tag (g.first - t.start) [.zeros g.count] ∈ u.sent
      ∧ (t.outstanding ≤ 1 →
        let segments := t.segments.set index { g with state := .done, status := status }
        ∃ y ∈ segments, y.state = .done ∧ y.status ≠ .good
          ∧ PortEvent.completion tag y.status ∈ u.sent
          ∧ ∀ z ∈ segments, z.state = .done → z.status ≠ .good → y.first ≤ z.first)
    (∃ u, exec (.mediaCompletion x.operation false) s = .next u ∧ fails .mediaError u)
    ∧ (x.seconds ≤ 1 → ∃ u, exec (.mediaTimeout i) s = .next u ∧ fails .mediaTimeout u)

/-! ### Link reset -/

/-- A link reset empties the transfer table, the segment queue, the slots and the management exchange, ends
every admitted count, and keeps rights, conditions, mode, window, store and alerts (R23, R35, R72, R175). Of the
scrub chunks at the media, those of the walk wait for reissue and stale ones are removed; the cursor and the
fault counts stay. While WALKING an offer that stood keeps its place at the head, else the lowest chunk that waits
is offered, and it takes slot 0 in the same event (R64, R72, R155, R157). A PRESENT's derivation is stopped with
the charge standing: its back-off is set, and at the limit the ATTEMPTS trigger and alert are raised (R87, R92);
a SET-SECRET's is stopped and nothing is written (R94). Where it removes the stale chunks that held the head, the
head's walk starts and its condition alone changes (R155, R157; the model's choice, notes/assumptions/51.md).
That a waiting salt draw is dropped, while waiting key draws stay, is the model's reading (notes/assumptions/33.md);
whether zero fill of an abandoned CIPHER segment of a READ is delivered, and nothing else is, it leaves free, as the
rules differ (notes/assumptions/48.md). That the chunks of a walk which R158 has ended are removed, and that those
issued before an erase or REVERT are stale in a spent slot too, are its choices (notes/assumptions/50.md, 53.md). That the charge of a detached PRESENT which waits in the
credential engine stays there with the whole store is its choice too (notes/assumptions/42.md). -/
def Obligations.LinkResetDiscards : Prop :=
  (∀ s : State, s.ResponseStill → (∀ e ∈ s.erases, e.stage ≠ .begun) → s.startUp.phase ≠ .resuming →
    s.scrub.phase ≠ .walking → s.offer = none → s.StoreStill →
    (∀ h : RegionIx, s.scrubHead = some h → s.scrub.phase = .finishing ∨ s.regions[h].eraseHold = true) →
    let ofWalk (c : Chunk) : Prop := s.scrub.phase ≠ .finishing
      ∧ s.stored.keys[c.region].generation = c.generation ∧ c ∉ s.scrub.earlier
      ∧ ∃ e ∈ s.work.scrubList, e.region = c.region
    let fill (e : PortEvent) : Prop := ∃ (i : SlotIx) (x : SlotRecord) (tag index : Nat) (y : Transfer)
      (g : Segment), s.port.slots[i] = some x ∧ x.occupant = .segment tag index ∧ s.transfer tag = some y
      ∧ y.kind = .read ∧ y.segments[index]? = some g ∧ g.disposition = .cipher
      ∧ e = .readData tag (g.first - y.start) [.zeros g.count]
    let reset (t : State) : Prop :=
      (∃ fills : List PortEvent, t.sent = .mediaAbort :: fills ∧ fills.length ≤ 16
        ∧ ∀ e, e ∈ fills ↔ Config.fillsAbandoned = true ∧ fill e)
      ∧ t = { s with
          transfers := [], sent := t.sent, regions := t.regions, keys := t.keys
          port := { s.port with queue := [], slots := t.port.slots, acc := 0, credit := 0 }
          management := { s.management with slot := .idle, buffer := none, current := none }
          random := { s.random with waiting := s.random.waiting.filter Draw.isKey }
          scrub := { s.scrub with formed := (s.scrub.formed.filter fun f =>
              decide (f.place = .atMedia → ofWalk f.chunk)).map fun f =>
                if f.place = .atMedia then { f with place := .reissue } else f, earlier := [] }
          derivation := none, credentials := t.credentials, response := t.response, alerts := t.alerts }
      ∧ (∀ i : SlotIx, t.port.slots[i] = none)
      ∧ (∀ r : RegionIx, t.regions[r] = { s.regions[r] with admitted := 0 }
          ∧ t.keys[r].highestDrawn = s.keys[r].highestDrawn
          ∧ t.keys[r].loaded = (if s.regions[r].admitted ≠ 0 ∧ s.regions[r].read = .locked
              ∧ s.regions[r].write = .locked ∧ s.scrubHead ≠ some r then none else s.keys[r].loaded))
    ((∀ d, s.derivation = some d → ∃ q, d.use = .secret q) →
      ∃ t, exec .linkReset s = .next t ∧ reset t ∧ t.credentials = s.credentials
        ∧ t.response = s.response ∧ t.alerts = s.alerts)
    ∧ ∀ (d : Derivation) (p : PresentRequest) (a : Nat), s.derivation = some d → d.use = .present p a →
      0 < a →
      let c := p.credential
      let n : SourceIx := if c = 0 then 1 else 2
      let e := s.entryOf n
      let atLimit := a = s.work.credentials[c].limit
      let backoff := min (2 ^ (a - 1)) 64
      ((atLimit → s.responseFree = true → e.level = .none) →
        ∃ t, exec .linkReset s = .next t ∧ reset t
          ∧ t.credentials = s.credentials.set c { s.credentials[c] with backoff := backoff }
          ∧ t.response = (if atLimit then { s.response with
              triggers := enterTrigger n e.level e.severity 0 s.response.triggers } else s.response)
          ∧ t.alerts = (if atLimit then s.alerts.arrive
              ⟨.attempts, e.severity, some n, none, some c.val, s.time.stamp, 0⟩ else s.alerts))
      ∧ (atLimit → s.responseFree = true → e.level ≠ .none →
        ∃ t, exec .linkReset s = .next t ∧ t.derivation = none ∧ t.transfers = []
          ∧ t.credentials[c].backoff = backoff ∧ t.response.triggers = []
          ∧ ∃ R, t.response.running = some R ∧ R.sources = bit n.val ∧ R.level = e.level
            ∧ R.severity = e.severity))
  ∧ (∀ (s : State) (h : RegionIx) (p : Nat), s.ResponseStill → (∀ e ∈ s.erases, e.stage ≠ .begun) →
    s.startUp.phase = .running → s.derivation = none → s.StoreStill → s.scrubHead = some h →
    s.scrub.phase = .held → s.regions[h].eraseHold = false → s.define = none →
    (∀ f ∈ s.scrub.formed,
      f.place = .atMedia ∧ (s.stored.keys[f.chunk.region].generation ≠ f.chunk.generation
        ∨ f.chunk ∈ s.scrub.earlier)) →
    s.scrub.issue = some p → (s.nextChunk h p).isSome = true → (s.loadKey h).keys[h].loaded.isSome = true →
    ∃ t, exec .linkReset s = .next t
      ∧ t.scrub.phase = .walking ∧ t.scrub.walkGeneration = s.stored.keys[h].generation
      ∧ t.work = { s.work with
          regions := s.work.regions.set h { s.work.regions[h] with condition := .scrubbing } }
      ∧ t.stored = s.stored ∧ t.alerts = s.alerts ∧ t.transfers = []
      ∧ t.scrub.earlier = []
      ∧ (∀ f ∈ t.scrub.formed, f.chunk.region = h ∧ f.chunk.generation = s.stored.keys[h].generation)
      ∧ ∀ f ∈ s.scrub.formed, s.stored.keys[f.chunk.region].generation ≠ f.chunk.generation →
          f ∉ t.scrub.formed)
  ∧ ∀ (s : State) (h : RegionIx) (c : Chunk), s.ResponseStill → (∀ e ∈ s.erases, e.stage ≠ .begun) →
    s.startUp.phase ≠ .resuming → s.derivation = none → s.StoreStill → s.scrubHead = some h →
    s.scrub.phase = .walking → s.keys[h].loaded.isSome = true →
    let stays (f : FormedChunk) : Prop := f.place = .atMedia →
      s.stored.keys[f.chunk.region].generation = f.chunk.generation ∧ f.chunk ∉ s.scrub.earlier
      ∧ ∃ e ∈ s.work.scrubList, e.region = f.chunk.region
    (∃ f ∈ s.scrub.formed, f.chunk = c ∧ stays f) →
    (s.offer = some c ∨ s.offer = none
      ∧ ∀ f ∈ s.scrub.formed, stays f → f.chunk = c ∨ c.first < f.chunk.first) →
    ∃ t, exec .linkReset s = .next t
      ∧ t.work = s.work ∧ t.stored = s.stored ∧ t.alerts = s.alerts ∧ t.store = s.store
      ∧ t.transfers = [] ∧ t.sent.head? = some .mediaAbort ∧ t.scrub.phase = .walking
      ∧ t.port.slots[(0 : SlotIx)] = some ⟨.chunk c, .write, some ⟨c.first, c.count⟩,
          s.port.nextOperation, s.work.mediaTimeout, []⟩
      ∧ ∀ f ∈ s.scrub.formed, stays f → ∃ g ∈ t.scrub.formed, g.chunk = f.chunk

/-! ### Time -/

/-- A second tick at which no slot expires and no minute ends: every back-off and every BUSY slot counts
down by one, the time stamp and the second count up by one, and nothing else changes (R70, R90, R125,
R127, R162). -/
def Obligations.SecondTickCounts : Prop :=
  ∀ s : State, s.Still → s.ticking = true → s.deadlines.seconds < 59 →
    (∀ (i : SlotIx) (x : SlotRecord), s.port.slots[i] = some x → 1 < x.seconds) →
    ∃ t, exec .secondTick s = .next t
      ∧ t = { s with
          sent := [], credentials := t.credentials, revertBackoff := s.revertBackoff - 1
          port := { s.port with slots := t.port.slots }
          time := { s.time with stamp := min 4294967295 (s.time.stamp + 1) }
          deadlines := { s.deadlines with seconds := s.deadlines.seconds + 1 } }
      ∧ (∀ c : CredIx, t.credentials[c] =
          { s.credentials[c] with backoff := s.credentials[c].backoff - 1 })
      ∧ ∀ i : SlotIx, t.port.slots[i] =
          s.port.slots[i].map fun x => { x with seconds := x.seconds - 1 }

/-- The ends of the counts of time, each taken alone: a minute short of the Q mark moves the counts only;
back-offs at their last second end (R90, R127, R162).
That these commands move one count alone is the model's choice (notes/assumptions/5.md). -/
def Obligations.CountsEnd : Prop :=
  ∀ s : State,
    (s.Still → s.ticking = true → 59 ≤ s.deadlines.seconds → s.deadlines.marks + 1 < s.work.deadlines.q →
      exec .minuteCounted s = .next { s with
        sent := []
        deadlines := { s.deadlines with seconds := 0, marks := s.deadlines.marks + 1 } })
    ∧ (∀ c : CredIx, s.credentials[c].backoff ≤ 1 → exec (.backoffEnd c) s = .next { s with
        sent := []
        credentials := s.credentials.set c { s.credentials[c] with backoff := 0 } })
    ∧ (s.revertBackoff ≤ 1 → exec .revertBackoffEnd s = .next { s with sent := [], revertBackoff := 0 })

/-- The Q mark: the mark count is 0, P is charged by Q while Dp is on, POWERED-DEADLINE fires at a P of at
least Dp, and a deadline charge is submitted if a count is unstored and none is held (R127, R128, R130).
That the command moves this count alone is the model's choice (notes/assumptions/5.md). -/
def Obligations.QMarkCharges : Prop :=
  ∀ s : State, s.Still → s.responseFree = false → s.ticking = true →
    s.work.deadlines.q ≤ s.deadlines.marks + 1 → s.deadlines.chargeHeld = false →
    s.holds .timeBase = false → s.store.queue ≠ [] →
    let d := s.work.deadlines
    let p := if d.dp = 0 then d.p else min 65535 (d.p + d.q)
    let fires := d.dp ≠ 0 ∧ d.dp ≤ p
    let due := p ≠ s.stored.deadlines.p ∨ d.np ≠ s.stored.deadlines.np
    let e := s.entryOf srcPowered
    exec .qMark s = .next { s with
      sent := []
      work := { s.work with deadlines := { d with p := p } }
      deadlines := { s.deadlines with marks := 0, chargeHeld := decide due }
      store := { s.store with queue := s.store.queue ++ if due then [.deadlineCharge] else [] }
      response := { s.response with triggers :=
        (if fires then enterTrigger srcPowered e.level e.severity 0 s.response.triggers
        else s.response.triggers) }
      alerts := (if fires then
          s.alerts.arrive ⟨.deadline, e.severity, some srcPowered, none, some p, s.time.stamp, 0⟩
        else s.alerts) }

/-- A sample tick while running: every line records its level and run; an ARMED group rests exactly if
one of its enabled lines stands away from idle with a run equal to its debounce, and a RESTING group arms
exactly if it has an enabled line and all of its enabled lines stand at idle for theirs (R116 to R118). The
first sample after step 5 begins, with no response to resume, no scrub listed and no trigger raised: a group
rests, with its lines latched and its TAMPER alert marked found at power-on, exactly if an enabled line of it
stands away from idle, and steps 6 to 12 follow: rights by mode and power-on rights, window, back-offs, gate
mode, port ready (R31, R90, R100, R102, R108, R120, R172).
That a RESTING group with no enabled line stays RESTING, and what the groups' order at one sample is, is the
model's (notes/assumptions/30.md, 44.md); that the requests which wait are taken in the order in which they were
offered (second part) is its reading (17.md). -/
def Obligations.SampleEvaluatesGroups : Prop :=
  (∀ (s : State) (levels : BitVec 4), s.Still → s.responseFree = false → s.startUp.phase = .running →
    let now (n : LineIx) : LineStatus :=
      let x := s.tamper.lines[n]
      { x with level := levels.getLsbD n.val
               run := if levels.getLsbD n.val = x.level then min 255 (x.run + 1) else 1 }
    let gives (n : LineIx) : Bool := s.work.lines[n].enabled && (now n).level != s.work.lines[n].idle
      && (now n).run == s.work.lines[n].debounce
    let rests (n : LineIx) : Bool := !s.work.lines[n].enabled
      || ((now n).level == s.work.lines[n].idle && decide (s.work.lines[n].debounce ≤ (now n).run))
    ∃ t, exec (.sampleTick levels) s = .next t
      ∧ t = { s with tamper := t.tamper, response := t.response, alerts := t.alerts, sent := [] }
      ∧ (∀ n : LineIx, t.tamper.lines[n].level = (now n).level ∧ t.tamper.lines[n].run = (now n).run
          ∧ t.tamper.lines[n].latched = (s.tamper.lines[n].latched
              || (s.tamper.armed (groupOf n) && gives n)))
      ∧ t.tamper.armedA = (if s.tamper.armedA then !gives 0 else s.work.lines[(0 : LineIx)].enabled && rests 0)
      ∧ t.tamper.armedB = (if s.tamper.armedB then !gives 1 else s.work.lines[(1 : LineIx)].enabled && rests 1)
      ∧ t.tamper.armedEnclosure = (if s.tamper.armedEnclosure then !(gives 2 || gives 3)
          else (s.work.lines[(2 : LineIx)].enabled || s.work.lines[(3 : LineIx)].enabled)
            && rests 2 && rests 3)
      ∧ t.tamper.changePending = s.tamper.changePending)
  ∧ ∀ (s : State) (levels : BitVec 4), s.startUp = ⟨true, false, .sampling⟩ → s.work.inProgress = none →
    s.response.triggers = [] → s.response.running = none → s.response.answerDue = false →
    s.reverting = false → s.erases = [] → s.work.scrubList = [] → s.nextGrant = .nothing →
    s.store.queue = [] → (∀ r : RegionIx, s.keys[r].loaded = none) →
    let away (n : LineIx) : Bool :=
      s.work.lines[n].enabled && levels.getLsbD n.val != s.work.lines[n].idle
    (∀ n : LineIx, away n = true → (s.entryOf (groupSource (groupOf n))).level = .none) →
    ∃ t, exec (.sampleTick levels) s = .next (s.offered.foldl (fun u i => u.takeRequest i) t)
      ∧ t = { s with
          sent := [], offered := [], startUp := ⟨true, true, .running⟩, tamper := t.tamper, alerts := t.alerts
          response := { s.response with released := true }, regions := t.regions, keys := t.keys
          window := { s.window with state := if s.work.window.enabled then .shown else .off }
          credentials := t.credentials
          revertBackoff := if s.work.revertCounter = 0 then 0
            else min (2 ^ (s.work.revertCounter - 1)) 64
          holdup := { s.holdup with
            converting := s.holdup.converting || s.work.holdup.gate == .continuous } }
      ∧ (∀ n : LineIx, t.tamper.lines[n] =
          ⟨s.tamper.lines[n].latched || away n, levels.getLsbD n.val, 1⟩)
      ∧ (∀ g : Group, t.tamper.armed g = true ↔
          (∃ n : LineIx, groupOf n = g ∧ s.work.lines[n].enabled = true)
          ∧ ∀ n : LineIx, groupOf n = g → away n = false)
      ∧ t.tamper.changePending = s.tamper.changePending
      ∧ ((∀ n : LineIx, away n = false) → t.alerts = s.alerts)
      ∧ (∀ g : Group, (∃ n : LineIx, groupOf n = g ∧ away n = true) →
          (∀ n : LineIx, away n = true → groupOf n = g) →
          t.alerts = s.alerts.arrive ⟨.tamper, (s.entryOf (groupSource g)).severity,
            some (groupSource g), none,
            some ((([0, 1, 2, 3] : List LineIx).filter away |>.map fun n => 2 ^ n.val).sum + 2 ^ 31),
            s.time.stamp, 0⟩)
      ∧ (∀ (r : RegionIx) (k : RightKind), t.regions[r].right k = .opened ↔
          s.work.mode ≠ .lockdown ∧ s.work.regions[r].enabled = true
          ∧ s.work.regions[r].condition = .normal ∧ s.regions[r].eraseHold = false
          ∧ (match k with
            | .read => s.work.regions[r].powerOnRead
            | .write => s.work.regions[r].powerOnWrite) = .opened
          ∧ s.MaterialLoads r)
      ∧ (∀ r : RegionIx, t.regions[r].eraseHold = s.regions[r].eraseHold
          ∧ t.regions[r].admitted = s.regions[r].admitted
          ∧ t.keys[r].highestDrawn = s.keys[r].highestDrawn
          ∧ (t.keys[r].loaded.isSome = true ↔
            t.regions[r].read = .opened ∨ t.regions[r].write = .opened))
      ∧ ∀ c : CredIx, t.credentials[c] = { s.credentials[c] with
          backoff := if s.work.credentials[c].counter = 0 then 0
            else min (2 ^ (s.work.credentials[c].counter - 1)) 64 }

/-- An event of an ARMED group: the flags of the lines named are set, the group rests, the trigger of its
source is handed and a TAMPER alert queued (R119). A RESTING group that stands wholly at rest arms
(R118).
That these commands are the group's step taken alone on the latest sample is the model's choice (notes/assumptions/4.md). -/
def Obligations.TamperGroupEvents : Prop :=
  ∀ (s : State) (g : Group),
    (s.Still → s.responseFree = false → s.tamper.armed g = true → s.eventLines g ≠ [] →
      ∃ t, exec (.tamperEvent g) s = .next t
        ∧ t = { s with tamper := t.tamper, response := t.response, alerts := t.alerts, sent := [] }
        ∧ t.tamper.armed g = false ∧ (∀ g' ≠ g, t.tamper.armed g' = s.tamper.armed g')
        ∧ (∀ n : LineIx, t.tamper.lines[n] = { s.tamper.lines[n] with
            latched := s.tamper.lines[n].latched || (s.eventLines g).contains n })
        ∧ t.response = { s.response with triggers := (enterTrigger (groupSource g)
            (s.entryOf (groupSource g)).level (s.entryOf (groupSource g)).severity 0
            s.response.triggers) }
        ∧ t.alerts = s.alerts.arrive ⟨.tamper, (s.entryOf (groupSource g)).severity,
            some (groupSource g), none, some (lineMask (s.eventLines g)), s.time.stamp, 0⟩)
    ∧ (s.tamper.armed g = false → s.atRest g = true →
      ∃ t, exec (.groupRearm g) s = .next t ∧ t = { s with tamper := t.tamper, sent := [] }
        ∧ t.tamper.armed g = true ∧ (∀ g' ≠ g, t.tamper.armed g' = s.tamper.armed g')
        ∧ t.tamper.lines = s.tamper.lines ∧ t.tamper.changePending = s.tamper.changePending)

/-- The time sources: AWAITING becomes SLOW when the crystal is seen running; the two faults enter FAULTED,
hand TIME-FAULT and queue its alert with value 1 or 2, a stopped crystal giving one second tick first; a
source that is SLOW or FAULTED meets no never-started fault, one that is not SLOW no stopped one, and FAULTED stays
(R124, R126). Before step 2 the first of the two events is remembered, and the source is left as it is: step 2 acts
on it (StoreReadCharges).
That the first of the two is remembered before step 2 and counts is the model's reading (notes/assumptions/38.md). -/
def Obligations.TimeSourceEvents : Prop :=
  (∀ s : State, s.startUp.phase = .reading →
    (s.time.early = .nothing →
      exec .slowSourceRunning s = .next { s with sent := [], time := { s.time with early := .running } })
    ∧ (s.time.early ≠ .nothing → exec .slowSourceRunning s = .next { s with sent := [] })
    ∧ (s.Still →
      (s.time.early = .nothing →
        exec .timeFaultNeverStarted s = .next { s with sent := [], time := { s.time with early := .late } })
      ∧ (s.time.early ≠ .nothing → exec .timeFaultNeverStarted s = .next { s with sent := [] })
      ∧ exec .timeFaultStopped s = .next { s with sent := [] }))
  ∧ ∀ s : State, s.ticking = true →
    (s.time.source = .awaiting →
      exec .slowSourceRunning s = .next { s with sent := [], time := { s.time with source := .slow } })
    ∧ (s.time.source ≠ .awaiting → exec .slowSourceRunning s = .next { s with sent := [] })
    ∧ (s.Still → s.time.source ≠ .awaiting → exec .timeFaultNeverStarted s = .next { s with sent := [] })
    ∧ (s.Still → s.time.source ≠ .slow → exec .timeFaultStopped s = .next { s with sent := [] })
    ∧ (s.Still → s.responseFree = false →
      let e := s.entryOf srcTimeFault
      let faulted (stamp value : Nat) (u : State) : Prop :=
        u.time = { s.time with source := .faulted, stamp := stamp }
        ∧ u.response = { s.response with triggers :=
            (enterTrigger srcTimeFault e.level e.severity 0 s.response.triggers) }
        ∧ u.alerts = s.alerts.arrive
            ⟨.timeFault, e.severity, some srcTimeFault, none, some value, stamp, 0⟩
      (s.time.source = .awaiting →
        ∃ t, exec .timeFaultNeverStarted s = .next t ∧ faulted s.time.stamp 1 t
          ∧ t = { s with time := t.time, response := t.response, alerts := t.alerts, sent := [] })
      ∧ (s.time.source = .slow → s.deadlines.seconds < 59 →
        (∀ (i : SlotIx) (x : SlotRecord), s.port.slots[i] = some x → 1 < x.seconds) →
        ∃ t, exec .timeFaultStopped s = .next t ∧ faulted (min 4294967295 (s.time.stamp + 1)) 2 t
          ∧ t.deadlines = { s.deadlines with seconds := s.deadlines.seconds + 1 }
          ∧ t.stored = s.stored ∧ t.work = s.work ∧ t.regions = s.regions ∧ t.keys = s.keys))

/-! ### Random source and derivation -/

/-- The random source: READY once its sample is gathered; a draw that ends hands its bits on, the salt of
an abandoned SET-SECRET being discarded, new key material being wrapped under the root key for the
enabling that asked for it (R48, R49, R93, R94). Key material that no crypto-erase awaits is discarded.
How a wrapping is represented, that a draw cannot end in RUNNING-UP, and that a salt is the low 128 of the 512
bits of a draw's operand are the model's choices (notes/assumptions/9.md, 6.md, 14.md), as is what becomes of the
draw of a crypto-erase that has ended (notes/assumptions/34.md). -/
def Obligations.DrawsEnd : Prop :=
  ∀ (s : State) (bits : BitVec 512),
    exec .randomSourceReady s = .next { s with sent := [], random := { s.random with ready := true } }
    ∧ (s.random.ready = false → exec (.randomDrawEnd bits) s = .next { s with sent := [] })
    ∧ (s.Still → s.offered = [] → s.random.ready = true → s.random.waiting = [] →
      (∀ (q : SecretRequest) (rest : List Draw), s.random.queue = .salt q :: rest →
        exec (.randomDrawEnd bits) s = .next { s with
          sent := []
          random := { s.random with queue := rest }
          derivation := if s.management.current = some q.id then
              some ⟨bits.extractLsb' 0 128, q.cost, q.secret, .secret q⟩ else s.derivation })
      ∧ (∀ (r : RegionIx) (g : Nat) (rest : List Draw) (d : DefineRequest),
        s.random.queue = .key r g .enabling :: rest → s.define = some d →
        s.work.keys[r].generation < g → s.holds .management = false →
        ∃ t, exec (.randomDrawEnd bits) s = .next t
          ∧ State.Submitted { s with
              sent := []
              random := { s.random with queue := rest }
              work := { s.work with keys :=
                (s.work.keys.set r ⟨g, some ⟨bits, s.fuses.rootKey⟩⟩) } } t (.regionDefinition d))
      ∧ ∀ (r : RegionIx) (g : Nat) (p : Party) (rest : List Draw),
        s.random.queue = .key r g (.erase p) :: rest →
        (∀ e ∈ s.erases, e.region = r → e.party = p → e.stage ≠ .destroyed g) →
        exec (.randomDrawEnd bits) s = .next { s with
          sent := [], random := { s.random with queue := rest } })

/-- The end of a PRESENT's derivation: a digest equal to the verifier is followed by the refund, also on the last
attempt; another sets the back-off to min(2^(a−1), 64) s and is answered BAD-SECRET with the attempts left, the charge
standing, and at the limit raises the ATTEMPTS trigger of ADMIN-ATTEMPTS or USER-ATTEMPTS with its alert (R84,
R85, R92). The digest of a SET-SECRET goes into its secret unit, and its secret is overwritten (R81, R93). Two
secrets have one digest only if they are the same (R81).
The digest is otherwise an uninterpreted function of salt, cost and secret by the model's choice
(notes/assumptions/10.md); that no attempts are left where the limit has been lowered below the charged counter is
its reading (43.md). -/
def Obligations.DerivationCompared : Prop :=
  (∀ (s : State) (d : Derivation) (p : PresentRequest) (a : Nat) (v : Verifier),
    s.Still → s.derivation = some d → d.use = .present p a →
    s.work.credentials[p.credential].secret = some v →
    (Config.derive d.salt d.cost d.secret = v.digest → s.holds .credential = false →
      ∃ t, exec .derivationEnd s = .next t
        ∧ State.Submitted { s with sent := [], derivation := none } t (.refund p))
    ∧ (Config.derive d.salt d.cost d.secret ≠ v.digest → 0 < a →
      a ≠ s.work.credentials[p.credential].limit → s.management.current = some p.id →
      exec .derivationEnd s = .next { s with
        sent := [], derivation := none
        credentials := s.credentials.set p.credential
          { s.credentials[p.credential] with backoff := min (2 ^ (a - 1)) 64 }
        management := { s.management with
          slot := .replyReady, current := none
          buffer := some ⟨0x02, .badSecret,
            [BitVec.ofNat 8 (s.work.credentials[p.credential].limit - a)]⟩ } }))
  ∧ (∀ (salt : BitVec 128) (cost : Nat) (a b : List Byte),
      Config.derive salt cost a = Config.derive salt cost b ↔ a = b)
  ∧ (∀ (s : State) (d : Derivation) (p : PresentRequest) (a : Nat) (v : Verifier),
    s.Still → s.responseFree = false → s.derivation = some d → d.use = .present p a →
    s.work.credentials[p.credential].secret = some v → 0 < a →
    a = s.work.credentials[p.credential].limit → s.management.current = some p.id →
    Config.derive d.salt d.cost d.secret ≠ v.digest →
    let n : SourceIx := if p.credential = 0 then 1 else 2
    let e := s.entryOf n
    exec .derivationEnd s = .next { s with
      sent := [], derivation := none
      credentials := s.credentials.set p.credential
        { s.credentials[p.credential] with backoff := min (2 ^ (a - 1)) 64 }
      response := { s.response with
        triggers := enterTrigger n e.level e.severity 0 s.response.triggers }
      alerts := s.alerts.arrive
        ⟨.attempts, e.severity, some n, none, some p.credential.val, s.time.stamp, 0⟩
      management := s.replied 0x02 .badSecret [0] })
  ∧ ∀ (s : State) (d : Derivation) (q : SecretRequest), s.Still → s.derivation = some d →
    d.use = .secret q → s.holds .management = false →
    ∃ t, exec .derivationEnd s = .next t
      ∧ State.Submitted { s with sent := [], derivation := none } t (.secret { q with secret := [] }
          ⟨d.salt, Config.derive d.salt d.cost d.secret, d.cost⟩)

/-! ### Secure store and hold-up monitor -/

/-- A conversion end that no head waits for: the latest code takes the result, the episode follows it, a
new low episode queues HOLDUP-LOW, and only CONTINUOUS starts the next (R168, R169).
The voltage in nanovolts is the command's operand by the model's choice (notes/assumptions/14.md). -/
def Obligations.ConversionRecorded : Prop :=
  ∀ (s : State) (nanovolts : BitVec 32), s.holdup.converting = true → s.store.headWaiting = false →
    s.startUp.powerGood = true →
    let code := min 255 ((512 * nanovolts.toNat + 3300000000) / 6600000000)
    let low := decide (code < s.work.holdup.threshold)
    exec (.conversionEnd nanovolts) s = .next { s with
      sent := []
      holdup := { s.holdup with
        latestCode := code, episodeLow := low, converting := s.gateMode == .continuous }
      alerts := if low = true ∧ s.holdup.episodeLow = false then
          s.alerts.arrive ⟨.holdupLow, .high, none, none, some code, s.time.stamp, 0⟩
        else s.alerts }

/-- A conversion end with a head waiting: a code at or above the threshold passes the head, whose write
starts with the contents of that moment (State.image of the unit, for every unit); a lower one raises the low
count and another conversion runs for it, up to the eighth. Under gate mode OFF the head's write starts
without a conversion, with its contents of that moment too (R167, R169). What the units write (R165): a charge the
counter one above its working value, a refund the counter, P and Np at 0, with mode ARMED for credential 0 (R83,
R85); a secret unit the new verifier, counter 0, and the limit and grants kept, or the factory ones of a new
credential, with mode ARMED for a SET-SECRET of FACTORY written in FACTORY (R93); REMOVE a factory user, GRANT the list with the entry
inserted, replaced or removed, SET-LIMIT limit and counter, RESET-ATTEMPTS counter 0 (R95 to R98); a ratchet unit
the unions (R44); response-begin the running record and the mode, response-end no record and the last response,
a count reset its count 0 (R139, R143, R147); the charges of REVERT and of the deadlines their counters (R130,
R162); each configuration unit its setting (R74, R75, R110, R112, R114, R121, R132, R134, R171). (The other
units: KeyDestroyed, WalkStarts, RegionRequests, CredentialUnitsTakeEffect.)
That COMMIT_WRITE_START is the passing of the head taken alone is the model's choice (notes/assumptions/4.md); where
units change one record, what each takes from which copy is too (notes/assumptions/40.md). By the model's reading a
secret unit written after FACTORY has ended carries no mode (notes/assumptions/49.md), a ratchet unit writes SCRUBBING
as SCRUB-QUEUED (13.md), a response-end unit's time stamp is that of the write's start (25.md), and a count reset
keeps the other fields of its record (26.md). -/
def Obligations.GateDecidesHead : Prop :=
  (∀ (s : State) (nanovolts : BitVec 32) (u : CommitUnit) (rest : List CommitUnit),
    s.holdup.converting = true → s.store.headWaiting = true → s.startUp.powerGood = true →
    s.store.queue = u :: rest →
    let code := min 255 ((512 * nanovolts.toNat + 3300000000) / 6600000000)
    (s.work.holdup.threshold ≤ code →
      ∃ t, exec (.conversionEnd nanovolts) s = .next t
        ∧ t = { s with sent := [], store := t.store, holdup := t.holdup }
        ∧ t.store.queue = s.store.queue ∧ t.store.deferred = s.store.deferred
        ∧ t.store.headWaiting = false ∧ t.store.writing.isSome = true
        ∧ t.store.writing = some (s.image u)
        ∧ t.holdup.latestCode = code ∧ t.holdup.lowCount = 0 ∧ t.holdup.episodeLow = false
        ∧ t.holdup.changePending = s.holdup.changePending)
    ∧ (code < s.work.holdup.threshold → s.holdup.lowCount < 7 →
      exec (.conversionEnd nanovolts) s = .next { s with
        sent := []
        holdup := { s.holdup with
          latestCode := code, episodeLow := true, converting := true
          lowCount := s.holdup.lowCount + 1 }
        alerts := if s.holdup.episodeLow = false then
            s.alerts.arrive ⟨.holdupLow, .high, none, none, some code, s.time.stamp, 0⟩
          else s.alerts }))
  ∧ (∀ (s : State) (u : CommitUnit) (rest : List CommitUnit), s.store.queue = u :: rest →
    s.store.writing = none → s.startUp.powerGood = true → s.work.holdup.gate = .off →
    ∃ image, exec .commitWriteStart s = .next { s with
        sent := [], store := { s.store with writing := some image, headWaiting := false } }
      ∧ image = s.image u
      ∧ (∀ id v, u = .scrubShare id v → image = { s.stored with scrubShare := v })
      ∧ (∀ (p : PresentRequest) (secret : List Byte), u = .charge p secret →
        s.work.credentials[p.credential].counter < s.work.credentials[p.credential].limit →
        image = { s.stored with credentials :=
          (s.stored.credentials.set p.credential { s.work.credentials[p.credential] with
            counter := s.work.credentials[p.credential].counter + 1 }) })
      ∧ (∀ p : PresentRequest, u = .refund p → image = { s.stored with
          credentials := (s.stored.credentials.set p.credential
            { s.work.credentials[p.credential] with counter := 0 })
          deadlines := { s.stored.deadlines with p := 0, np := 0 }
          mode := if p.credential = 0 then .armed else s.stored.mode }))
  ∧ (∀ (s : State) (id : Nat) (c : CredIx),
    let x := s.work.credentials[c]
    let with_ (y : CredentialRecord) : Records :=
      { s.stored with credentials := s.stored.credentials.set c y }
    (∀ (q : SecretRequest) (v : Verifier), q.credential = c → s.image (.secret q v) =
      { with_ (if x.secret.isSome then ⟨some v, 0, x.limit, x.grants⟩
          else ⟨some v, 0, if c = 0 then 10 else 5, []⟩) with
        mode := if q.arms = true ∧ s.work.mode = .factory then .armed else s.stored.mode })
    ∧ s.image (.remove id c) = with_ ⟨none, 0, 5, []⟩
    ∧ (∀ (r : RegionIx) (g : GrantRights), ∃ grants, s.image (.grant id c r g) = with_ { x with grants := grants }
      ∧ (∀ y : GrantEntry, y ∈ grants ↔ y.region ≠ r ∧ y ∈ x.grants ∨ g ≠ .none ∧ y = ⟨r, g⟩)
      ∧ (x.grants.Pairwise (fun a b => a.region < b.region) →
        grants.Pairwise fun a b => a.region < b.region))
    ∧ (∀ l : Nat, s.image (.limit id c l) = with_ { x with limit := l, counter := min x.counter l })
    ∧ s.image (.resetAttempts id c) = with_ { x with counter := 0 }
    ∧ ∀ (scrub : Bool) (code : List Byte), s.image (.revertCharge id scrub code) =
      { s.stored with revertCounter := min 99 (s.work.revertCounter + 1) })
  ∧ (∀ (s : State) (id : Nat) (mask : BitVec 16) (rs : RegionRatchets) (ds : DeviceRatchets),
    ∃ image, s.image (.ratchet id mask rs ds) = image
      ∧ image = { s.stored with
          regions := image.regions
          deviceRatchets :=
            ⟨s.work.deviceRatchets.fixedResponses || ds.fixedResponses,
              s.work.deviceRatchets.fixedTamper || ds.fixedTamper,
              s.work.deviceRatchets.fixedDeadlines || ds.fixedDeadlines⟩ }
      ∧ ∀ r : RegionIx, image.regions[r] = if mask.getLsbD r.val = true then
          let x := s.work.regions[r]
          { x with
            condition := if x.condition = .scrubbing then .scrubQueued else x.condition
            ratchets := ⟨x.ratchets.fixedBounds || rs.fixedBounds, x.ratchets.fixedGrants || rs.fixedGrants,
              x.ratchets.fixedFlags || rs.fixedFlags, x.ratchets.theftWipe || rs.theftWipe⟩ }
        else s.stored.regions[r])
  ∧ (∀ s : State,
    (∀ R : RunningResponse, s.response.running = some R →
      s.image .responseBegin = { s.stored with
        inProgress := some ⟨R.sources, R.level, R.mask, R.erased, R.relockDone⟩, mode := s.work.mode }
      ∧ s.image .responseEnd = { s.stored with
        inProgress := none
        lastResponse := ⟨R.sources, R.level, R.erased, s.time.stamp, min 255 (s.response.count + 1)⟩ })
    ∧ s.image .countReset = { s.stored with lastResponse := { s.stored.lastResponse with count := 0 } }
    ∧ s.image .deadlineCharge = { s.stored with deadlines :=
        { s.stored.deadlines with p := s.work.deadlines.p, np := s.work.deadlines.np } })
  ∧ ∀ (s : State) (id : Nat),
    (∀ (n : SourceIx) (e : ResponseEntry), n ≠ 0 → ∃ image, s.image (.setResponse id n e) = image
      ∧ image = { s.stored with responseTable := image.responseTable }
      ∧ ∀ k : Fin 8, image.responseTable[k] = if k.val + 1 = n.val then e else s.stored.responseTable[k])
    ∧ (∀ (n : LineIx) (x : LineConfig),
      s.image (.setTamper id n x) = { s.stored with lines := s.stored.lines.set n x })
    ∧ (∀ dp dn q : Nat, s.image (.setDeadline id dp dn q) = { s.stored with
        deadlines := { s.stored.deadlines with dp := dp, dn := dn, q := q } })
    ∧ (∀ x, s.image (.setHoldup id x) = { s.stored with holdup := x })
    ∧ (∀ w : Nat, s.image (.setWindow id true w) = { s.stored with
          window := ⟨true, w, min s.stored.window.l w⟩ }
        ∧ s.image (.setWindow id false w) = { s.stored with
          window := { s.stored.window with
            enabled := false, l := min s.stored.window.l s.stored.window.w } })
    ∧ (∀ l : Nat, s.image (.imageLength id l) = { s.stored with window := { s.stored.window with l := l } })
    ∧ (∀ text, s.image (.label id text) = { s.stored with label := text })
    ∧ (∀ v : Nat, s.image (.scrubShare id v) = { s.stored with scrubShare := v }
        ∧ s.image (.mediaTimeout id v) = { s.stored with mediaTimeout := v })

/-- The eighth low code answers the head unsafe: it leaves the queue, STORE-UNSAFE is queued with its
number, the store is untouched, and a management request behind it is answered STORE-UNSAFE with its
change not applied (R165, R169): a credential's, a ratchet's, REVERT's charge (R162), the scrub share's and the
media timeout's; a setting with a change-pending indication is unchanged and the indication ends (R110, R112,
R114, R122, R132, R134, R171). A deadline charge is answered to the time base alone, which may ask again (R130).
A unit of the running response is resubmitted in that event, behind a count reset that is due; an unsafe count
reset is dropped (R139, R141, R143, R147).
(Region-definition, scrub and revert units: RegionRequests, WalkStarts, CredentialUnitsTakeEffect.) -/
def Obligations.EighthLowCodeUnsafe : Prop :=
  (∀ (s : State) (nanovolts : BitVec 32) (u : CommitUnit) (kind : Byte) (id number : Nat),
    s.Calm → s.holdup.converting = true → s.store.headWaiting = true → s.startUp.powerGood = true →
    s.store.queue = [u] → s.store.deferred = [] → s.holdup.lowCount = 7 → s.holdup.episodeLow = true →
    min 255 ((512 * nanovolts.toNat + 3300000000) / 6600000000) < s.work.holdup.threshold →
    s.management.current = some id →
    ((∃ p secret, u = .charge p secret ∧ p.id = id ∧ kind = 0x02 ∧ number = 1)
      ∨ (∃ p, u = .refund p ∧ p.id = id ∧ kind = 0x02 ∧ number = 2)
      ∨ (∃ q v, u = .secret q v ∧ q.id = id ∧ kind = 0x04 ∧ number = 3)
      ∨ (∃ c, u = .remove id c ∧ kind = 0x05 ∧ number = 5)
      ∨ (∃ c r g, u = .grant id c r g ∧ kind = 0x06 ∧ number = 5)
      ∨ (∃ c l, u = .limit id c l ∧ kind = 0x07 ∧ number = 5)
      ∨ (∃ c, u = .resetAttempts id c ∧ kind = 0x08 ∧ number = 5)
      ∨ (∃ m rs ds, u = .ratchet id m rs ds ∧ kind = 0x0A ∧ number = 6)
      ∨ (∃ v, u = .scrubShare id v ∧ kind = 0x11 ∧ number = 13)
      ∨ (∃ v, u = .mediaTimeout id v ∧ kind = 0x12 ∧ number = 13)
      ∨ (∃ scrub code, u = .revertCharge id scrub code ∧ kind = 0x19 ∧ number = 1)) →
    ∃ t, exec (.conversionEnd nanovolts) s = .next t
      ∧ t = { s with
          sent := [], store := ⟨[], none, false, []⟩, holdup := t.holdup, alerts := t.alerts
          management := { s.management with
            slot := .replyReady, current := none, buffer := some ⟨kind, .storeUnsafe, []⟩ } }
      ∧ t.holdup.lowCount = 0
      ∧ t.alerts = s.alerts.arrive ⟨.storeUnsafe, .high, none, none, some number, s.time.stamp, 0⟩)
  ∧ (∀ (s : State) (nanovolts : BitVec 32) (u : CommitUnit) (id : Nat), s.Calm →
    s.MeetsEighthLow u nanovolts → s.management.current = some id →
    let t (kind : Byte) (holdup : HoldupMonitor) : State := { s with
      sent := [], store := emptyStore
      holdup := { holdup with lowCount := 0 }
      alerts := s.alerts.arrive ⟨.storeUnsafe, .high, none, none, some 13, s.time.stamp, 0⟩
      management := s.replied kind .storeUnsafe [] }
    ∃ holdup : HoldupMonitor, holdup.changePending = s.holdup.changePending
      ∧ (∀ n e, u = .setResponse id n e → exec (.conversionEnd nanovolts) s = .next { t 0x0B holdup with
          response := { s.response with changePending := false } })
      ∧ (∀ n x, u = .setTamper id n x → exec (.conversionEnd nanovolts) s = .next { t 0x0D holdup with
          tamper := { s.tamper with changePending := false } })
      ∧ (∀ dp dn q, u = .setDeadline id dp dn q → exec (.conversionEnd nanovolts) s = .next
          { t 0x0F holdup with deadlines := { s.deadlines with changePending := false } })
      ∧ (∀ x, u = .setHoldup id x → exec (.conversionEnd nanovolts) s = .next
          (t 0x10 { holdup with changePending := false }))
      ∧ (∀ enable w, u = .setWindow id enable w → exec (.conversionEnd nanovolts) s = .next
          { t 0x13 holdup with window := { s.window with changePending := false } })
      ∧ (∀ l, u = .imageLength id l → exec (.conversionEnd nanovolts) s = .next
          { t 0x15 holdup with window := { s.window with changePending := false } })
      ∧ (∀ text, u = .label id text → exec (.conversionEnd nanovolts) s = .next
          { t 0x16 holdup with window := { s.window with changePending := false } })
      ∧ (u = .deadlineCharge → exec (.conversionEnd nanovolts) s = .next { t 0 holdup with
          deadlines := { s.deadlines with chargeHeld := false }, management := s.management
          alerts := s.alerts.arrive ⟨.storeUnsafe, .high, none, none, some 12, s.time.stamp, 0⟩ }))
  ∧ ∀ (s : State) (nanovolts : BitVec 32) (u : CommitUnit) (number : Nat), s.Still →
    s.MeetsEighthLow u nanovolts → s.response.running.isSome = true →
    (u = .responseBegin ∧ number = 7
      ∨ (∃ r scrub, u = .keyDestruction r ∧ s.erases = [⟨r, .response, scrub, .committing⟩] ∧ number = 8)
      ∨ (u = .responseEnd ∨ u = .countReset) ∧ number = 9) →
    let again := if u = .countReset then [] else [u]
    ∃ t, exec (.conversionEnd nanovolts) s = .next t
      ∧ t = { s with
          sent := [], store := t.store, holdup := t.holdup
          response := { s.response with countResetDue := false }
          alerts := s.alerts.arrive ⟨.storeUnsafe, .high, none, none, some number, s.time.stamp, 0⟩ }
      ∧ (s.response.countResetDue = false → t.store.queue = again ∧ t.store.deferred = [])
      ∧ (s.response.countResetDue = true → t.store.queue = [.countReset] ∧ t.store.deferred = again)

/-- A unit that waits inside its requester enters the queue at the tail once the requester holds none
(R166), and none before. The charge of a PRESENT meets the checks of the limit and of the back-off again as it
enters: it is submitted, or answered EXHAUSTED or BACKING-OFF with nothing submitted; so too in the event in which
the unit ahead of it is answered (R83).
That the command is this step taken alone is the model's choice (notes/assumptions/4.md). So are that the waiting
charge of a PRESENT no longer the current request is submitted all the same (third part; notes/assumptions/42.md), and
that the waiting unit is judged after the requester's own reaction to the answer (last part; 21.md). -/
def Obligations.DeferredUnitEnters : Prop :=
  (∀ (s : State) (u : CommitUnit) (rest : List CommitUnit), s.Still → s.holds u.requester = false →
    s.store.deferred = u :: rest → (∀ p secret, u ≠ .charge p secret) →
    ∃ t, exec (.deferredUnitSubmit u.requester) s = .next t
      ∧ State.Submitted { s with sent := [], store := { s.store with deferred := rest } } t u)
  ∧ (∀ (s : State) (q : Requester), s.Still → s.holds q = true →
    exec (.deferredUnitSubmit q) s = .next { s with sent := [] })
  ∧ (∀ (s : State) (p : PresentRequest) (secret : List Byte) (rest : List CommitUnit), s.Still →
    s.holds .credential = false → s.store.deferred = .charge p secret :: rest →
    let x := s.work.credentials[p.credential]
    let backoff := s.credentials[p.credential].backoff
    let seconds : List Byte := [BitVec.ofNat 8 backoff, BitVec.ofNat 8 (backoff / 256)]
    let entered : State := { s with sent := [], store := { s.store with deferred := rest } }
    let request := exec (.deferredUnitSubmit .credential) s
    (x.counter ≠ x.limit → backoff = 0 → ∃ t, request = .next t
      ∧ State.Submitted entered t (.charge p secret))
    ∧ (s.management.current = some p.id → (∀ u ∈ rest, u.requester ≠ .credential) →
      (x.counter = x.limit →
        request = .next { entered with management := s.replied 0x02 .exhausted [0] })
      ∧ (x.counter ≠ x.limit → 0 < backoff →
        request = .next { entered with management := s.replied 0x02 .backingOff seconds })))
  ∧ ∀ (s : State) (ahead p : PresentRequest) (first secret : List Byte) (image : Records), s.Calm →
    s.store.queue = [.charge ahead first] → s.store.deferred = [.charge p secret] →
    s.store.writing = some image → s.management.current = some p.id → ahead.id ≠ p.id →
    let c := ahead.credential
    let a := image.credentials[c].counter
    0 < a → a < image.credentials[c].limit →
    let backoffs := s.credentials.set c { s.credentials[c] with backoff := min (2 ^ (a - 1)) 64 }
    let after : State := { s with
      sent := [], stored := image, store := emptyStore, credentials := backoffs
      work := { s.work with credentials := s.work.credentials.set c image.credentials[c] } }
    let x := after.work.credentials[p.credential]
    let backoff := backoffs[p.credential].backoff
    let seconds : List Byte := [BitVec.ofNat 8 backoff, BitVec.ofNat 8 (backoff / 256)]
    (x.counter = x.limit → exec .commitWriteEnd s = .next { after with
      management := s.replied 0x02 .exhausted [0] })
    ∧ (x.counter ≠ x.limit → 0 < backoff → exec .commitWriteEnd s = .next { after with
      management := s.replied 0x02 .backingOff seconds })
    ∧ (x.counter ≠ x.limit → backoff = 0 → ∃ t, exec .commitWriteEnd s = .next t
      ∧ t = { after with store := t.store, holdup := t.holdup }
      ∧ t.store.queue = [.charge p secret] ∧ t.store.deferred = [])

/-- The units of a PRESENT answered done: the charge gives the store and the working counter the charged
value and begins the derivation with the stored salt and cost; where a link reset has detached the PRESENT no
derivation begins, the back-off is set, and at the limit the ATTEMPTS trigger and alert are raised (R87, R92); a
user's refund in LOCKDOWN stands, is answered LOCKDOWN, and changes no right, flag or window (R83 to R86).
Any other refund done opens: the flag is
set; exactly the rights that the masks name, that a user's grant list holds (R78), whose region is enabled,
NORMAL and without erase hold (R29) and whose key is loaded or can be (R28, R53) become OPEN; a SHOWN window is
retired if asked; credential 0 brings LOCKDOWN back to ARMED, zeroes the count of responses and has the count
reset submitted (R147); the reply is DONE with the masks opened, attempts left and the window state. -/
def Obligations.PresentUnitsDone : Prop :=
  (∀ (s : State) (p : PresentRequest) (secret : List Byte) (image : Records),
    s.Calm → s.store.deferred = [] → s.store.writing = some image → s.management.current = some p.id →
    (∀ v : Verifier, s.store.queue = [.charge p secret] →
      image.credentials[p.credential].secret = some v →
      exec .commitWriteEnd s = .next { s with
        sent := [], stored := image, store := ⟨[], none, false, []⟩
        work := { s.work with credentials :=
          (s.work.credentials.set p.credential image.credentials[p.credential]) }
        derivation := some ⟨v.salt, v.cost, secret,
          .present p image.credentials[p.credential].counter⟩ })
    ∧ (s.store.queue = [.refund p] → p.credential ≠ 0 → s.work.mode = .lockdown →
      exec .commitWriteEnd s = .next { s with
        sent := [], stored := image, store := ⟨[], none, false, []⟩
        work := { s.work with
          credentials := s.work.credentials.set p.credential image.credentials[p.credential]
          deadlines := { s.work.deadlines with p := 0, np := 0 } }
        management := { s.management with
          slot := .replyReady, current := none, buffer := some ⟨0x02, .lockdown, []⟩ } }))
  ∧ (∀ (s : State) (p : PresentRequest) (secret : List Byte) (image : Records), s.Calm →
    s.Writes (.charge p secret) image → s.management.current ≠ some p.id →
    let c := p.credential
    let a := image.credentials[c].counter
    let n : SourceIx := if c = 0 then 1 else 2
    let e := s.entryOf n
    let atLimit := a = image.credentials[c].limit
    0 < a → (atLimit → s.responseFree = true → e.level = .none) →
    exec .commitWriteEnd s = .next { s with
      sent := [], stored := image, store := emptyStore
      work := { s.work with credentials := s.work.credentials.set c image.credentials[c] }
      credentials := s.credentials.set c { s.credentials[c] with backoff := min (2 ^ (a - 1)) 64 }
      response := if atLimit then { s.response with
          triggers := enterTrigger n e.level e.severity 0 s.response.triggers } else s.response
      alerts := if atLimit then s.alerts.arrive
          ⟨.attempts, e.severity, some n, none, some c.val, s.time.stamp, 0⟩ else s.alerts })
  ∧ ∀ (s : State) (p : PresentRequest) (image : Records), s.Calm → s.Writes (.refund p) image →
    s.management.current = some p.id → image.credentials[p.credential].counter = 0 →
    (p.credential = 0 ∨ s.work.mode ≠ .lockdown) →
    let x := image.credentials[p.credential]
    let opens (k : RightKind) (r : RegionIx) : Prop :=
      (match k with
        | .read => p.readMask
        | .write => p.writeMask).getLsbD r.val = true
      ∧ (p.credential = 0 ∨ ∃ g ∈ x.grants, g.region = r ∧ (g.rights = .both
          ∨ g.rights = match k with
            | .read => .read
            | .write => .write))
      ∧ s.work.regions[r].enabled = true ∧ s.work.regions[r].condition = .normal
      ∧ s.regions[r].eraseHold = false
      ∧ (s.regions[r].right k = .opened ∨ s.keys[r].loaded.isSome = true ∨ s.MaterialLoads r)
    let window : BootWindow := if p.retire = true ∧ s.window.state = .shown then
      { s.window with state := .retired } else s.window
    ∃ (t : State) (rm wm : BitVec 16), exec .commitWriteEnd s = .next t
      ∧ t = { s with
          sent := [], stored := image, store := t.store, holdup := t.holdup
          work := { s.work with
            credentials := s.work.credentials.set p.credential x
            deadlines := { s.work.deadlines with p := 0, np := 0 }
            mode := if p.credential = 0 ∧ s.work.mode = .lockdown then .armed else s.work.mode }
          regions := t.regions, keys := t.keys, window := window
          credentials := s.credentials.set p.credential
            { s.credentials[p.credential] with presented := true }
          response := { s.response with
            count := if p.credential = 0 then 0 else s.response.count }
          management := s.replied 0x02 .done (bytes16 rm ++ bytes16 wm
            ++ [BitVec.ofNat 8 x.limit, windowByte window.state]) }
      ∧ (∀ r : RegionIx, (rm.getLsbD r.val = true ↔ opens .read r)
          ∧ (wm.getLsbD r.val = true ↔ opens .write r))
      ∧ (∀ (r : RegionIx) (k : RightKind), t.regions[r].right k = .opened ↔
          s.regions[r].right k = .opened ∨ opens k r)
      ∧ (∀ r : RegionIx, t.regions[r].eraseHold = s.regions[r].eraseHold
          ∧ t.regions[r].admitted = s.regions[r].admitted
          ∧ t.keys[r].highestDrawn = s.keys[r].highestDrawn
          ∧ (t.keys[r].loaded = s.keys[r].loaded
            ∨ s.keys[r].loaded = none ∧ t.keys[r].loaded = s.unwrapped r)
          ∧ ∀ k, s.regions[r].right k = .locked → t.regions[r].right k = .opened →
            t.keys[r].loaded.isSome = true)
      ∧ t.store.queue = (if p.credential = 0 then [.countReset] else []) ∧ t.store.deferred = []
      ∧ (p.credential ≠ 0 → t.store = emptyStore ∧ t.holdup = s.holdup)

/-- Configuration units answered done: each setting takes the value written, its change-pending indication
ends, and the reply is DONE with the values applied; a tamper line starts afresh with its group RESTING,
and new hold-up settings cancel a conversion in flight (R74, R75, R110, R112, R114, R122, R132, R134,
R171). A ratchet unit answered done: each region of the mask and the device take the union, and the reply is DONE
with the resulting set of each region in index order and the device set (R42 to R44).
The body of the SET-TAMPER reply is the model's reading (notes/assumptions/28.md). -/
def Obligations.SettingsTakeEffect : Prop :=
  ∀ (s : State) (u : CommitUnit) (image : Records) (id : Nat), s.Calm → s.store.queue = [u] →
    s.store.deferred = [] → s.store.writing = some image → s.management.current = some id →
    let s' := { s with sent := [], stored := image, store := ⟨[], none, false, []⟩ }
    let reply (kind : Byte) (body : List Byte) : ManagementChannel :=
      { s.management with slot := .replyReady, current := none, buffer := some ⟨kind, .done, body⟩ }
    (∀ v, u = .scrubShare id v → exec .commitWriteEnd s = .next { s' with
        work := { s.work with scrubShare := v }, port := { s.port with acc := 0, credit := 0 }
        management := reply 0x11 [BitVec.ofNat 8 v] })
    ∧ (∀ v, u = .mediaTimeout id v → exec .commitWriteEnd s = .next { s' with
        work := { s.work with mediaTimeout := v }, management := reply 0x12 [BitVec.ofNat 8 v] })
    ∧ (∀ text, u = .label id text → exec .commitWriteEnd s = .next { s' with
        work := { s.work with label := text }, window := { s.window with changePending := false }
        management := reply 0x16 [] })
    ∧ (∀ dp dn q, u = .setDeadline id dp dn q → exec .commitWriteEnd s = .next { s' with
        work := { s.work with deadlines := { s.work.deadlines with dp := dp, dn := dn, q := q } }
        deadlines := { s.deadlines with changePending := false }
        management := reply 0x0F [BitVec.ofNat 8 dp, BitVec.ofNat 8 (dp / 256), BitVec.ofNat 8 dn,
          BitVec.ofNat 8 q] })
    ∧ (∀ (n : SourceIx) e, u = .setResponse id n e → n ≠ 0 → ∃ t, exec .commitWriteEnd s = .next t
        ∧ t = { s' with
            work := { s.work with responseTable := t.work.responseTable }
            response := { s.response with changePending := false }
            management := reply 0x0B [levelByte e.level, severityByte e.severity] }
        ∧ ∀ m : SourceIx, m ≠ 0 → t.entryOf m = if m = n then e else s.entryOf m)
    ∧ (∀ l, u = .imageLength id l → exec .commitWriteEnd s = .next { s' with
        work := { s.work with window := { s.work.window with l := l } }
        window := ⟨if s.window.state = .loading then .retired else s.window.state, false⟩
        management := reply 0x15 (le 4 l ++ [windowByte
          (if s.window.state = .loading then .retired else s.window.state)]) })
    ∧ (∀ enable w, u = .setWindow id enable w →
        let x : WindowSettings := ⟨enable, if enable then w else s.work.window.w,
          min s.work.window.l (if enable then w else s.work.window.w)⟩
        let state := if enable = false then .off
          else if s.work.window.enabled then s.window.state else .retired
        exec .commitWriteEnd s = .next { s' with
          work := { s.work with window := x }, window := ⟨state, false⟩
          management := reply 0x13 (windowByte state :: le 4 x.w ++ le 4 x.l) })
    ∧ (∀ (n : LineIx) x, u = .setTamper id n x → ∃ t, exec .commitWriteEnd s = .next t
        ∧ t = { s' with
            work := { s.work with lines := s.work.lines.set n x }, tamper := t.tamper
            management := reply 0x0D [flagByte x.enabled, polarityByte x.polarity, flagByte x.idle,
              BitVec.ofNat 8 x.debounce] }
        ∧ t.tamper.changePending = false ∧ t.tamper.armed (groupOf n) = false
        ∧ (∀ g ≠ groupOf n, t.tamper.armed g = s.tamper.armed g)
        ∧ ∀ m : LineIx, t.tamper.lines[m] =
          if m = n then ⟨false, s.tamper.lines[n].level, 0⟩ else s.tamper.lines[m])
    ∧ (∀ x, u = .setHoldup id x → exec .commitWriteEnd s = .next { s' with
        work := { s.work with holdup := x }
        holdup := { s.holdup with
          converting := x.gate == .continuous && s.isRunning && s.startUp.powerGood
          lowCount := 0, changePending := false }
        management := reply 0x10 [gateByte x.gate, BitVec.ofNat 8 x.threshold,
          conversionByte x.time] })
    ∧ (∀ (mask : BitVec 16) rs ds, u = .ratchet id mask rs ds → ∃ t, exec .commitWriteEnd s = .next t
        ∧ t = { s' with
            work := { s.work with
              regions := t.work.regions
              deviceRatchets :=
                ⟨s.work.deviceRatchets.fixedResponses || ds.fixedResponses,
                  s.work.deviceRatchets.fixedTamper || ds.fixedTamper,
                  s.work.deviceRatchets.fixedDeadlines || ds.fixedDeadlines⟩ }
            management := reply 0x0A (t.ratchetSets mask) }
        ∧ ∀ r : RegionIx, t.work.regions[r] = if mask.getLsbD r.val = true then
            let x := s.work.regions[r]
            { x with ratchets :=
                ⟨x.ratchets.fixedBounds || rs.fixedBounds, x.ratchets.fixedGrants || rs.fixedGrants,
                  x.ratchets.fixedFlags || rs.fixedFlags, x.ratchets.theftWipe || rs.theftWipe⟩ }
          else s.work.regions[r])

/-- Units that change a credential answered done: the working record is the one written, REMOVE clears the
flag and the back-off, RESET-ATTEMPTS the back-off, a new secret the back-off and, for the first secret of
credential 0, ends FACTORY, and nothing else of the part changes (R79, R94 to R98). The revert charge answered
done: a wrong code sets the revert back-off; the right one locks every right, clears every flag and begins the
crypto-erase of every enabled region (R162, R163). The revert unit writes the factory records with the working
keys; answered done, every working copy is the one written, rights are LOCKED, holds, back-offs, triggers, window
and tamper flags are gone and REVERTED is queued; with the scrub option region 0 is listed and its walk from LBA 0
begins, or is HELD while any chunk issued before is at the media (R153, R157, R163; also where slot 0 is spent and
the chunks have its generation, notes/assumptions/53.md); without it the scrub engine's positions and
walk generation are absent (R153), which are END and 0 by notes/assumptions/39.md; the units of the dropped response
leave the queue, and every other one stays; answered unsafe, the key records are the
stored ones and the holds end (R164).
What the done answer does to a running response and its units, and the bytes of the emptied last-response record,
are the model's choices (notes/assumptions/34.md, 46.md); that a secret unit leaves the mode alone once FACTORY has
ended is its reading (49.md). -/
def Obligations.CredentialUnitsTakeEffect : Prop :=
  (∀ (s : State) (u : CommitUnit) (image : Records) (id : Nat) (c : CredIx), s.Calm →
    s.store.queue = [u] → s.store.deferred = [] → s.store.writing = some image →
    s.management.current = some id →
    let x := image.credentials[c]
    let s' := { s with
      sent := [], stored := image, store := ⟨[], none, false, []⟩
      work := { s.work with credentials := s.work.credentials.set c x } }
    let reply (kind : Byte) (body : List Byte) : ManagementChannel :=
      { s.management with slot := .replyReady, current := none, buffer := some ⟨kind, .done, body⟩ }
    (u = .remove id c → exec .commitWriteEnd s = .next { s' with
        credentials := s.credentials.set c ⟨false, 0⟩, management := reply 0x05 [] })
    ∧ (∀ r g, u = .grant id c r g → exec .commitWriteEnd s = .next { s' with
        management := reply 0x06 (grantBytes x.grants) })
    ∧ (∀ l, u = .limit id c l → exec .commitWriteEnd s = .next { s' with
        management := reply 0x07 [BitVec.ofNat 8 l, BitVec.ofNat 8 (x.limit - x.counter)] })
    ∧ (u = .resetAttempts id c → exec .commitWriteEnd s = .next { s' with
        credentials := s.credentials.set c { s.credentials[c] with backoff := 0 }
        management := reply 0x08 [BitVec.ofNat 8 x.limit] }))
  ∧ (∀ (s : State) (q : SecretRequest) (v : Verifier) (image : Records), s.Calm →
    s.Writes (.secret q v) image → s.management.current = some q.id →
    exec .commitWriteEnd s = .next { s with
      sent := [], stored := image, store := emptyStore
      work := { s.work with
        credentials := s.work.credentials.set q.credential image.credentials[q.credential]
        mode := if q.arms = true ∧ s.work.mode = .factory then .armed else s.work.mode }
      credentials := s.credentials.set q.credential { s.credentials[q.credential] with backoff := 0 }
      management := s.replied 0x04 .done [BitVec.ofNat 8 q.cost] })
  ∧ (∀ (s : State) (id : Nat) (scrub : Bool) (code : List Byte) (image : Records), s.Calm →
    s.Writes (.revertCharge id scrub code) image → s.management.current = some id →
    let backoff := min (2 ^ (image.revertCounter - 1)) 64
    (code ≠ s.fuses.revertCode → exec .commitWriteEnd s = .next { s with
      sent := [], stored := image, store := emptyStore, revertBackoff := backoff
      work := { s.work with revertCounter := image.revertCounter }
      management := s.replied 0x19 .badSecret [BitVec.ofNat 8 backoff, 0] })
    ∧ (code = s.fuses.revertCode → ∃ t, exec .commitWriteEnd s = .next t
      ∧ t.stored = image ∧ t.reverting = true ∧ t.revertRequest = some (id, scrub)
      ∧ t.work.regions = s.work.regions ∧ t.management = s.management
      ∧ (∀ r : RegionIx, t.regions[r] = ⟨.locked, .locked,
          s.regions[r].eraseHold || s.work.regions[r].enabled, s.regions[r].admitted⟩)
      ∧ (∀ c : CredIx, t.credentials[c] = { s.credentials[c] with presented := false })
      ∧ ∀ r : RegionIx, s.work.regions[r].enabled = true →
          ∃ e ∈ t.erases, e.region = r ∧ e.party = .revert ∧ e.scrub = (scrub && r == 0)))
  ∧ (∀ (s : State) (id : Nat),
    s.image (.revert id false) = { State.reset.stored with keys := s.work.keys }
    ∧ s.image (.revert id true) = { State.reset.stored with
        keys := s.work.keys, scrubList := [⟨0, 0⟩]
        regions := State.reset.stored.regions.set 0
          { State.reset.stored.regions[0] with condition := .scrubQueued } })
  ∧ (∀ (s : State) (id : Nat) (scrub : Bool) (image : Records), s.startUp.phase ≠ .resuming →
    s.nextGrant = .nothing → s.Writes (.revert id scrub) image → s.management.current = some id →
    let reverted (t : State) : Prop :=
      t = { s with
          sent := t.sent, stored := image, store := emptyStore, work := t.work
          boundary := boundaryOf image.regions, regions := t.regions, keys := t.keys
          credentials := t.credentials, revertBackoff := 0, window := ⟨.off, false⟩
          tamper := t.tamper, erases := [], reverting := false, revertRequest := none
          response := { s.response with
            triggers := [], running := none, answerDue := false, count := 0, countResetDue := false }
          port := t.port, scrub := t.scrub
          alerts := s.alerts.arrive ⟨.reverted, .high, none, none, none, s.time.stamp, 0⟩
          management := s.replied 0x19 .done [] }
      ∧ (∀ r : RegionIx, t.regions[r] = ⟨.locked, .locked, false, s.regions[r].admitted⟩
          ∧ t.keys[r].highestDrawn = s.keys[r].highestDrawn)
      ∧ (∀ c : CredIx, t.credentials[c] = { s.credentials[c] with backoff := 0 })
      ∧ (∀ n : LineIx, t.tamper.lines[n] = { s.tamper.lines[n] with latched := false })
      ∧ (∀ g : Group, t.tamper.armed g = false)
    let formed := s.scrub.formed.filter fun f => f.place == .atMedia
    (image.scrubList = [] → ∃ t, exec .commitWriteEnd s = .next t ∧ reverted t
      ∧ t.sent = [] ∧ t.work = image ∧ t.port = { s.port with acc := 0, credit := 0 }
      ∧ t.scrub = { s.scrub with
        phase := .idle, walkGeneration := 0, issue := none, checkpoint := 0, formed := formed
        earlier := formed.map FormedChunk.chunk }
      ∧ ∀ r : RegionIx, t.keys[r].loaded = s.keys[r].loaded ∨ t.keys[r].loaded = none)
    ∧ (image.scrubList = [⟨0, 0⟩] → s.startUp.phase = .running → s.define = none →
      ((formed ≠ [] →
        ∃ t, exec .commitWriteEnd s = .next t ∧ reverted t
          ∧ t.sent = [] ∧ t.work = image ∧ t.port = { s.port with acc := 0, credit := 0 }
          ∧ t.scrub = { s.scrub with
            phase := .held, walkGeneration := 0, formed := formed, issue := some 0, checkpoint := 0
            earlier := formed.map FormedChunk.chunk })
      ∧ (formed = [] → 0 < s.geometry.capacity →
        (∀ r : RegionIx, r ≠ 0 → image.regions[r].enabled = false) →
        (∃ m, image.keys[(0 : RegionIx)].material = some m ∧ m.integrity = s.fuses.rootKey) →
        s.keys[(0 : RegionIx)].loaded = none →
        let g := image.keys[(0 : RegionIx)].generation
        ∃ t, exec .commitWriteEnd s = .next t ∧ reverted t
          ∧ t.work = { image with regions :=
              (image.regions.set 0 { image.regions[(0 : RegionIx)] with condition := .scrubbing }) }
          ∧ t.port.acc = 0 ∧ t.port.credit = 0 ∧ t.scrub.phase = .walking
          ∧ t.scrub.walkGeneration = g ∧ t.scrub.checkpoint = 0 ∧ t.keys[(0 : RegionIx)].loaded.isSome = true
          ∧ ∃ f ∈ t.scrub.formed, f.chunk = ⟨0, 0, min 64 s.geometry.capacity, g⟩))))
  ∧ (∀ (s : State) (id : Nat) (scrub : Bool) (image : Records) (rest : List CommitUnit),
    s.startUp.phase ≠ .resuming → s.store.queue = .revert id scrub :: rest → s.store.writing = some image →
    let ofResponse (u : CommitUnit) : Prop := u = .responseBegin ∨ u = .responseEnd ∨ ∃ r, u = .keyDestruction r
    ∃ t, exec .commitWriteEnd s = .next t
      ∧ (∀ u ∈ t.store.queue ++ t.store.deferred, ¬ ofResponse u)
      ∧ (∀ u ∈ rest ++ s.store.deferred, ¬ ofResponse u → u ∈ t.store.queue ++ t.store.deferred)
      ∧ t.response.running = none ∧ t.reverting = false)
  ∧ ∀ (s : State) (id : Nat) (scrub : Bool) (nanovolts : BitVec 32), s.startUp.phase ≠ .resuming →
    s.nextGrant = .nothing → s.work.scrubList = [] → s.response.triggers = [] →
    (∀ e ∈ s.erases, e.party = .revert) → s.MeetsEighthLow (.revert id scrub) nanovolts →
    s.management.current = some id →
    ∃ t, exec (.conversionEnd nanovolts) s = .next t
      ∧ t = { s with
          sent := [], store := emptyStore, holdup := t.holdup, regions := t.regions
          work := { s.work with keys := t.work.keys }, erases := [], reverting := false
          revertRequest := none
          alerts := s.alerts.arrive ⟨.storeUnsafe, .high, none, none, some 14, s.time.stamp, 0⟩
          management := s.replied 0x19 .storeUnsafe [] }
      ∧ ∀ r : RegionIx, ((∃ e ∈ s.erases, e.region = r) → t.work.keys[r] = s.stored.keys[r]
            ∧ t.regions[r] = { s.regions[r] with eraseHold := false })
          ∧ ((∀ e ∈ s.erases, e.region ≠ r) → t.work.keys[r] = s.work.keys[r]
            ∧ t.regions[r] = s.regions[r])

/-! ### Responses, erasure and scrub -/

/-- The destruction step of a response's crypto-erase of a slot that is not spent: the cipher key store
entry is empty, the working material is gone, and a draw of the generation one above highest drawn is
asked for (R46, R49, R50, R150). The bits arrived, the working record takes the generation with the bits wrapped,
and the key destruction unit is submitted; it writes that record, the region record with its condition, the
scrub list entry of an erase with scrub, and the region as erased (R150). Answered done, the erase ends: the
hold is gone, the condition is the one written, rights stay LOCKED, and the region joins the erased set (R141,
R151); with nothing left to erase the response closes. With scrub the region is SCRUB-QUEUED and listed at the
tail; one on the list keeps its place with its cursor at its start; at the head of the list its walk starts from
there without the chunks that had not gone to the media, or is HELD while older ones are there (R150, R154, R157);
that those of a spent slot are older ones too is the model's choice (notes/assumptions/53.md).
Every crypto-erase of a region whose waits have ended comes to its destruction in one event, a revert's and a
response's beside each other (R150; the race is the model's choice, notes/assumptions/34.md). That the walk starts
while the response still runs is its choice too (R140, R154, R155; notes/assumptions/55.md).
That the command is this step taken alone, how a wrapping is represented, and which copy a unit takes the other
fields from, are the model's choices (notes/assumptions/4.md, 9.md, 40.md);
that a condition read as SCRUBBING is not stored is its reading
(notes/assumptions/13.md). -/
def Obligations.KeyDestroyed : Prop :=
  (∀ (s : State) (r : RegionIx) (scrub : Bool), s.ResponseStill → s.startUp.phase ≠ .resuming →
    s.walkDue = false → s.MediaStill → s.StoreStill → s.scrubHead ≠ some r →
    s.erases = [⟨r, .response, scrub, .begun⟩] → s.regions[r].admitted = 0 →
    s.keys[r].highestDrawn ≠ lastGeneration → s.random.queue = [] →
    exec (.keyDestruction r) s = .next { s with
      sent := []
      keys := s.keys.set r ⟨s.keys[r].highestDrawn + 1, none⟩
      work := { s.work with keys := s.work.keys.set r { s.work.keys[r] with material := none } }
      erases := [⟨r, .response, scrub, .destroyed (s.keys[r].highestDrawn + 1)⟩]
      random := { s.random with
        queue := [.key r (s.keys[r].highestDrawn + 1) (.erase .response)] } })
  ∧ (∀ (s : State) (r : RegionIx) (g : Nat) (scrub : Bool) (bits : BitVec 512) (rest : List Draw),
    s.Still → s.offered = [] → s.random.ready = true → s.random.waiting = [] →
    s.random.queue = .key r g (.erase .response) :: rest →
    s.erases = [⟨r, .response, scrub, .destroyed g⟩] → s.work.keys[r].generation < g →
    s.holds .response = false →
    ∃ t, exec (.randomDrawEnd bits) s = .next t
      ∧ State.Submitted { s with
          sent := []
          random := { s.random with queue := rest }
          work := { s.work with keys := s.work.keys.set r ⟨g, some ⟨bits, s.fuses.rootKey⟩⟩ }
          erases := [⟨r, .response, scrub, .committing⟩]
          response := { s.response with answerDue := false } } t (.keyDestruction r))
  ∧ (∀ (s : State) (r : RegionIx) (scrub : Bool), s.erases = [⟨r, .response, scrub, .committing⟩] →
    let start := (s.work.regions[r].extent.map Extent.start).getD 0
    s.image (.keyDestruction r) = { s.stored with
      keys := s.stored.keys.set r s.work.keys[r]
      regions := s.stored.regions.set r { s.work.regions[r] with
        condition := if scrub = true ∨ ∃ e ∈ s.work.scrubList, e.region = r then .scrubQueued else .normal }
      scrubList := if ∃ e ∈ s.stored.scrubList, e.region = r then
          s.stored.scrubList.map fun e => if e.region = r then { e with cursor := start } else e
        else s.stored.scrubList ++ if scrub then [⟨r, start⟩] else []
      inProgress := s.stored.inProgress.map fun p => { p with erased := p.erased ||| bit r.val } })
  ∧ (∀ (s : State) (r : RegionIx) (R : RunningResponse) (image : Records),
    s.startUp.phase ≠ .resuming → s.nextGrant = .nothing → s.work.scrubList = [] →
    s.response.triggers = [] → s.response.countResetDue = false →
    s.erases = [⟨r, .response, false, .committing⟩] → s.response.running = some R →
    R.mask &&& ~~~(R.erased ||| bit r.val) = 0 → s.Writes (.keyDestruction r) image →
    ∃ t, exec .commitWriteEnd s = .next t
      ∧ t = { s with
          sent := [], stored := image, store := t.store, holdup := t.holdup, erases := []
          work := { s.work with
            inProgress := image.inProgress
            regions := s.work.regions.set r { s.work.regions[r] with condition := .normal } }
          regions := s.regions.set r { s.regions[r] with eraseHold := false }
          response := { s.response with running := some { R with
            erased := R.erased ||| bit r.val, current := none, phase := .closing } } }
      ∧ t.store.queue = [.responseEnd] ∧ t.store.deferred = [])
  ∧ (∀ (s : State) (r : RegionIx) (scrub : Bool) (R : RunningResponse) (image : Records),
    s.startUp.phase ≠ .resuming → s.nextGrant = .nothing → s.response.triggers = [] →
    s.response.countResetDue = false → s.erases = [⟨r, .response, scrub, .committing⟩] →
    s.response.running = some R → R.mask &&& ~~~(R.erased ||| bit r.val) = 0 →
    s.Writes (.keyDestruction r) image →
    let start := (s.work.regions[r].extent.map Extent.start).getD 0
    let atMedia := s.scrub.formed.filter fun f => f.place == .atMedia
    let earlier := (atMedia.filter fun f => decide (f.chunk.region = r ∨ f.chunk ∈ s.scrub.earlier)).map
      FormedChunk.chunk
    let list := if ∃ e ∈ s.work.scrubList, e.region = r then
        s.work.scrubList.map fun e => if e.region = r then { e with cursor := start } else e
      else s.work.scrubList ++ [⟨r, start⟩]
    let done (condition : Condition) (t : State) : Prop :=
      t = { s with
          sent := t.sent, stored := image, store := t.store, holdup := t.holdup, erases := []
          keys := t.keys, port := t.port, scrub := t.scrub
          work := { s.work with
            inProgress := image.inProgress, scrubList := list
            regions := s.work.regions.set r { s.work.regions[r] with condition := condition } }
          regions := s.regions.set r { s.regions[r] with eraseHold := false }
          response := { s.response with running := some { R with
            erased := R.erased ||| bit r.val, current := none, phase := .closing } } }
      ∧ t.store.queue = [.responseEnd] ∧ t.store.deferred = []
    (scrub = true ∨ (∃ e ∈ s.work.scrubList, e.region = r) →
      (∀ h : RegionIx, s.scrubHead = some h → h ≠ r → s.scrub.phase = .finishing
        ∨ s.scrub.phase ≠ .walking ∧ s.regions[h].eraseHold = true
        ∨ s.scrub.phase = .walking ∧ s.offer.isSome = true ∧ s.keys[h].loaded.isSome = true) →
      (s.scrubHead = some r ∨ s.work.scrubList = [] → atMedia ≠ []) →
      ∃ t, exec .commitWriteEnd s = .next t ∧ done .scrubQueued t
        ∧ t.sent = [] ∧ t.keys = s.keys ∧ t.port = s.port
        ∧ t.scrub = if s.scrubHead = some r then { s.scrub with
              phase := .held, issue := some start, checkpoint := start, formed := atMedia, earlier := earlier }
            else if s.work.scrubList = [] then { s.scrub with
              phase := .held, issue := some start, checkpoint := start, earlier := earlier }
            else { s.scrub with earlier := earlier })
    ∧ ∀ a b : Nat, (s.work.scrubList = [] ∧ scrub = true ∧ s.scrub.formed = [] ∨ s.scrubHead = some r) →
      atMedia = [] → s.define = none → s.startUp.phase = .running →
      (s.keys[r].loaded.isSome = true ∨ s.MaterialLoads r) → s.nextChunk r start = some (a, b) →
      ∃ t, exec .commitWriteEnd s = .next t ∧ done .scrubbing t
        ∧ t.scrub.phase = .walking ∧ t.scrub.walkGeneration = image.keys[r].generation
        ∧ t.scrub.checkpoint = start ∧ t.keys[r].loaded.isSome = true
        ∧ ∃ f ∈ t.scrub.formed, f.chunk = ⟨r, a, b - a, image.keys[r].generation⟩)
  ∧ ∀ (s : State) (r : RegionIx), s.ResponseStill → s.startUp.phase ≠ .resuming → s.regions[r].admitted = 0 →
    (s.scrub.commitHeld = .finish → s.scrubHead ≠ some r) →
    ∃ t, exec (.keyDestruction r) s = .next t
      ∧ (∀ e ∈ t.erases, e.region = r → e.stage ≠ .begun)
      ∧ ∀ e ∈ s.erases, e.region = r → e.stage = .begun →
        ∃ f ∈ t.erases, f.region = r ∧ f.party = e.party
          ∧ (f.stage = .committing ∨ ∃ g, f.stage = .destroyed g
            ∧ Draw.key r g (.erase e.party) ∈ t.random.queue ++ t.random.waiting)

/-- A free controller takes a pending trigger, a HIGH one before any LOW one and among those of one severity the
one of the lowest source, and leaves the others pending (R136). RESPONSE-BEGUN is queued with the erase set, which is
an order's mask or, for another source at ERASE or SCRUB, the regions with THEFT-WIPE (R137); at ALERT it closes at
once; at RELOCK or above, for a source other than ORDER, every right is LOCKED, every flag clear, the mode LOCKDOWN
(FACTORY stays) and an enabled window SHOWN, before the response-begin unit; an erase order relocks nothing (R105,
R108, R138, R144). That unit answered done is a step boundary: every HIGH trigger above the level is absorbed, with
the relock where it is now due, and recorded anew, while the others stay pending (R142); where there is none, the
lowest region of the mask not yet erased has its rights LOCKED and its erase hold set, the response waiting for its
drain; else the response closes (R139, R140, R149). A response recorded in the store is resumed at step 6, at its
level and mask, without a change of mode (R104, R146).
That RESPONSE_TAKE is this step taken alone is the model's choice (notes/assumptions/4.md). -/
def Obligations.TriggerStartsResponse : Prop :=
  (∀ (s : State) (e : PendingTrigger) (before after : List PendingTrigger), s.responseFree = true →
    s.response.triggers = before ++ e :: after →
    (∀ x ∈ before ++ after, x.source ≠ e.source
      ∧ (e.severity = .high ∧ x.severity = .low ∨ e.severity = x.severity ∧ e.source < x.source)) →
    s.erases = [] → s.startUp.phase = .running → s.work.scrubList = [] → s.nextGrant = .nothing →
    s.StoreStill → s.store.queue ≠ [] → s.holds .response = false →
    let relocks := e.source ≠ srcOrder ∧ Level.relock.rank ≤ e.level.rank
    ∃ (t : State) (mask : BitVec 16), exec .responseTake s = .next t
      ∧ (∀ r : RegionIx, mask.getLsbD r.val = true ↔ if e.source = srcOrder then e.mask.getLsbD r.val = true
          else Level.erase.rank ≤ e.level.rank ∧ s.work.regions[r].ratchets.theftWipe = true)
      ∧ t.response.triggers = before ++ after
      ∧ t.alerts = s.alerts.arrive ⟨.responseBegun, e.severity, some e.source,
          some mask, some (levelByte e.level).toNat, s.time.stamp, e.repeats⟩
      ∧ t.stored = s.stored ∧ t.time = s.time ∧ t.management = s.management ∧ t.transfers = s.transfers
      ∧ t.erases = []
      ∧ (e.level.rank < Level.relock.rank → t.store.queue = s.store.queue ++ [.responseEnd]
          ∧ t.response.running = some ⟨bit e.source.val, e.level, e.severity, false, false, mask, 0, none,
              .closing, e.repeats⟩)
      ∧ (Level.relock.rank ≤ e.level.rank → t.store.queue = s.store.queue ++ [.responseBegin]
          ∧ t.response.running = some ⟨bit e.source.val, e.level, e.severity, decide relocks,
              decide relocks, mask, 0, none, .recording, e.repeats⟩)
      ∧ (¬ relocks → t.regions = s.regions ∧ t.work = s.work ∧ t.window = s.window
          ∧ t.credentials = s.credentials ∧ t.keys = s.keys)
      ∧ (relocks →
          (∀ r : RegionIx, t.regions[r] = { s.regions[r] with read := .locked, write := .locked })
          ∧ (∀ c : CredIx, t.credentials[c] = { s.credentials[c] with presented := false })
          ∧ t.work = { s.work with mode := if s.work.mode = .factory then .factory else .lockdown }
          ∧ t.window = (if s.work.window.enabled then { s.window with state := .shown } else s.window)))
  ∧ (∀ (s : State) (R : RunningResponse) (image : Records), s.startUp.phase ≠ .resuming →
    s.nextGrant = .nothing → s.work.scrubList = [] → s.erases = [] → s.define = none →
    s.response.countResetDue = false → s.response.running = some R → s.Writes .responseBegin image →
    let s' := { s with
      sent := [], stored := image, work := { s.work with inProgress := image.inProgress } }
    let absorbs (e : PendingTrigger) : Bool :=
      e.severity == .high && decide (R.level.rank < e.level.rank)
    let relocks (e : PendingTrigger) : Prop := e.source ≠ srcOrder ∧ Level.relock.rank ≤ e.level.rank
    let adds (e : PendingTrigger) (r : RegionIx) : Prop :=
      if e.source = srcOrder then e.mask.getLsbD r.val = true
      else Level.erase.rank ≤ e.level.rank ∧ s.work.regions[r].ratchets.theftWipe = true
    let absorbed := s.response.triggers.filter absorbs
    (absorbed = [] → (R.level.rank < Level.erase.rank ∨ R.mask &&& ~~~R.erased = 0) →
      ∃ t, exec .commitWriteEnd s = .next t
        ∧ t = { s' with
            store := t.store, holdup := t.holdup
            response := { s.response with running := some { R with phase := .closing } } }
        ∧ t.store.queue = [.responseEnd] ∧ t.store.deferred = [])
    ∧ (∀ q : RegionIx, absorbed = [] → Level.erase.rank ≤ R.level.rank →
      R.mask.getLsbD q.val = true → R.erased.getLsbD q.val = false →
      (∀ p : RegionIx, p < q → R.mask.getLsbD p.val = true → R.erased.getLsbD p.val = true) →
      s.work.regions[q].enabled = true → s.regions[q].admitted ≠ 0 →
      exec .commitWriteEnd s = .next { s' with
        store := emptyStore
        response := { s.response with
          running := some { R with phase := .erasing, current := some q } }
        regions := s.regions.set q ⟨.locked, .locked, true, s.regions[q].admitted⟩
        erases := [⟨q, .response, R.level == .scrub, .begun⟩] })
    ∧ (absorbed ≠ [] →
      let now := (R.relockDue = true ∨ ∃ e ∈ absorbed, relocks e) ∧ R.relockDone = false
      ∃ (t : State) (R' : RunningResponse), exec .commitWriteEnd s = .next t
        ∧ t = { s' with
            store := t.store, holdup := t.holdup, regions := t.regions, keys := t.keys
            credentials := t.credentials, window := t.window
            response := { s.response with
              triggers := s.response.triggers.filter fun e => !absorbs e, running := some R' }
            work := { s'.work with mode := t.work.mode } }
        ∧ t.store.queue = [.responseBegin] ∧ t.store.deferred = []
        ∧ R' = { R with
            sources := R'.sources, level := R'.level, severity := .high, mask := R'.mask
            relockDue := R'.relockDue, relockDone := R'.relockDone, phase := .recording
            repeats := min 255 (R.repeats + (absorbed.map PendingTrigger.repeats).sum) }
        ∧ (∀ n : Nat, R'.sources.getLsbD n = true ↔
            R.sources.getLsbD n = true ∨ ∃ e ∈ absorbed, e.source.val = n)
        ∧ (∃ e ∈ absorbed, R'.level = e.level) ∧ (∀ e ∈ absorbed, e.level.rank ≤ R'.level.rank)
        ∧ (∀ r : RegionIx, R'.mask.getLsbD r.val = true ↔
            R.mask.getLsbD r.val = true ∨ ∃ e ∈ absorbed, adds e r)
        ∧ (R'.relockDue = true ↔ R.relockDue = true ∨ ∃ e ∈ absorbed, relocks e)
        ∧ (R'.relockDone = true ↔ R.relockDone = true ∨ now)
        ∧ (¬ now → t.regions = s.regions ∧ t.keys = s.keys ∧ t.credentials = s.credentials
            ∧ t.window = s.window ∧ t.work.mode = s.work.mode)
        ∧ (now →
            (∀ r : RegionIx, t.regions[r] = { s.regions[r] with read := .locked, write := .locked })
            ∧ (∀ c : CredIx, t.credentials[c] = { s.credentials[c] with presented := false })
            ∧ t.work.mode = (if s.work.mode = .factory then .factory else .lockdown)
            ∧ t.window = (if s.work.window.enabled then { s.window with state := .shown }
                else s.window))))
  ∧ ∀ (s : State) (levels : BitVec 4) (p : InProgress), s.startUp = ⟨true, false, .sampling⟩ →
    s.work.inProgress = some p → s.response.triggers = [] → s.response.running = none →
    s.reverting = false → s.erases = [] → s.define = none → s.work.scrubList = [] →
    s.nextGrant = .nothing → s.offered = [] → s.store.queue = [] → s.store.deferred = [] →
    s.random.queue = [] → (∀ n : LineIx, s.work.lines[n].enabled = false) →
    let severity : Severity := if ∃ n : SourceIx, p.sources.getLsbD n.val = true
      ∧ (s.entryOf n).severity = .high then .high else .low
    let R (current : Option RegionIx) (phase : ResponsePhase) : RunningResponse :=
      ⟨p.sources, p.level, severity, p.relockDone, p.relockDone, p.mask, p.erased, current, phase, 0⟩
    let resumed (t : State) : Prop :=
      t.work.mode = s.work.mode ∧ t.stored = s.stored ∧ t.response.released = true
      ∧ t.alerts = s.alerts.arrive ⟨.responseBegun, severity, some (firstSource p.sources),
          some p.mask, some (levelByte p.level).toNat, s.time.stamp, 0⟩
      ∧ (p.relockDone = true → ∀ c : CredIx, t.credentials[c].presented = false)
    ((p.level.rank < Level.erase.rank ∨ p.mask &&& ~~~p.erased = 0) →
      ∃ t, exec (.sampleTick levels) s = .next t ∧ resumed t
        ∧ t.startUp = ⟨true, true, .running⟩ ∧ t.response.running = some (R none .closing)
        ∧ t.store.queue = [.responseEnd])
    ∧ ∀ q : RegionIx, Level.erase.rank ≤ p.level.rank →
      p.mask.getLsbD q.val = true → p.erased.getLsbD q.val = false →
      (∀ r : RegionIx, r < q → p.mask.getLsbD r.val = true → p.erased.getLsbD r.val = true) →
      s.work.regions[q].enabled = true → s.regions[q].admitted = 0 →
      s.keys[q].highestDrawn ≠ lastGeneration →
      ∃ t, exec (.sampleTick levels) s = .next t ∧ resumed t
        ∧ t.startUp = ⟨true, false, .resuming⟩ ∧ t.response.running = some (R (some q) .erasing)
        ∧ t.response.answerDue = true ∧ t.regions[q] = ⟨.locked, .locked, true, 0⟩
        ∧ t.keys[q] = ⟨s.keys[q].highestDrawn + 1, none⟩ ∧ t.work.keys[q].material = none
        ∧ t.erases = [⟨q, .response, p.level == .scrub, .destroyed (s.keys[q].highestDrawn + 1)⟩]
        ∧ t.random.queue = [.key q (s.keys[q].highestDrawn + 1) (.erase .response)]

/-- The response-end unit answered done: RESPONSE-DONE reports first source, erased set and level, the
record of the last response is the one written, and the controller is free (R143, R147).
The record written is that of the write's start by the model's reading (notes/assumptions/25.md). -/
def Obligations.ResponseEnds : Prop :=
  ∀ (s : State) (r : RunningResponse) (image : Records), s.response.running = some r →
    s.response.triggers = [] → s.erases = [] → s.startUp.phase ≠ .resuming → s.work.scrubList = [] →
    s.nextGrant = .nothing → s.store.queue = [.responseEnd] → s.store.deferred = [] →
    s.store.writing = some image →
    exec .commitWriteEnd s = .next { s with
      sent := [], stored := image, store := ⟨[], none, false, []⟩
      work := { s.work with inProgress := image.inProgress, lastResponse := image.lastResponse }
      response := { s.response with
        running := none, count := image.lastResponse.count, countResetDue := false }
      alerts := s.alerts.arrive ⟨.responseDone, r.severity, some (firstSource r.sources),
        some r.erased, some (levelByte r.level).toNat, s.time.stamp, r.repeats⟩ }

/-- The walk of the scrub list's head starts: condition SCRUBBING, key loaded, walk generation the stored
one, phase WALKING with a chunk offered: of a region 1 to 15 from the issue position, 64 blocks or to its end; of
region 0 from the first LBA on in no enabled region, 64 blocks or to the next boundary or C (R53, R155); a key that cannot
be loaded ends it with a fault, SCRUB-FAULT of value 0 and the finish unit in that event, or after an outstanding
checkpoint, whatever chunks of it are still at the media (R158, R160); a held head starts nothing, and an erase
hold set on it withdraws the offer (R157). A chunk's end: a stale one, of another generation, of a region no longer
listed or issued before an erase or REVERT (R153; notes/assumptions/53.md), is removed and no more, the last of
them releasing its hold; else the chunk leaves, a failed one raises the fault count and SCRUB-FAULT, and the cursor
goes to the lowest formed chunk, or to the issue position or the walk's end; a checkpoint is submitted exactly if
the cursor moved, 4,096 or more walked blocks lie behind it, no unit is held and no erase hold stands; a walk at
END with no chunk submits its finish unit (R156, R157, R159, R160). A checkpoint writes the cursor; done, the
checkpoint position is the one written; unsafe, it is as it was; either way an ended walk then finishes (R159,
R160). The finish unit writes the region NORMAL and off the list; done, so it is, its key unloaded, SCRUB-DONE
queued, the phase IDLE or the next head's walk begun; unsafe, it is resubmitted (R160). At step 10 the stored head
is walked from the stored cursor, and port ready follows (R161).
That SCRUB_WALK_START is this step taken alone, and which copy a unit takes the other fields from, are the model's
choices (notes/assumptions/4.md, 40.md), as is that a walk R158 ends drops its chunks not at the media
(notes/assumptions/50.md). -/
def Obligations.WalkStarts : Prop :=
  (∀ (s : State) (p : Nat),
    (∀ (h : RegionIx) (e : Extent), h ≠ 0 → s.work.regions[h].extent = some e → s.nextChunk h p =
      if p < e.start + e.length then some (p, min (p + 64) (e.start + e.length)) else none)
    ∧ (s.boundary = boundaryOf s.work.regions →
      let skipped (x : Nat) : Prop := ∃ q : RegionIx, q ≠ 0 ∧ s.work.regions[q].enabled = true
        ∧ ∃ e, s.work.regions[q].extent = some e ∧ e.start ≤ x ∧ x < e.start + e.length
      (∀ a b : Nat, s.nextChunk 0 p = some (a, b) →
        p ≤ a ∧ a < b ∧ b ≤ a + 64 ∧ b ≤ s.geometry.capacity
        ∧ (∀ x, p ≤ x → x < a → skipped x) ∧ ¬ skipped a
        ∧ (∀ q ∈ s.boundary, a < q → b ≤ q)
        ∧ (b = a + 64 ∨ b = s.geometry.capacity ∨ b ∈ s.boundary))
      ∧ (s.nextChunk 0 p = none → ∀ x, p ≤ x → x < s.geometry.capacity → skipped x)))
  ∧ (∀ (s : State) (h : RegionIx) (p a b : Nat), s.ResponseStill → s.erases = [] → s.walkDue = true →
    s.StoreStill → s.scrubHead = some h → s.scrub.formed = [] → s.scrub.issue = some p →
    s.nextChunk h p = some (a, b) → (s.loadKey h).keys[h].loaded.isSome = true → s.freeSlot = none →
    ∃ t, exec .scrubWalkStart s = .next t
      ∧ t = { s with
          sent := [], keys := (s.loadKey h).keys
          work := { s.work with regions :=
            (s.work.regions.set h { s.work.regions[h] with condition := .scrubbing }) }
          scrub := { s.scrub with
            phase := .walking, walkGeneration := s.stored.keys[h].generation, issue := some b
            formed := [⟨⟨h, a, b - a, s.stored.keys[h].generation⟩, .offered⟩] } }
      ∧ a < b ∧ b ≤ a + 64)
  ∧ (∀ (s : State) (h : RegionIx), s.ResponseStill → (∀ r : RegionIx, s.destructionsDue r = []) →
    s.startUp.phase ≠ .resuming → s.MediaStill → s.StoreStill → s.scrubHead = some h →
    (s.regions[h].eraseHold = true
      ∨ (∃ f ∈ s.scrub.formed, f.place = .atMedia
        ∧ (f.chunk.region ≠ h ∨ f.chunk.generation ≠ s.stored.keys[h].generation
          ∨ f.chunk ∈ s.scrub.earlier))
      ∨ ∃ d, s.define = some d ∧ d.region ≠ 0) →
    exec .scrubWalkStart s = .next { s with sent := [] })
  ∧ (∀ (s : State) (h : RegionIx), s.ResponseStill → s.erases = [] → s.walkDue = true → s.StoreStill →
    s.scrubHead = some h → s.keys[h].loaded = none → ¬ s.MaterialLoads h → s.port.queue = [] →
    let ended (phase : ScrubPhase) (commit : ScrubCommit) : State := { s with
      sent := []
      work := { s.work with regions := s.work.regions.set h { s.work.regions[h] with
        condition := .scrubbing, faultCount := min 255 (s.work.regions[h].faultCount + 1) } }
      scrub := { s.scrub with
        phase := phase, issue := none, commitHeld := commit
        formed := s.scrub.formed.filter fun f => f.place == .atMedia }
      alerts := s.alerts.arrive
        ⟨.scrubFault, .low, none, some (bit h.val), some 0, s.time.stamp, 0⟩ }
    (s.scrub.commitHeld = .none → s.holds .scrub = false → ∃ t, exec .scrubWalkStart s = .next t
      ∧ State.Submitted (ended .finishing .finish) t .finish)
    ∧ (s.scrub.commitHeld = .checkpoint →
      exec .scrubWalkStart s = .next (ended .walking .checkpoint)))
  ∧ (∀ (s : State) (h : RegionIx) (R : RunningResponse) (image : Records), s.startUp.phase ≠ .resuming →
    s.scrubHead = some h → s.scrub.phase = .walking → s.erases = [] → s.define = none →
    s.response.triggers = [] → s.response.countResetDue = false → s.response.running = some R →
    Level.erase.rank ≤ R.level.rank → R.mask.getLsbD h.val = true → R.erased.getLsbD h.val = false →
    (∀ p : RegionIx, p < h → R.mask.getLsbD p.val = true → R.erased.getLsbD p.val = true) →
    s.work.regions[h].enabled = true → s.regions[h].admitted ≠ 0 → s.port.queue = [] →
    s.Writes .responseBegin image →
    ∃ t, exec .commitWriteEnd s = .next t
      ∧ t.regions = s.regions.set h ⟨.locked, .locked, true, s.regions[h].admitted⟩
      ∧ t.scrub = { s.scrub with
          phase := .held
          formed := s.scrub.formed.map fun f =>
            if f.place = .offered then { f with place := .reissue } else f }
      ∧ t.work.scrubList = s.work.scrubList ∧ t.port = s.port)
  ∧ (∀ (s : State) (i : SlotIx) (x : SlotRecord) (c : Chunk) (good : Bool),
    s.startUp.powerGood = true → s.slotOf x.operation = some i → s.port.slots[i] = some x →
    x.occupant = .chunk c → s.ResponseStill → (∀ r, s.destructionsDue r = []) →
    s.startUp.phase ≠ .resuming → s.port.queue = [] → s.offer = none → s.StoreStill →
    (s.scrub.phase = .walking → s.scrub.issue = none ∧ (∀ f ∈ s.scrub.formed, f.place = .atMedia)
      ∧ ∀ h : RegionIx, s.scrubHead = some h → s.keys[h].loaded.isSome = true) →
    let left := s.scrub.formed.filter fun f => f.chunk != c
    let ended : State := { s with
      sent := [], port := { s.port with slots := s.port.slots.set i none }
      scrub := { s.scrub with formed := left, earlier := s.scrub.earlier.filter fun d => d != c } }
    let stale := s.stored.keys[c.region].generation ≠ c.generation
      ∨ (∀ e ∈ s.work.scrubList, e.region ≠ c.region) ∨ c ∈ s.scrub.earlier
    (stale →
      (s.scrub.phase = .idle ∨ s.scrub.phase = .held →
        ∀ h, s.scrubHead = some h → s.regions[h].eraseHold = true) →
      (s.scrub.phase = .walking → left ≠ []) →
      exec (.mediaCompletion x.operation good) s = .next ended)
    ∧ (∀ (h : RegionIx) (p : Nat), stale →
      left = [] → s.scrubHead = some h → s.scrub.phase = .held → s.startUp.phase = .running →
      s.regions[h].eraseHold = false → s.define = none → s.scrub.issue = some p →
      (s.nextChunk h p).isSome = true → (s.loadKey h).keys[h].loaded.isSome = true →
      ∃ t, exec (.mediaCompletion x.operation good) s = .next t
        ∧ t.scrub.phase = .walking ∧ t.scrub.walkGeneration = s.stored.keys[h].generation
        ∧ t.work.regions = s.work.regions.set h { s.work.regions[h] with condition := .scrubbing }
        ∧ t.work.scrubList = s.work.scrubList)
    ∧ ∀ (e : ScrubEntry) (rest : List ScrubEntry) (m : Nat), s.work.scrubList = e :: rest →
      e.region = c.region → s.stored.keys[c.region].generation = c.generation → c ∉ s.scrub.earlier →
      (s.scrub.phase ≠ .walking → s.regions[c.region].eraseHold = true ∨ s.scrub.phase = .finishing) →
      (s.scrub.commitHeld = .none → s.holds .scrub = false) →
      ((∃ f ∈ left, f.chunk.first = m) ∧ (∀ f ∈ left, m ≤ f.chunk.first)
        ∨ left = [] ∧ m = (match s.scrub.issue with
          | some p => p
          | none => if c.region = 0 then s.geometry.capacity
            else s.work.regions[c.region].extent.elim 0 fun e => e.start + e.length)) →
      let failed := good = false
      let walked := if c.region = 0 then s.walkedBlocks 0 s.scrub.checkpoint m
        else m - s.scrub.checkpoint
      let mayCommit := s.scrub.commitHeld = .none ∧ s.regions[c.region].eraseHold = false
      let checkpoints := e.cursor ≠ m ∧ 4096 ≤ walked ∧ mayCommit
      let finishes := s.scrub.phase = .walking ∧ left = [] ∧ mayCommit
      let base : State := { ended with
        work := { s.work with
          scrubList := { e with cursor := m } :: rest
          regions := if failed then s.work.regions.set c.region { s.work.regions[c.region] with
              faultCount := min 255 (s.work.regions[c.region].faultCount + 1) }
            else s.work.regions }
        alerts := if failed then s.alerts.arrive ⟨.scrubFault, .low, none, some (bit c.region.val),
            some c.count, s.time.stamp, 0⟩
          else s.alerts }
      (x.kind = .write →
        ∃ t, exec (.mediaCompletion x.operation good) s = .next t
          ∧ (checkpoints → State.Submitted { base with scrub := { ended.scrub with
              commitHeld := .checkpoint } } t .checkpoint)
          ∧ (¬ checkpoints → finishes → State.Submitted { base with scrub := { ended.scrub with
              phase := .finishing, commitHeld := .finish } } t .finish)
          ∧ (¬ checkpoints → ¬ finishes → t = base)))
  ∧ (∀ s : State,
    (∀ (e w : ScrubEntry) (rest rest' : List ScrubEntry), s.stored.scrubList = e :: rest →
      s.work.scrubList = w :: rest' → s.image .checkpoint = { s.stored with
        scrubList := { e with cursor := w.cursor } :: rest })
    ∧ ∀ h : RegionIx, s.scrubHead = some h → s.image .finish = { s.stored with
        regions := s.stored.regions.set h { s.work.regions[h] with condition := .normal }
        scrubList := s.stored.scrubList.filter fun e => e.region != h })
  ∧ (∀ (s : State) (h : RegionIx), s.ResponseStill → (∀ r, s.destructionsDue r = []) →
    s.startUp.phase ≠ .resuming → s.nextGrant = .nothing → s.scrubHead = some h →
    s.scrub.phase = .walking → s.scrub.commitHeld = .checkpoint → s.regions[h].eraseHold = false →
    s.scrub.issue = none → (∀ f ∈ s.scrub.formed, f.place = .atMedia) →
    let after (position : Nat) (base t : State) : Prop :=
      (s.scrub.formed ≠ [] → s.keys[h].loaded.isSome = true → t = { base with
        store := emptyStore
        scrub := { s.scrub with commitHeld := .none, checkpoint := position } })
      ∧ (s.scrub.formed = [] ∨ s.keys[h].loaded = none → t = { base with
          store := t.store, holdup := t.holdup
          scrub := { s.scrub with
            phase := .finishing, commitHeld := .finish, checkpoint := position } }
        ∧ t.store.queue = [.finish] ∧ t.store.deferred = [])
    (∀ (image : Records) (e : ScrubEntry) (rest : List ScrubEntry), s.Writes .checkpoint image →
      image.scrubList = e :: rest → ∃ t, exec .commitWriteEnd s = .next t
        ∧ after e.cursor { s with sent := [], stored := image } t)
    ∧ ∀ nanovolts : BitVec 32, s.MeetsEighthLow .checkpoint nanovolts →
      ∃ t, exec (.conversionEnd nanovolts) s = .next t
        ∧ after s.scrub.checkpoint { s with
          sent := [], holdup := t.holdup
          alerts := s.alerts.arrive
            ⟨.storeUnsafe, .high, none, none, some 10, s.time.stamp, 0⟩ } t)
  ∧ (∀ (s : State) (h : RegionIx) (e : ScrubEntry) (rest : List ScrubEntry), s.ResponseStill →
    s.erases = [] → s.startUp.phase = .running → s.nextGrant = .nothing → s.port.queue = [] →
    s.work.scrubList = e :: rest → e.region = h → s.scrub.phase = .finishing →
    s.scrub.commitHeld = .finish → (∀ f ∈ s.scrub.formed, f.place = .atMedia) →
    (∀ image : Records, s.Writes .finish image →
      let regions := s.work.regions.set h { s.work.regions[h] with condition := .normal }
      let alerts := s.alerts.arrive ⟨.scrubDone, .low, none, some (bit h.val),
        some s.work.regions[h].faultCount, s.time.stamp, 0⟩
      (rest = [] → exec .commitWriteEnd s = .next { s with
        sent := [], stored := image, store := emptyStore, alerts := alerts
        work := { s.work with regions := regions, scrubList := [] }
        scrub := { s.scrub with phase := .idle, commitHeld := .none }
        port := { s.port with acc := 0, credit := 0 }
        keys := if s.regions[h].read = .locked ∧ s.regions[h].write = .locked
            ∧ s.regions[h].admitted = 0 then s.keys.set h { s.keys[h] with loaded := none }
          else s.keys })
      ∧ ∀ (n : ScrubEntry) (more : List ScrubEntry), rest = n :: more → n.region ≠ h →
        s.regions[n.region].eraseHold = false → s.define = none →
        ((∃ f ∈ s.scrub.formed, f.chunk.region = h) → ∃ t, exec .commitWriteEnd s = .next t
          ∧ t.work = { s.work with scrubList := rest, regions := regions }
          ∧ t.alerts = alerts ∧ t.stored = image
          ∧ t.scrub = { s.scrub with phase := .held, commitHeld := .none, issue := some n.cursor
                                     checkpoint := n.cursor })
        ∧ (s.scrub.formed = [] → (s.nextChunk n.region n.cursor).isSome = true →
          (s.keys[n.region].loaded.isSome = true ∨ s.MaterialLoads n.region) →
          ∃ t, exec .commitWriteEnd s = .next t
            ∧ t.work = { s.work with
              scrubList := rest
              regions := regions.set n.region { s.work.regions[n.region] with condition := .scrubbing } }
            ∧ t.alerts = alerts ∧ t.stored = image ∧ t.scrub.phase = .walking
            ∧ t.scrub.walkGeneration = image.keys[n.region].generation
            ∧ t.scrub.commitHeld = .none ∧ t.scrub.checkpoint = n.cursor))
    ∧ ∀ nanovolts : BitVec 32, s.MeetsEighthLow .finish nanovolts →
      ∃ t, exec (.conversionEnd nanovolts) s = .next t
        ∧ t = { s with
          sent := [], store := t.store, holdup := t.holdup
          alerts := s.alerts.arrive ⟨.storeUnsafe, .high, none, none, some 11, s.time.stamp, 0⟩ }
        ∧ t.store.queue = [.finish] ∧ t.store.deferred = [])
  ∧ ∀ (s : State) (levels : BitVec 4) (e : ScrubEntry) (rest : List ScrubEntry),
    s.startUp = ⟨true, false, .sampling⟩ → s.work.inProgress = none → s.response.triggers = [] →
    s.response.running = none → s.response.answerDue = false → s.reverting = false → s.erases = [] →
    s.define = none → s.offered = [] → s.store.queue = [] → s.port.queue = [] →
    (∀ n : LineIx, s.work.lines[n].enabled = false) → s.work.scrubList = e :: rest →
    s.scrub.phase = .idle → s.scrub.formed = [] → s.regions[e.region].eraseHold = false →
    s.work.regions[e.region].condition = .scrubQueued →
    (s.nextChunk e.region e.cursor).isSome = true → s.keys[e.region].loaded = none →
    s.MaterialLoads e.region →
    ∃ t, exec (.sampleTick levels) s = .next t
      ∧ t.startUp = ⟨true, true, .running⟩
      ∧ t.work = { s.work with regions :=
          (s.work.regions.set e.region { s.work.regions[e.region] with condition := .scrubbing }) }
      ∧ t.scrub.phase = .walking ∧ t.scrub.checkpoint = e.cursor
      ∧ t.scrub.walkGeneration = s.stored.keys[e.region].generation
      ∧ t.scrub.commitHeld = s.scrub.commitHeld
      ∧ (∃ f ∈ t.scrub.formed, f.chunk.region = e.region ∧ e.cursor ≤ f.chunk.first)
      ∧ t.regions[e.region].read = .locked ∧ t.regions[e.region].write = .locked
      ∧ t.keys[e.region].loaded.isSome = true

/-! ### Management channel -/

/-- A request message reads back as the request it was written from, every field at every value (R180,
R181). -/
def Obligations.MessagesReadBack : Prop :=
  ∀ (i : Instr) (message : List Byte), i.wellFormed = true → writeMessage i = some message →
    readMessage message = some i ∧ 4 ≤ message.length ∧ message.length ≤ 1028
      ∧ kindCode i = some (messageKind message)

/-- A MANAGE-SEND: a message of fewer than 4 or more than 1,028 bytes is BAD-REQUEST; one offered while the
slot is WORKING is MGMT-BUSY and discarded; any other is taken, completes GOOD, and the request it spells is
acted on as the request row itself is, whatever the header bytes that its kind ignores hold (R21, R173, R174,
R180).
That a request row is the message itself without its carriage is the model's choice (notes/assumptions/18.md). -/
def Obligations.ManageSendCarries : Prop :=
  ∀ (s : State) (tag : BitVec 8) (message : List Byte), s.startUp.portReady = true →
    s.TagFree tag.toNat →
    ((message.length < 4 ∨ 1028 < message.length) →
      exec (.manageSend tag message) s = .next (s.completes tag.toNat .badRequest))
    ∧ (4 ≤ message.length → message.length ≤ 1028 → s.management.slot = .working →
      exec (.manageSend tag message) s = .next (s.completes tag.toNat .mgmtBusy))
    ∧ (4 ≤ message.length → message.length ≤ 1028 → s.management.slot ≠ .working →
      (readMessage message = none → exec (.manageSend tag message) s = .next
        { s.answered (messageKind message) .badRequest [] with sent := [.completion tag.toNat .good] })
      ∧ ∀ i, readMessage message = some i →
        exec (.manageSend tag message) s = .next ((s.completes tag.toNat .good).takeMessage
          (messageKind message) (some i))
        ∧ exec i s = .next (State.takeMessage (messageKind message) (some i) { s with sent := [] }))

/-- A MANAGE-FETCH delivers the buffered reply once, or EMPTY, or PENDING, and always completes GOOD (R22,
R173, R182). -/
def Obligations.ManageFetchDelivers : Prop :=
  ∀ (s : State) (tag : BitVec 8), s.startUp.portReady = true → s.TagFree tag.toNat →
    (s.management.slot = .idle → exec (.manageFetch tag) s = .next { s with
        sent := [.reply tag.toNat [0xF0, 0, 0, 0], .completion tag.toNat .good] })
    ∧ (s.management.slot = .working → exec (.manageFetch tag) s = .next { s with
        sent := [.reply tag.toNat [0xF1, 0, 0, 0], .completion tag.toNat .good] })
    ∧ (∀ r : Reply, s.management.slot = .replyReady → s.management.buffer = some r →
      exec (.manageFetch tag) s = .next { s with
        management := { s.management with slot := .idle, buffer := none }
        sent := [.reply tag.toNat (r.kind :: resultByte r.result :: BitVec.ofNat 8 r.body.length
            :: BitVec.ofNat 8 (r.body.length / 256) :: r.body),
          .completion tag.toNat .good] })

/-- A request that cannot be carried out in its taking event: it waits with the front-end before port
ready, is discarded while the slot is WORKING, and is answered BUSY during a revert operation and
NOT-PRESENTED without the authority R80 asks for, a SET-SECRET whatever flags of other users are set; in each case
nothing else changes (R1, R80, R163, R173, R174). Before port ready every request waits, the transfers and the unknown kinds too; after it each is taken
(State.takeRequest, which the statements of admission, carriage and requests describe command by command). What
waited is taken by the same taking, oldest first, in the event that asserts port ready: the sample of step 5
(SampleEvaluatesGroups), or, where a resumed response awaits the key of its first erase, the end of that draw
(R1, R100, R102).
That a request row is the message itself without its carriage is the model's choice (notes/assumptions/18.md), and
that requests which wait stay in the order offered is its reading (notes/assumptions/17.md). -/
def Obligations.RequestsHeldOrRefused : Prop :=
  (∀ (s : State) (i : Instr),
    (requestTag i).isSome = true ∨ (kindCode i).isSome = true ∨ (∃ tag, i = .requestOfUnknownKind tag) →
    (s.startUp.portReady = false → exec i s = .next { s with sent := [], offered := s.offered ++ [i] })
    ∧ (s.startUp.portReady = true → exec i s = .next (State.takeRequest i { s with sent := [] })))
  ∧ (∀ (s : State) (r : RegionIx) (g : Nat) (scrub : Bool) (bits : BitVec 512),
    s.startUp = ⟨true, false, .resuming⟩ → s.response.answerDue = true → s.response.running.isSome = true →
    s.random.ready = true → s.random.queue = [.key r g (.erase .response)] → s.random.waiting = [] →
    s.erases = [⟨r, .response, scrub, .destroyed g⟩] → s.work.scrubList = [] → s.nextGrant = .nothing →
    s.holds .response = false → s.work.keys[r].generation < g →
    ∃ t, exec (.randomDrawEnd bits) s = .next (s.offered.foldl (fun u i => u.takeRequest i) t)
      ∧ t.startUp = ⟨true, true, .running⟩ ∧ t.offered = [] ∧ t.sent = []
      ∧ t.response = { s.response with answerDue := false }
      ∧ t.work = { s.work with keys := s.work.keys.set r ⟨g, some ⟨bits, s.fuses.rootKey⟩⟩ }
      ∧ t.erases = [⟨r, .response, scrub, .committing⟩]
      ∧ t.store.queue = s.store.queue ++ [.keyDestruction r]
      ∧ t.stored = s.stored ∧ t.management = s.management ∧ t.transfers = s.transfers
      ∧ t.window.state = (if s.work.window.enabled then .shown else .off)
      ∧ ∀ q : RegionIx, s.regions[q].eraseHold = true →
          t.regions[q].read = .locked ∧ t.regions[q].write = .locked)
  ∧ ∀ (s : State) (i : Instr) (kind : Byte), kindCode i = some kind → i.wellFormed = true →
    (s.startUp.portReady = false →
      exec i s = .next { s with sent := [], offered := s.offered ++ [i] })
    ∧ (s.startUp.portReady = true → s.management.slot = .working →
      exec i s = .next { s with sent := [] })
    ∧ (s.startUp.portReady = true → s.management.slot ≠ .working → s.reverting = true →
      kind ≠ 0x01 → kind ≠ 0x18 → exec i s = .next (s.answered kind .busy []))
    ∧ (s.TakesRequests → s.administrator = false →
      kind ∉ [0x01, 0x02, 0x03, 0x04, 0x17, 0x18, 0x19] →
      exec i s = .next (s.answered kind .notPresented []))
    ∧ (∀ (target cost : BitVec 8) (secret : List Byte), s.TakesRequests → s.administrator = false →
      i = .setSecret target cost secret →
      (∀ c : CredIx, c.val = target.toNat → s.credentials[c].presented = false) →
      exec i s = .next (s.answered kind .notPresented []))
    ∧ (s.TakesRequests → kind = 0x17 → (∀ c : CredIx, s.credentials[c].presented = false) →
      exec i s = .next (s.answered kind .notPresented []))

/-- STATUS-QUERY is answered DONE in its taking event and changes nothing else; its view is the full one
exactly if a presented flag is set, the reduced one is the 100 bytes of R182, and the full one holds the reduced
fields and then every item of R176 in its order, each in the bytes R182 gives it: W and L, sixteen region
summaries, counter, limit and cost of each credential, the revert items, device ratchets, the response items, the
scrub list and cursor, the tamper lines, time source and stamp, the deadlines, the hold-up items, trigger level
and overrun (R176, R182), also while a revert operation runs (R163). Values are the working ones.
That the count of the last-response record is the working count is the model's reading (notes/assumptions/45.md);
that the cost byte of a credential not present is 0 is its choice (notes/assumptions/54.md). -/
def Obligations.StatusReported : Prop :=
  ∀ s : State, s.startUp.portReady = true → s.management.slot ≠ .working →
    ∃ body, exec .statusQuery s = .next (s.answered 0x01 .done body)
      ∧ (s.anyPresented = true → body.head? = some 1)
      ∧ (s.anyPresented = false → ∃ creds, body = [0, modeByte s.work.mode, windowByte s.window.state]
          ++ s.work.label ++ creds ++ [BitVec.ofNat 8 (s.alerts.queue.length
            + if s.alerts.holding.isSome then 1 else 0)]
        ∧ creds.length = 32
        ∧ ∀ c : CredIx, creds[4 * c.val]? = some (flagByte s.work.credentials[c].secret.isSome)
          ∧ creds[4 * c.val + 1]? = some (BitVec.ofNat 8
              (s.work.credentials[c].limit - s.work.credentials[c].counter))
          ∧ creds[4 * c.val + 2]? = some (BitVec.ofNat 8 s.credentials[c].backoff))
      ∧ (s.anyPresented = true → ∃ pend : BitVec 16,
          (∀ n : SourceIx, pend.getLsbD n.val = true ↔ ∃ e ∈ s.response.triggers, e.source = n)
          ∧ pend.toNat < 512
          ∧ body = [1, modeByte s.work.mode, windowByte s.window.state] ++ s.work.label
            ++ (List.finRange 8).flatMap (fun c : CredIx =>
              [flagByte s.work.credentials[c].secret.isSome,
                BitVec.ofNat 8 (s.work.credentials[c].limit - s.work.credentials[c].counter)]
              ++ littleEndian 2 s.credentials[c].backoff)
            ++ [BitVec.ofNat 8 (s.alerts.queue.length + if s.alerts.holding.isSome then 1 else 0)]
            ++ littleEndian 4 s.work.window.w ++ littleEndian 4 s.work.window.l
            ++ (List.finRange 16).flatMap s.summary
            ++ (List.finRange 8).flatMap (fun c : CredIx =>
              [BitVec.ofNat 8 s.work.credentials[c].counter, BitVec.ofNat 8 s.work.credentials[c].limit,
                BitVec.ofNat 8 (s.work.credentials[c].secret.elim 0 Verifier.cost)])
            ++ [BitVec.ofNat 8 s.work.revertCounter] ++ littleEndian 2 s.revertBackoff
            ++ [flagsByte [s.work.deviceRatchets.fixedResponses, s.work.deviceRatchets.fixedTamper,
              s.work.deviceRatchets.fixedDeadlines]]
            ++ ([1, 2, 3, 4, 5, 6, 7, 8] : List SourceIx).flatMap (fun n =>
              [levelByte (s.entryOf n).level, severityByte (s.entryOf n).severity])
            ++ littleEndian 2 s.work.lastResponse.sources.toNat ++ [levelByte s.work.lastResponse.level]
            ++ littleEndian 2 s.work.lastResponse.mask.toNat
            ++ littleEndian 4 s.work.lastResponse.stamp ++ [BitVec.ofNat 8 s.response.count]
            ++ littleEndian 2 pend.toNat
            ++ (match s.response.running with
              | some r => littleEndian 2 r.sources.toNat ++ [levelByte r.level]
              | none => [0, 0, 0])
            ++ [BitVec.ofNat 8 s.work.scrubList.length]
            ++ s.work.scrubList.map (fun e => BitVec.ofNat 8 e.region.val)
            ++ littleEndian 6 (s.work.scrubList.head?.elim 0 ScrubEntry.cursor)
            ++ (List.finRange 4).flatMap (fun n : LineIx =>
              [flagByte s.work.lines[n].enabled, polarityByte s.work.lines[n].polarity,
                flagByte s.work.lines[n].idle, BitVec.ofNat 8 s.work.lines[n].debounce,
                flagByte s.tamper.lines[n].latched, flagByte s.tamper.lines[n].level])
            ++ [timeSourceByte s.time.source] ++ littleEndian 4 s.time.stamp
            ++ littleEndian 2 s.work.deadlines.p ++ [BitVec.ofNat 8 s.work.deadlines.np,
              BitVec.ofNat 8 s.work.deadlines.q] ++ littleEndian 2 s.work.deadlines.dp
            ++ [BitVec.ofNat 8 s.work.deadlines.dn, gateByte s.work.holdup.gate,
              BitVec.ofNat 8 s.work.holdup.threshold, conversionByte s.work.holdup.time,
              BitVec.ofNat 8 s.holdup.latestCode, BitVec.ofNat 8 s.alerts.triggerLevel,
              flagByte s.alerts.overrun])

/-- FETCH-ALERTS reports the overrun as it stood, removes up to 8 of the oldest entries, moves the holding
entry to the tail, clears the overrun once nothing is held, takes a trigger level clamped to 1 to 8, and
sets the attention line anew, also while a revert operation runs (R163, R178, R179). Each record removed stands in the
reply in its 16 bytes: kind, severity, source index or FFh, presence, region mask, value, time stamp, repeat count
and a zero, what is absent as 0 (R182). -/
def Obligations.AlertsFetched : Prop :=
  ∀ (s : State) (level : Option (BitVec 8)), s.startUp.portReady = true → s.management.slot ≠ .working →
    let kinds : List AlertKind := [.tamper, .deadline, .attempts, .timeFault, .responseBegun, .responseDone,
      .scrubDone, .scrubFault, .holdupLow, .storeUnsafe, .reverted]
    let record (a : Alert) : List Byte :=
      [BitVec.ofNat 8 (kinds.idxOf a.kind), if a.severity = .high then 1 else 0,
        a.source.elim 0xFF fun n => BitVec.ofNat 8 n.val, flagsByte [a.mask.isSome, a.value.isSome]]
      ++ littleEndian 2 (a.mask.elim 0 BitVec.toNat) ++ littleEndian 4 (a.value.getD 0)
      ++ littleEndian 4 a.stamp ++ [BitVec.ofNat 8 a.repeats, 0]
    let rest := s.alerts.queue.drop 8 ++ s.alerts.holding.toList
    let taken := s.alerts.queue.take 8
    let trigger := match level with
      | some t => if t.toNat < 1 then 1 else if 8 < t.toNat then 8 else t.toNat
      | none => s.alerts.triggerLevel
    exec (.fetchAlerts level) s = .next { s.answered 0x18 .done
        (flagByte s.alerts.overrun :: BitVec.ofNat 8 rest.length :: BitVec.ofNat 8 taken.length
          :: taken.flatMap record) with
      alerts := ⟨rest, none, if rest = [] then false else s.alerts.overrun, trigger,
        decide (trigger ≤ rest.length) || rest.any fun a => a.severity == .high⟩ }

/-- Requests carried out in their taking event: LOCK locks exactly the named rights of enabled regions and
clears the flags with the forget option; CLEAR-TAMPER clears exactly the named flags and reports the four flags
and levels as they then stand; BEGIN-LOAD and RETIRE-WINDOW act on the window state alone (R30, R109, R111, R123).
The order of the bytes of the CLEAR-TAMPER reply, and that a RETIRE-WINDOW answered BUSY carries the window state as
R109 says, although R182 gives refused requests an empty body, are the model's choice (notes/assumptions/28.md). -/
def Obligations.RequestsActAtOnce : Prop :=
  ∀ s : State,
    (∀ (rm wm : BitVec 16) (forget : BitVec 8), s.TakesRequests →
      ∃ t, exec (.lock rm wm forget) s = .next t
        ∧ t = { s with
            regions := t.regions, keys := t.keys, credentials := t.credentials, sent := []
            management := (s.answered 0x03 .done (bytes16 (t.openMask .read)
              ++ bytes16 (t.openMask .write))).management }
        ∧ (∀ r : RegionIx, t.regions[r] = { s.regions[r] with
            read := if rm.getLsbD r.val = true ∧ s.work.regions[r].enabled = true then .locked
              else s.regions[r].read
            write := if wm.getLsbD r.val = true ∧ s.work.regions[r].enabled = true then .locked
              else s.regions[r].write })
        ∧ (∀ c : CredIx, t.credentials[c] = { s.credentials[c] with
            presented := s.credentials[c].presented && forget == 0 }))
    ∧ (s.TakesAdministrator →
      (∀ mask : BitVec 8, ∃ t, exec (.clearTamper mask) s = .next t
        ∧ t = { s.answered 0x0E .done (([0, 1, 2, 3] : List LineIx).map (fun n =>
              flagByte t.tamper.lines[n].latched) ++ ([0, 1, 2, 3] : List LineIx).map fun n =>
              flagByte s.tamper.lines[n].level) with
            tamper := { s.tamper with lines := t.tamper.lines } }
        ∧ (∀ n : LineIx, t.tamper.lines[n] = { s.tamper.lines[n] with
            latched := s.tamper.lines[n].latched && !mask.getLsbD n.val }))
      ∧ (s.window.changePending = true → exec .beginLoad s = .next (s.answered 0x14 .busy []))
      ∧ (s.window = ⟨.off, false⟩ → exec .beginLoad s = .next (s.answered 0x14 .notFound []))
      ∧ (s.window.changePending = false → s.window.state ≠ .off →
        exec .beginLoad s = .next { s.answered 0x14 .done [] with window := ⟨.loading, false⟩ }))
    ∧ (s.TakesRequests → s.anyPresented = true →
      (s.window.state = .loading → exec .retireWindow s = .next (s.answered 0x17 .busy [3]))
      ∧ (s.window.state = .shown → exec .retireWindow s = .next { s.answered 0x17 .done [2] with
          window := { s.window with state := .retired } })
      ∧ (s.window.state = .retired ∨ s.window.state = .off →
        exec .retireWindow s = .next (s.answered 0x17 .done [windowByte s.window.state])))

/-- Requests for a setting submit their configuration unit with the clamped values and mark the change
pending (R74, R75, R110, R112, R114, R121, R132, R134, R171). Their refusals, by the first check that fails, change
nothing: BUSY while the change is pending (SET-WINDOW also while LOADING); RANGE for a window of 0 or too many blocks
and for a Dn above 254; BAD-REQUEST for an END-LOAD when not LOADING, a label over 64 bytes, and an unknown source,
level, severity, line, polarity, gate mode or conversion time. (BEGIN-LOAD: RequestsActAtOnce; RATCHETED:
DeviceRatchetsGuard.)
The idle level of a disabled line follows its polarity by the model's reading (notes/assumptions/29.md); that a
label no message can carry is answered so is its choice (notes/assumptions/19.md). -/
def Obligations.SettingsSubmitted : Prop :=
  (∀ s : State, s.TakesAdministrator → s.holds .management = false →
    let id := s.nextRequest
    (∀ v : BitVec 8, ∃ t, exec (.setScrubShare v) s = .next t
      ∧ State.Submitted s.working t (.scrubShare id (min 15 v.toNat)))
    ∧ (∀ v : BitVec 8, ∃ t, exec (.setMediaTimeout v) s = .next t
      ∧ State.Submitted s.working t (.mediaTimeout id (max 1 v.toNat)))
    ∧ (s.window.changePending = false →
      (∀ text : List Byte, text.length ≤ 64 → ∃ t, exec (.setLabel text) s = .next t
        ∧ State.Submitted { s.working with window := { s.window with changePending := true } } t
            (.label id (text ++ List.replicate (64 - text.length) 0)))
      ∧ (∀ l : BitVec 32, s.window.state = .loading → ∃ t, exec (.endLoad l) s = .next t
        ∧ State.Submitted { s.working with window := { s.window with changePending := true } } t
            (.imageLength id (min l.toNat s.work.window.w)))
      ∧ (∀ (e : BitVec 8) (w : BitVec 32), s.window.state ≠ .loading →
        (e = 0 ∨ (0 < w.toNat ∧ w.toNat ≤ min 65536 s.geometry.capacity)) →
        ∃ t, exec (.setWindow e w) s = .next t
          ∧ State.Submitted { s.working with window := { s.window with changePending := true } } t
              (.setWindow id (e != 0) w.toNat)))
    ∧ (∀ (dp : BitVec 16) (dn q : BitVec 8), s.deadlines.changePending = false → dn.toNat ≤ 254 →
      s.work.deviceRatchets.fixedDeadlines = false → ∃ t, exec (.setDeadline dp dn q) s = .next t
        ∧ State.Submitted { s.working with deadlines := { s.deadlines with changePending := true } } t
            (.setDeadline id (if dp = 0 then 0 else max 30 dp.toNat) dn.toNat
              (max 5 (min 60 q.toNat))))
    ∧ (∀ (src l v : BitVec 8) (n : SourceIx) (level : Level) (severity : Severity),
      s.response.changePending = false → s.work.deviceRatchets.fixedResponses = false →
      src.toNat = n.val → n ≠ 0 → levelByte level = l → severityByte severity = v →
      ∃ t, exec (.setResponse src l v) s = .next t
        ∧ State.Submitted { s.working with response := { s.response with changePending := true } } t
            (.setResponse id n ⟨level, severity⟩))
    ∧ (∀ (line e p d : BitVec 8) (n : LineIx) (polarity : Polarity),
      s.tamper.changePending = false → s.work.deviceRatchets.fixedTamper = false →
      line.toNat = n.val → polarityByte polarity = p →
      ∃ t, exec (.setTamper line e p d) s = .next t
        ∧ State.Submitted { s.working with tamper := { s.tamper with changePending := true } } t
            (.setTamper id n ⟨e != 0, polarity,
              match polarity with
              | .rising => false
              | .falling => true
              | .both => s.tamper.lines[n].level,
              max 2 d.toNat⟩))
    ∧ (∀ (g th c : BitVec 8) (gate : GateMode) (time : ConversionTime),
      s.holdup.changePending = false → gateByte gate = g → conversionByte time = c →
      ∃ t, exec (.setHoldup g th c) s = .next t
        ∧ State.Submitted { s.working with holdup := { s.holdup with changePending := true } } t
            (.setHoldup id ⟨gate, max 64 th.toNat, time⟩)))
  ∧ ∀ s : State, s.TakesAdministrator →
    let refused (i : Instr) (kind : Byte) (result : ResultCode) : Prop :=
      exec i s = .next (s.answered kind result [])
    (∀ (e : BitVec 8) (w : BitVec 32),
      (s.window.state = .loading ∨ s.window.changePending = true → refused (.setWindow e w) 0x13 .busy)
      ∧ (s.window.state ≠ .loading → s.window.changePending = false → e ≠ 0 →
        (w = 0 ∨ min 65536 s.geometry.capacity < w.toNat) → refused (.setWindow e w) 0x13 .range))
    ∧ (∀ l : BitVec 32, (s.window.changePending = true → refused (.endLoad l) 0x15 .busy)
      ∧ (s.window.changePending = false → s.window.state ≠ .loading →
        refused (.endLoad l) 0x15 .badRequest))
    ∧ (∀ text : List Byte, (64 < text.length → refused (.setLabel text) 0x16 .badRequest)
      ∧ (text.length ≤ 64 → s.window.changePending = true → refused (.setLabel text) 0x16 .busy))
    ∧ (∀ line e p d : BitVec 8,
      (3 < line.toNat ∨ 2 < p.toNat → refused (.setTamper line e p d) 0x0D .badRequest)
      ∧ (line.toNat ≤ 3 → p.toNat ≤ 2 → s.tamper.changePending = true →
        refused (.setTamper line e p d) 0x0D .busy))
    ∧ (∀ (dp : BitVec 16) (dn q : BitVec 8), (254 < dn.toNat → refused (.setDeadline dp dn q) 0x0F .range)
      ∧ (dn.toNat ≤ 254 → s.deadlines.changePending = true → refused (.setDeadline dp dn q) 0x0F .busy))
    ∧ (∀ src l v : BitVec 8,
      (src = 0 ∨ 8 < src.toNat ∨ 4 < l.toNat ∨ 1 < v.toNat → refused (.setResponse src l v) 0x0B .badRequest)
      ∧ (0 < src.toNat → src.toNat ≤ 8 → l.toNat ≤ 4 → v.toNat ≤ 1 → s.response.changePending = true →
        refused (.setResponse src l v) 0x0B .busy))
    ∧ ∀ g th c : BitVec 8, (2 < g.toNat ∨ 3 < c.toNat → refused (.setHoldup g th c) 0x10 .badRequest)
      ∧ (g.toNat ≤ 2 → c.toNat ≤ 3 → s.holdup.changePending = true →
        refused (.setHoldup g th c) 0x10 .busy)

/-- The device ratchets refuse the loosening of what they guard, RATCHETED, and take a request that only
tightens or keeps it: turning a deadline on or lowering it or Q, raising a level or a severity, lowering a
debounce, configuring a line that is not enabled; its unit is submitted (R43, R121, R132, R134).
The idle level of a disabled line follows its polarity by the model's reading (notes/assumptions/29.md). -/
def Obligations.DeviceRatchetsGuard : Prop :=
  ∀ s : State, s.TakesAdministrator →
    let id := s.nextRequest
    (∀ (dp : BitVec 16) (dn q : BitVec 8), s.deadlines.changePending = false → dn.toNat ≤ 254 →
      s.work.deviceRatchets.fixedDeadlines = true →
      let loosens := (s.work.deadlines.dp ≠ 0 ∧ (dp = 0 ∨ s.work.deadlines.dp < max 30 dp.toNat))
        ∨ (s.work.deadlines.dn ≠ 0 ∧ (dn = 0 ∨ s.work.deadlines.dn < dn.toNat))
        ∨ s.work.deadlines.q < max 5 (min 60 q.toNat)
      (loosens → exec (.setDeadline dp dn q) s = .next (s.answered 0x0F .ratcheted []))
      ∧ (¬ loosens → s.holds .management = false → ∃ t, exec (.setDeadline dp dn q) s = .next t
        ∧ State.Submitted { s.working with deadlines := { s.deadlines with changePending := true } } t
            (.setDeadline id (if dp = 0 then 0 else max 30 dp.toNat) dn.toNat
              (max 5 (min 60 q.toNat)))))
    ∧ (∀ (src l v : BitVec 8) (n : SourceIx) (level : Level) (severity : Severity),
      s.response.changePending = false → s.work.deviceRatchets.fixedResponses = true →
      src.toNat = n.val → n ≠ 0 → levelByte level = l → severityByte severity = v →
      let loosens := level.rank < (s.entryOf n).level.rank
        ∨ ((s.entryOf n).severity = .high ∧ severity = .low)
      (loosens → exec (.setResponse src l v) s = .next (s.answered 0x0B .ratcheted []))
      ∧ (¬ loosens → s.holds .management = false → ∃ t, exec (.setResponse src l v) s = .next t
        ∧ State.Submitted { s.working with response := { s.response with changePending := true } } t
            (.setResponse id n ⟨level, severity⟩)))
    ∧ (∀ (line e p d : BitVec 8) (n : LineIx) (polarity : Polarity),
      s.tamper.changePending = false → s.work.deviceRatchets.fixedTamper = true →
      line.toNat = n.val → polarityByte polarity = p →
      let loosens := s.work.lines[n].enabled = true ∧ (e = 0 ∨ polarity ≠ s.work.lines[n].polarity
        ∨ s.work.lines[n].debounce < max 2 d.toNat)
      (loosens → exec (.setTamper line e p d) s = .next (s.answered 0x0D .ratcheted []))
      ∧ (¬ loosens → s.holds .management = false → ∃ t, exec (.setTamper line e p d) s = .next t
        ∧ State.Submitted { s.working with tamper := { s.tamper with changePending := true } } t
            (.setTamper id n ⟨e != 0, polarity,
              match polarity with
              | .rising => false
              | .falling => true
              | .both => s.tamper.lines[n].level,
              max 2 d.toNat⟩)))

/-- PRESENT: refused in the order of R82 with nothing changed, BAD-REQUEST first for an index above 7 or a secret
of 0 or more than 64 bytes, else charged; the charge waits inside the credential engine while the engine holds an
earlier unit (R82, R83, R166). (Its entry: DeferredUnitEnters.)
That a PRESENT row with a secret no message can carry is answered so is the model's choice
(notes/assumptions/19.md). -/
def Obligations.PresentCheckedThenCharged : Prop :=
  (∀ (s : State) (b o : BitVec 8) (rm wm : BitVec 16) (secret : List Byte), s.TakesRequests →
    7 < b.toNat ∨ 64 < secret.length →
    exec (.present b rm wm o secret) s = .next (s.answered 0x02 .badRequest []))
  ∧ ∀ (s : State) (c : CredIx) (rm wm : BitVec 16) (o : BitVec 8) (secret : List Byte), s.TakesRequests →
    secret.length ≤ 64 →
    let cb := BitVec.ofNat 8 c.val
    let x := s.work.credentials[c]
    (secret = [] → exec (.present cb rm wm o secret) s = .next (s.answered 0x02 .badRequest []))
    ∧ (secret ≠ [] →
      (x.secret = none → exec (.present cb rm wm o secret) s = .next (s.answered 0x02 .notFound []))
      ∧ (x.secret.isSome = true →
        (s.work.mode = .lockdown → c ≠ 0 →
          exec (.present cb rm wm o secret) s = .next (s.answered 0x02 .lockdown []))
        ∧ (s.work.mode ≠ .lockdown ∨ c = 0 →
          (x.counter = x.limit →
            exec (.present cb rm wm o secret) s = .next (s.answered 0x02 .exhausted [0]))
          ∧ (x.counter ≠ x.limit → 0 < s.credentials[c].backoff →
            exec (.present cb rm wm o secret) s = .next (s.answered 0x02 .backingOff
              [BitVec.ofNat 8 s.credentials[c].backoff,
                BitVec.ofNat 8 (s.credentials[c].backoff / 256)]))
          ∧ (x.counter ≠ x.limit → s.credentials[c].backoff = 0 → s.holds .credential = false →
            ∃ t, exec (.present cb rm wm o secret) s = .next t
              ∧ State.Submitted s.working t
                  (.charge ⟨s.nextRequest, c, rm, wm, o.getLsbD 0⟩ secret))
          ∧ (x.counter ≠ x.limit → s.credentials[c].backoff = 0 → s.holds .credential = true →
            s.StoreStill → exec (.present cb rm wm o secret) s = .next { s.working with
              store := { s.store with deferred := s.store.deferred
                ++ [.charge ⟨s.nextRequest, c, rm, wm, o.getLsbD 0⟩ secret] } }))))

/-- The credential requests and their checks, the first that fails giving the reply: SET-SECRET, with the
target's presented flag or the administrator's authority, asks for a salt with the cost clamped to 4 to 12 (R80,
R93); REMOVE-CREDENTIAL, GRANT, SET-LIMIT and RESET-ATTEMPTS are refused BAD-REQUEST, NOT-FOUND or RATCHETED
(FIXED-GRANTS, R42), a GRANT of the rights already held is answered DONE with the grant list and no commit, and
any other submits a grant unit (R95 to R98); REVERT, which needs no presentation (R80), is refused BAD-REQUEST, BUSY,
RESPONSE-ACTIVE or BACKING-OFF with the seconds remaining, and else submits its charge (R162).
The body of that GRANT's reply is the model's choice (notes/assumptions/28.md). -/
def Obligations.CredentialRequestsBegin : Prop :=
  (∀ (s : State) (c : CredIx) (cost : BitVec 8) (secret : List Byte), s.TakesRequests →
    s.administrator = true ∨ s.credentials[c].presented = true →
    let request := exec (.setSecret (BitVec.ofNat 8 c.val) cost secret) s
    (secret = [] ∨ 64 < secret.length → request = .next (s.answered 0x04 .badRequest []))
    ∧ (secret ≠ [] → secret.length ≤ 64 → s.random.queue = [] → request = .next { s.working with
        random := { s.random with queue := [.salt ⟨s.nextRequest, c, secret, max 4 (min 12 cost.toNat),
          c == 0 && s.work.mode == .factory⟩] } }))
  ∧ (∀ (s : State) (scrub : BitVec 8) (code : List Byte), s.TakesRequests →
    let request := exec (.revert scrub code) s
    (code.length ≠ 32 → request = .next (s.answered 0x19 .badRequest []))
    ∧ (code.length = 32 →
      (s.define ≠ none → request = .next (s.answered 0x19 .busy []))
      ∧ (s.define = none → s.response.running ≠ none →
        request = .next (s.answered 0x19 .responseActive []))
      ∧ (s.define = none → s.response.running = none →
        (0 < s.revertBackoff → request = .next (s.answered 0x19 .backingOff
          [BitVec.ofNat 8 s.revertBackoff, BitVec.ofNat 8 (s.revertBackoff / 256)]))
        ∧ (s.revertBackoff = 0 → s.holds .credential = false → ∃ t, request = .next t
          ∧ State.Submitted s.working t (.revertCharge s.nextRequest (scrub != 0) code)))))
  ∧ (∀ (s : State) (b x y : BitVec 8) (secret : List Byte), s.TakesAdministrator → 7 < b.toNat →
    exec (.setSecret b x secret) s = .next (s.answered 0x04 .badRequest [])
    ∧ exec (.removeCredential b) s = .next (s.answered 0x05 .badRequest [])
    ∧ exec (.removeCredential 0) s = .next (s.answered 0x05 .badRequest [])
    ∧ exec (.grant b x y) s = .next (s.answered 0x06 .badRequest [])
    ∧ exec (.grant 0 x y) s = .next (s.answered 0x06 .badRequest [])
    ∧ (15 < x.toNat ∨ 3 < y.toNat → ∀ c, exec (.grant c x y) s = .next (s.answered 0x06 .badRequest []))
    ∧ exec (.setLimit b x) s = .next (s.answered 0x07 .badRequest [])
    ∧ exec (.resetAttempts b) s = .next (s.answered 0x08 .badRequest []))
  ∧ ∀ (s : State) (c : CredIx), s.TakesAdministrator →
    let cb := BitVec.ofNat 8 c.val
    let id := s.nextRequest
    let x := s.work.credentials[c]
    (x.secret = none → ∀ (l : BitVec 8) (r : RegionIx) (g : GrantRights),
      exec (.setLimit cb l) s = .next (s.answered 0x07 .notFound [])
      ∧ exec (.resetAttempts cb) s = .next (s.answered 0x08 .notFound [])
      ∧ (c ≠ 0 → exec (.removeCredential cb) s = .next (s.answered 0x05 .notFound [])
        ∧ exec (.grant cb (BitVec.ofNat 8 r.val) (grantByte g)) s =
          .next (s.answered 0x06 .notFound [])))
    ∧ (x.secret.isSome = true →
      (s.holds .management = false → (∀ l : BitVec 8, ∃ t, exec (.setLimit cb l) s = .next t
          ∧ State.Submitted s.working t (.limit id c (max 1 (min 99 l.toNat))))
        ∧ ∃ t, exec (.resetAttempts cb) s = .next t
          ∧ State.Submitted s.working t (.resetAttempts id c))
      ∧ (c ≠ 0 →
        ((∃ g ∈ x.grants, s.work.regions[g.region].ratchets.fixedGrants = true) →
          exec (.removeCredential cb) s = .next (s.answered 0x05 .ratcheted []))
        ∧ ((∀ g ∈ x.grants, s.work.regions[g.region].ratchets.fixedGrants = false) →
          s.holds .management = false → ∃ t, exec (.removeCredential cb) s = .next t
            ∧ State.Submitted s.working t (.remove id c))
        ∧ ∀ (r : RegionIx) (g : GrantRights),
          let request := exec (.grant cb (BitVec.ofNat 8 r.val) (grantByte g)) s
          let new := g ≠ grantFor r x.grants
          let fixed := s.work.regions[r].ratchets.fixedGrants
          (g ≠ .none → s.work.regions[r].enabled = false →
            request = .next (s.answered 0x06 .notFound []))
          ∧ (g = .none ∨ s.work.regions[r].enabled = true →
            (new → fixed = true → request = .next (s.answered 0x06 .ratcheted []))
            ∧ (¬ new → request = .next (s.answered 0x06 .done (BitVec.ofNat 8 x.grants.length
                :: x.grants.flatMap fun y => [BitVec.ofNat 8 y.region.val, grantByte y.rights])))
            ∧ (new → fixed = false → s.holds .management = false → ∃ t, request = .next t
              ∧ State.Submitted s.working t (.grant id c r g)))))

/-- DEFINE-REGION is refused BAD-REQUEST, BUSY, RESPONSE-ACTIVE, SCRUB-ACTIVE, RANGE, OVERLAP or RATCHETED
(FIXED-BOUNDS, FIXED-FLAGS, R42) in that order, a disabling of a region not enabled is DONE, a change submits its
region-definition unit, and an enabling asks for the key's draw, or is RANGE for a spent slot (R37 to R39, R47).
RATCHET is refused BAD-REQUEST, BUSY or NOT-FOUND, is DONE at once where it adds nothing, with the body of one
that commits by the model's choice (notes/assumptions/28.md), and else submits its unit (R44). A disabling
locks both rights and sets the erase hold in its taking event, the slot WORKING; undrained it waits, drained the
key is gone and the unit of a record one generation higher without material is submitted (R40, R46, R50). What
the unit writes: an enabling the bounds, settings, NORMAL, fault count 0 and the kept ratchets with the new key
record; a change the new fields over an unchanged key record; a disabling enabled no, no bounds, UNUSED (R38 to
R40). Answered done, that is the region's record and the boundary list is rebuilt: an enabling leaves both rights
LOCKED, no hold, no count, the key SEALED, and replies with the record; a change keeps rights, key, condition and
count; a disabling ends its erase hold. Answered unsafe, the stored key record is back, nothing applies, and a
disabled region stays enabled with rights LOCKED and no hold (R38 to R40, R51).
That a condition read as SCRUBBING is not stored is the model's reading (notes/assumptions/13.md), as it is that a
change leaves the key record as stored (notes/assumptions/24.md); which copy a unit takes the other fields from,
that a RATCHET not yet answered holds nothing back, and that an enabling takes the conceal and absorb it requests and
not the flags a disabling kept, are its choices (notes/assumptions/40.md, 47.md, 57.md). -/
def Obligations.RegionRequests : Prop :=
  (∀ (s : State) (r : RegionIx) (b e : BitVec 8) (start length : BitVec 48) (pr pw cl ab : BitVec 8),
    s.TakesAdministrator →
    let id := s.nextRequest
    let x := s.work.regions[r]
    let request := exec (.defineRegion (BitVec.ofNat 8 r.val) e start length pr pw cl ab) s
    let refused (result : ResultCode) : Prop := request = .next (s.answered 0x09 result [])
    (15 < b.toNat →
      exec (.defineRegion b e start length pr pw cl ab) s = .next (s.answered 0x09 .badRequest []))
    ∧ (r = 0 → e = 0 → refused .badRequest)
    ∧ (r ≠ 0 ∨ e ≠ 0 →
      (s.define ≠ none → refused .busy)
      ∧ (s.define = none → s.response.running ≠ none → refused .responseActive)
      ∧ (s.define = none → s.response.running = none → s.work.scrubList ≠ [] → refused .scrubActive)
      ∧ (s.define = none → s.response.running = none → s.work.scrubList = [] →
        (e = 0 → x.enabled = false → refused .done)
        ∧ (e = 0 → x.enabled = true → x.ratchets.fixedBounds = true → refused .ratcheted)
        ∧ (e ≠ 0 →
          let inPart := 0 < length.toNat ∧ start.toNat + length.toNat ≤ s.geometry.capacity
          let meets := ∃ (q : RegionIx), q ≠ 0 ∧ q ≠ r ∧ s.work.regions[q].enabled = true
            ∧ ∃ y, s.work.regions[q].extent = some y ∧ start.toNat < y.start + y.length
              ∧ y.start < start.toNat + length.toNat
          (r ≠ 0 → ¬ inPart → refused .range)
          ∧ (r ≠ 0 → inPart → meets → refused .overlap)
          ∧ (r = 0 ∨ inPart ∧ ¬ meets →
            let f : RegionFields := ⟨if r = 0 then none else some ⟨start.toNat, length.toNat⟩,
              rightOf pr, rightOf pw, cl != 0, ab != 0⟩
            let fixed := x.ratchets.fixedBounds = true ∧ f.extent ≠ x.extent
              ∨ x.ratchets.fixedFlags = true ∧ (x.conceal = true ∧ cl = 0 ∨ x.absorb = true ∧ ab = 0)
            (fixed → refused .ratcheted)
            ∧ (¬ fixed → x.enabled = true → s.holds .management = false → ∃ t, request = .next t
              ∧ State.Submitted { s.working with define := some ⟨id, r, .change f⟩ } t
                  (.regionDefinition ⟨id, r, .change f⟩))
            ∧ (¬ fixed → x.enabled = false →
              (s.keys[r].highestDrawn = lastGeneration → refused .range)
              ∧ (s.keys[r].highestDrawn ≠ lastGeneration → s.random.queue = [] →
                request = .next { s.working with
                  define := some ⟨id, r, .enabling f⟩
                  keys := s.keys.set r { s.keys[r] with highestDrawn := s.keys[r].highestDrawn + 1 }
                  random := { s.random with
                    queue := [.key r (s.keys[r].highestDrawn + 1) .enabling] } })))))))
  ∧ (∀ (s : State) (mask : BitVec 16) (rs : RegionRatchets) (ds : DeviceRatchets) (b : BitVec 8),
    s.TakesAdministrator →
    let request := exec (.ratchet mask (regionSetByte rs) (deviceSetByte ds)) s
    let bad := rs.fixedBounds = true ∧ mask.getLsbD 0 = true
      ∨ rs ≠ ⟨false, false, false, false⟩ ∧ mask = 0
    let disabling := ∃ d, s.define = some d ∧ d.kind = .disabling
    let known := ∀ r : RegionIx, mask.getLsbD r.val = true → s.work.regions[r].enabled = true
    let adds := (∃ r : RegionIx, mask.getLsbD r.val = true
        ∧ s.work.regions[r].ratchets.union rs ≠ s.work.regions[r].ratchets)
      ∨ s.work.deviceRatchets.union ds ≠ s.work.deviceRatchets
    (15 < b.toNat →
      exec (.ratchet mask b (deviceSetByte ds)) s = .next (s.answered 0x0A .badRequest []))
    ∧ (7 < b.toNat →
      exec (.ratchet mask (regionSetByte rs) b) s = .next (s.answered 0x0A .badRequest []))
    ∧ (bad → request = .next (s.answered 0x0A .badRequest []))
    ∧ (¬ bad → disabling → request = .next (s.answered 0x0A .busy []))
    ∧ (¬ bad → ¬ disabling → ¬ known → request = .next (s.answered 0x0A .notFound []))
    ∧ (¬ bad → ¬ disabling → known → ¬ adds →
      request = .next (s.answered 0x0A .done (s.ratchetSets mask)))
    ∧ (¬ bad → ¬ disabling → known → adds → s.holds .management = false → ∃ t, request = .next t
      ∧ State.Submitted s.working t (.ratchet s.nextRequest mask rs ds)))
  ∧ (∀ (s : State) (r : RegionIx) (start length : BitVec 48) (pr pw cl ab : BitVec 8),
    s.TakesAdministrator → r ≠ 0 → s.Calm → s.StoreStill → s.store.deferred = [] →
    s.holds .management = false → s.define = none → s.response.running = none →
    s.work.regions[r].enabled = true → s.work.regions[r].ratchets.fixedBounds = false →
    s.keys[r].highestDrawn ≠ lastGeneration →
    let g := s.keys[r].highestDrawn + 1
    let begun : State := { s.working with
      define := some ⟨s.nextRequest, r, .disabling⟩
      regions := s.regions.set r ⟨.locked, .locked, true, s.regions[r].admitted⟩ }
    let request := exec (.defineRegion (BitVec.ofNat 8 r.val) 0 start length pr pw cl ab) s
    (s.regions[r].admitted ≠ 0 →
      request = .next { begun with erases := [⟨r, .disabling, false, .begun⟩] })
    ∧ (s.regions[r].admitted = 0 → ∃ t, request = .next t
      ∧ State.Submitted { begun with
          erases := [⟨r, .disabling, false, .committing⟩]
          keys := s.keys.set r ⟨g, none⟩
          work := { s.work with keys := s.work.keys.set r ⟨g, none⟩ } } t
          (.regionDefinition ⟨s.nextRequest, r, .disabling⟩)))
  ∧ (∀ (s : State) (id : Nat) (r : RegionIx) (f : RegionFields),
    s.image (.regionDefinition ⟨id, r, .enabling f⟩) = { s.stored with
      keys := s.stored.keys.set r s.work.keys[r]
      regions := s.stored.regions.set r ⟨true, f.extent, f.powerOnRead, f.powerOnWrite, f.conceal,
        f.absorb, .normal, s.work.regions[r].ratchets, 0⟩ }
    ∧ (s.work.regions[r].condition ≠ .scrubbing →
      s.image (.regionDefinition ⟨id, r, .change f⟩) = { s.stored with
        regions := s.stored.regions.set r { s.work.regions[r] with
          extent := f.extent, powerOnRead := f.powerOnRead, powerOnWrite := f.powerOnWrite
          conceal := f.conceal, absorb := f.absorb } })
    ∧ s.image (.regionDefinition ⟨id, r, .disabling⟩) = { s.stored with
        keys := s.stored.keys.set r s.work.keys[r]
        regions := s.stored.regions.set r { s.work.regions[r] with
          enabled := false, extent := none, condition := .unused } })
  ∧ ∀ (s : State) (d : DefineRequest), s.ResponseStill → s.startUp.phase ≠ .resuming →
    s.work.scrubList = [] → s.nextGrant = .nothing → s.define = some d →
    s.erases = (if d.kind = .disabling then [⟨d.region, .disabling, false, .committing⟩] else []) →
    s.management.current = some d.id →
    let r := d.region
    let unhold := s.regions.set r { s.regions[r] with eraseHold := false }
    (∀ image : Records, s.Writes (.regionDefinition d) image →
      let applied : RegionRecord := match d.kind with
        | .change f => { s.work.regions[r] with
            extent := f.extent, powerOnRead := f.powerOnRead, powerOnWrite := f.powerOnWrite
            conceal := f.conceal, absorb := f.absorb }
        | .enabling _ | .disabling => image.regions[r]
      let regions := s.work.regions.set r applied
      let s' : State := { s with
        sent := [], stored := image, store := emptyStore, define := none, erases := []
        work := { s.work with regions := regions }, boundary := boundaryOf regions }
      (∀ f, d.kind = .enabling f → ∃ t, exec .commitWriteEnd s = .next t
        ∧ t = { s' with
          regions := s.regions.set r ⟨.locked, .locked, false, 0⟩
          keys := s.keys.set r { s.keys[r] with loaded := none }
          management := s.replied 0x09 .done (t.summary r) })
      ∧ (∀ f, d.kind = .change f → exec .commitWriteEnd s = .next { s' with
          management := s.replied 0x09 .done [] })
      ∧ (d.kind = .disabling → exec .commitWriteEnd s = .next { s' with
          regions := unhold, management := s.replied 0x09 .done [] }))
    ∧ ∀ nanovolts : BitVec 32, s.MeetsEighthLow (.regionDefinition d) nanovolts →
      ∃ t, exec (.conversionEnd nanovolts) s = .next t
        ∧ t = { s with
          sent := [], store := emptyStore, holdup := t.holdup, define := none, erases := []
          work := { s.work with keys := match d.kind with
            | .change _ => s.work.keys
            | .enabling _ | .disabling => s.work.keys.set r s.stored.keys[r] }
          regions := if d.kind = .disabling then unhold else s.regions
          alerts := s.alerts.arrive ⟨.storeUnsafe, .high, none, none, some 4, s.time.stamp, 0⟩
          management := s.replied 0x09 .storeUnsafe [] }
        ∧ t.holdup.lowCount = 0

/-- An erase order of enabled regions is answered DONE in its taking event and enters the pending set as a
HIGH trigger of source ORDER with its level and mask; the reply carries the set of pending sources, ORDER among
them, and the running response's level; an empty mask or another level is BAD-REQUEST, a region not enabled
NOT-FOUND (R135, R144). What entering does to the pending set, for a trigger of any source here and in every
statement that names enterTrigger: one at level NONE is dropped; one of a source without an entry makes a new entry
with repeat count 0; one of a source with an entry merges into it, the level the higher of the two, the severity HIGH
if either is HIGH, the masks united, the repeat count one more, up to 255, and every other entry as it was; so the set
keeps at most one entry for each source (R135).
That the reply shows both as they stand before a free controller takes an entry is the model's reading
(notes/assumptions/37.md). -/
def Obligations.EraseOrderEntered : Prop :=
  (∀ (n : SourceIx) (level : Level) (severity : Severity) (mask : BitVec 16) (set : List PendingTrigger),
    let entered := enterTrigger n level severity mask set
    (level = .none → entered = set)
    ∧ (level ≠ .none → (∀ x ∈ set, x.source ≠ n) → entered = set ++ [⟨n, level, severity, mask, 0⟩])
    ∧ (∀ (before after : List PendingTrigger) (e : PendingTrigger), level ≠ .none →
      set = before ++ e :: after → e.source = n → (∀ x ∈ before ++ after, x.source ≠ n) →
      entered = before ++ ⟨n, if e.level.rank < level.rank then level else e.level,
          if e.severity = .high ∨ severity = .high then .high else .low, e.mask ||| mask,
          min 255 (e.repeats + 1)⟩ :: after)
    ∧ ((set.map PendingTrigger.source).Nodup → (entered.map PendingTrigger.source).Nodup))
  ∧ ∀ (s : State) (mask : BitVec 16) (level : BitVec 8), s.TakesAdministrator → s.Still →
    s.responseFree = false →
    ((mask = 0 ∨ (level ≠ 3 ∧ level ≠ 4)) →
      exec (.eraseOrder mask level) s = .next (s.answered 0x0C .badRequest []))
    ∧ (mask ≠ 0 → (level = 3 ∨ level = 4) →
      ((∃ r : RegionIx, mask.getLsbD r.val = true ∧ s.work.regions[r].enabled = false) →
        exec (.eraseOrder mask level) s = .next (s.answered 0x0C .notFound []))
      ∧ ((∀ r : RegionIx, mask.getLsbD r.val = true → s.work.regions[r].enabled = true) →
        ∃ sources : BitVec 16, exec (.eraseOrder mask level) s = .next
            { s.answered 0x0C .done (bytes16 sources ++ [levelByte (match s.response.running with
                | some R => R.level
                | none => .none)]) with
              response := { s.response with triggers :=
                (enterTrigger srcOrder (if level = 4 then .scrub else .erase) .high mask
                  s.response.triggers) } }
          ∧ ∀ k < 16, sources.getLsbD k = true ↔ k = 0 ∨ ∃ e ∈ s.response.triggers, e.source.val = k))

end
end

