-- ==== Sys2Proof/Laws/State.lean ====
section
/-! SUPPORT. Every plain update of the state, field by field: what each field reads as after it. -/

namespace Sys2Proof.Machine

variable (s : State)

/-! ### send -/

@[simp] theorem State.send_geometry (e : PortEvent) : (s.send e).geometry = s.geometry := rfl
@[simp] theorem State.send_fuses (e : PortEvent) : (s.send e).fuses = s.fuses := rfl
@[simp] theorem State.send_stored (e : PortEvent) : (s.send e).stored = s.stored := rfl
@[simp] theorem State.send_work (e : PortEvent) : (s.send e).work = s.work := rfl
@[simp] theorem State.send_regions (e : PortEvent) : (s.send e).regions = s.regions := rfl
@[simp] theorem State.send_boundary (e : PortEvent) : (s.send e).boundary = s.boundary := rfl
@[simp] theorem State.send_keys (e : PortEvent) : (s.send e).keys = s.keys := rfl
@[simp] theorem State.send_random (e : PortEvent) : (s.send e).random = s.random := rfl
@[simp] theorem State.send_transfers (e : PortEvent) : (s.send e).transfers = s.transfers := rfl
@[simp] theorem State.send_port (e : PortEvent) : (s.send e).port = s.port := rfl
@[simp] theorem State.send_credentials (e : PortEvent) : (s.send e).credentials = s.credentials := rfl
@[simp] theorem State.send_revertBackoff (e : PortEvent) : (s.send e).revertBackoff = s.revertBackoff := rfl
@[simp] theorem State.send_derivation (e : PortEvent) : (s.send e).derivation = s.derivation := rfl
@[simp] theorem State.send_startUp (e : PortEvent) : (s.send e).startUp = s.startUp := rfl
@[simp] theorem State.send_window (e : PortEvent) : (s.send e).window = s.window := rfl
@[simp] theorem State.send_tamper (e : PortEvent) : (s.send e).tamper = s.tamper := rfl
@[simp] theorem State.send_time (e : PortEvent) : (s.send e).time = s.time := rfl
@[simp] theorem State.send_deadlines (e : PortEvent) : (s.send e).deadlines = s.deadlines := rfl
@[simp] theorem State.send_response (e : PortEvent) : (s.send e).response = s.response := rfl
@[simp] theorem State.send_erases (e : PortEvent) : (s.send e).erases = s.erases := rfl
@[simp] theorem State.send_scrub (e : PortEvent) : (s.send e).scrub = s.scrub := rfl
@[simp] theorem State.send_define (e : PortEvent) : (s.send e).define = s.define := rfl
@[simp] theorem State.send_reverting (e : PortEvent) : (s.send e).reverting = s.reverting := rfl
@[simp] theorem State.send_revertRequest (e : PortEvent) : (s.send e).revertRequest = s.revertRequest := rfl
@[simp] theorem State.send_store (e : PortEvent) : (s.send e).store = s.store := rfl
@[simp] theorem State.send_holdup (e : PortEvent) : (s.send e).holdup = s.holdup := rfl
@[simp] theorem State.send_management (e : PortEvent) : (s.send e).management = s.management := rfl
@[simp] theorem State.send_alerts (e : PortEvent) : (s.send e).alerts = s.alerts := rfl
@[simp] theorem State.send_offered (e : PortEvent) : (s.send e).offered = s.offered := rfl
@[simp] theorem State.send_sent (e : PortEvent) : (s.send e).sent = s.sent ++ [e] := rfl
@[simp] theorem State.send_pending (e : PortEvent) : (s.send e).pending = s.pending := rfl

/-! ### quiet -/

@[simp] theorem State.quiet_geometry : (s.quiet).geometry = s.geometry := rfl
@[simp] theorem State.quiet_fuses : (s.quiet).fuses = s.fuses := rfl
@[simp] theorem State.quiet_stored : (s.quiet).stored = s.stored := rfl
@[simp] theorem State.quiet_work : (s.quiet).work = s.work := rfl
@[simp] theorem State.quiet_regions : (s.quiet).regions = s.regions := rfl
@[simp] theorem State.quiet_boundary : (s.quiet).boundary = s.boundary := rfl
@[simp] theorem State.quiet_keys : (s.quiet).keys = s.keys := rfl
@[simp] theorem State.quiet_random : (s.quiet).random = s.random := rfl
@[simp] theorem State.quiet_transfers : (s.quiet).transfers = s.transfers := rfl
@[simp] theorem State.quiet_port : (s.quiet).port = s.port := rfl
@[simp] theorem State.quiet_credentials : (s.quiet).credentials = s.credentials := rfl
@[simp] theorem State.quiet_revertBackoff : (s.quiet).revertBackoff = s.revertBackoff := rfl
@[simp] theorem State.quiet_derivation : (s.quiet).derivation = s.derivation := rfl
@[simp] theorem State.quiet_startUp : (s.quiet).startUp = s.startUp := rfl
@[simp] theorem State.quiet_window : (s.quiet).window = s.window := rfl
@[simp] theorem State.quiet_tamper : (s.quiet).tamper = s.tamper := rfl
@[simp] theorem State.quiet_time : (s.quiet).time = s.time := rfl
@[simp] theorem State.quiet_deadlines : (s.quiet).deadlines = s.deadlines := rfl
@[simp] theorem State.quiet_response : (s.quiet).response = s.response := rfl
@[simp] theorem State.quiet_erases : (s.quiet).erases = s.erases := rfl
@[simp] theorem State.quiet_scrub : (s.quiet).scrub = s.scrub := rfl
@[simp] theorem State.quiet_define : (s.quiet).define = s.define := rfl
@[simp] theorem State.quiet_reverting : (s.quiet).reverting = s.reverting := rfl
@[simp] theorem State.quiet_revertRequest : (s.quiet).revertRequest = s.revertRequest := rfl
@[simp] theorem State.quiet_store : (s.quiet).store = s.store := rfl
@[simp] theorem State.quiet_holdup : (s.quiet).holdup = s.holdup := rfl
@[simp] theorem State.quiet_management : (s.quiet).management = s.management := rfl
@[simp] theorem State.quiet_alerts : (s.quiet).alerts = s.alerts := rfl
@[simp] theorem State.quiet_offered : (s.quiet).offered = s.offered := rfl
@[simp] theorem State.quiet_sent : (s.quiet).sent = [] := rfl
@[simp] theorem State.quiet_pending : (s.quiet).pending = s.pending := rfl

/-! ### alert -/

@[simp] theorem State.alert_geometry (k : AlertKind) (v : Severity) (o : Option SourceIx) (m : Option (BitVec 16)) (n : Option Nat) (p : Nat) :
    (s.alert k v o m n p).geometry = s.geometry := rfl
@[simp] theorem State.alert_fuses (k : AlertKind) (v : Severity) (o : Option SourceIx) (m : Option (BitVec 16)) (n : Option Nat) (p : Nat) :
    (s.alert k v o m n p).fuses = s.fuses := rfl
@[simp] theorem State.alert_stored (k : AlertKind) (v : Severity) (o : Option SourceIx) (m : Option (BitVec 16)) (n : Option Nat) (p : Nat) :
    (s.alert k v o m n p).stored = s.stored := rfl
@[simp] theorem State.alert_work (k : AlertKind) (v : Severity) (o : Option SourceIx) (m : Option (BitVec 16)) (n : Option Nat) (p : Nat) :
    (s.alert k v o m n p).work = s.work := rfl
@[simp] theorem State.alert_regions (k : AlertKind) (v : Severity) (o : Option SourceIx) (m : Option (BitVec 16)) (n : Option Nat) (p : Nat) :
    (s.alert k v o m n p).regions = s.regions := rfl
@[simp] theorem State.alert_boundary (k : AlertKind) (v : Severity) (o : Option SourceIx) (m : Option (BitVec 16)) (n : Option Nat) (p : Nat) :
    (s.alert k v o m n p).boundary = s.boundary := rfl
@[simp] theorem State.alert_keys (k : AlertKind) (v : Severity) (o : Option SourceIx) (m : Option (BitVec 16)) (n : Option Nat) (p : Nat) :
    (s.alert k v o m n p).keys = s.keys := rfl
@[simp] theorem State.alert_random (k : AlertKind) (v : Severity) (o : Option SourceIx) (m : Option (BitVec 16)) (n : Option Nat) (p : Nat) :
    (s.alert k v o m n p).random = s.random := rfl
@[simp] theorem State.alert_transfers (k : AlertKind) (v : Severity) (o : Option SourceIx) (m : Option (BitVec 16)) (n : Option Nat) (p : Nat) :
    (s.alert k v o m n p).transfers = s.transfers := rfl
@[simp] theorem State.alert_port (k : AlertKind) (v : Severity) (o : Option SourceIx) (m : Option (BitVec 16)) (n : Option Nat) (p : Nat) :
    (s.alert k v o m n p).port = s.port := rfl
@[simp] theorem State.alert_credentials (k : AlertKind) (v : Severity) (o : Option SourceIx) (m : Option (BitVec 16)) (n : Option Nat) (p : Nat) :
    (s.alert k v o m n p).credentials = s.credentials := rfl
@[simp] theorem State.alert_revertBackoff (k : AlertKind) (v : Severity) (o : Option SourceIx) (m : Option (BitVec 16)) (n : Option Nat) (p : Nat) :
    (s.alert k v o m n p).revertBackoff = s.revertBackoff := rfl
@[simp] theorem State.alert_derivation (k : AlertKind) (v : Severity) (o : Option SourceIx) (m : Option (BitVec 16)) (n : Option Nat) (p : Nat) :
    (s.alert k v o m n p).derivation = s.derivation := rfl
@[simp] theorem State.alert_startUp (k : AlertKind) (v : Severity) (o : Option SourceIx) (m : Option (BitVec 16)) (n : Option Nat) (p : Nat) :
    (s.alert k v o m n p).startUp = s.startUp := rfl
@[simp] theorem State.alert_window (k : AlertKind) (v : Severity) (o : Option SourceIx) (m : Option (BitVec 16)) (n : Option Nat) (p : Nat) :
    (s.alert k v o m n p).window = s.window := rfl
@[simp] theorem State.alert_tamper (k : AlertKind) (v : Severity) (o : Option SourceIx) (m : Option (BitVec 16)) (n : Option Nat) (p : Nat) :
    (s.alert k v o m n p).tamper = s.tamper := rfl
@[simp] theorem State.alert_time (k : AlertKind) (v : Severity) (o : Option SourceIx) (m : Option (BitVec 16)) (n : Option Nat) (p : Nat) :
    (s.alert k v o m n p).time = s.time := rfl
@[simp] theorem State.alert_deadlines (k : AlertKind) (v : Severity) (o : Option SourceIx) (m : Option (BitVec 16)) (n : Option Nat) (p : Nat) :
    (s.alert k v o m n p).deadlines = s.deadlines := rfl
@[simp] theorem State.alert_response (k : AlertKind) (v : Severity) (o : Option SourceIx) (m : Option (BitVec 16)) (n : Option Nat) (p : Nat) :
    (s.alert k v o m n p).response = s.response := rfl
@[simp] theorem State.alert_erases (k : AlertKind) (v : Severity) (o : Option SourceIx) (m : Option (BitVec 16)) (n : Option Nat) (p : Nat) :
    (s.alert k v o m n p).erases = s.erases := rfl
@[simp] theorem State.alert_scrub (k : AlertKind) (v : Severity) (o : Option SourceIx) (m : Option (BitVec 16)) (n : Option Nat) (p : Nat) :
    (s.alert k v o m n p).scrub = s.scrub := rfl
@[simp] theorem State.alert_define (k : AlertKind) (v : Severity) (o : Option SourceIx) (m : Option (BitVec 16)) (n : Option Nat) (p : Nat) :
    (s.alert k v o m n p).define = s.define := rfl
@[simp] theorem State.alert_reverting (k : AlertKind) (v : Severity) (o : Option SourceIx) (m : Option (BitVec 16)) (n : Option Nat) (p : Nat) :
    (s.alert k v o m n p).reverting = s.reverting := rfl
@[simp] theorem State.alert_revertRequest (k : AlertKind) (v : Severity) (o : Option SourceIx) (m : Option (BitVec 16)) (n : Option Nat) (p : Nat) :
    (s.alert k v o m n p).revertRequest = s.revertRequest := rfl
@[simp] theorem State.alert_store (k : AlertKind) (v : Severity) (o : Option SourceIx) (m : Option (BitVec 16)) (n : Option Nat) (p : Nat) :
    (s.alert k v o m n p).store = s.store := rfl
@[simp] theorem State.alert_holdup (k : AlertKind) (v : Severity) (o : Option SourceIx) (m : Option (BitVec 16)) (n : Option Nat) (p : Nat) :
    (s.alert k v o m n p).holdup = s.holdup := rfl
@[simp] theorem State.alert_management (k : AlertKind) (v : Severity) (o : Option SourceIx) (m : Option (BitVec 16)) (n : Option Nat) (p : Nat) :
    (s.alert k v o m n p).management = s.management := rfl
@[simp] theorem State.alert_alerts (k : AlertKind) (v : Severity) (o : Option SourceIx) (m : Option (BitVec 16)) (n : Option Nat) (p : Nat) :
    (s.alert k v o m n p).alerts = s.alerts.arrive ⟨k, v, o, m, n, s.time.stamp, p⟩ := rfl
@[simp] theorem State.alert_offered (k : AlertKind) (v : Severity) (o : Option SourceIx) (m : Option (BitVec 16)) (n : Option Nat) (p : Nat) :
    (s.alert k v o m n p).offered = s.offered := rfl
@[simp] theorem State.alert_sent (k : AlertKind) (v : Severity) (o : Option SourceIx) (m : Option (BitVec 16)) (n : Option Nat) (p : Nat) :
    (s.alert k v o m n p).sent = s.sent := rfl
@[simp] theorem State.alert_pending (k : AlertKind) (v : Severity) (o : Option SourceIx) (m : Option (BitVec 16)) (n : Option Nat) (p : Nat) :
    (s.alert k v o m n p).pending = s.pending := rfl

/-! ### setRegion -/

@[simp] theorem State.setRegion_geometry (r : RegionIx) (x : RegionRecord) :
    (s.setRegion r x).geometry = s.geometry := rfl
@[simp] theorem State.setRegion_fuses (r : RegionIx) (x : RegionRecord) :
    (s.setRegion r x).fuses = s.fuses := rfl
@[simp] theorem State.setRegion_stored (r : RegionIx) (x : RegionRecord) :
    (s.setRegion r x).stored = s.stored := rfl
@[simp] theorem State.setRegion_work (r : RegionIx) (x : RegionRecord) :
    (s.setRegion r x).work = { s.work with regions := s.work.regions.set r x } := rfl
@[simp] theorem State.setRegion_regions (r : RegionIx) (x : RegionRecord) :
    (s.setRegion r x).regions = s.regions := rfl
@[simp] theorem State.setRegion_boundary (r : RegionIx) (x : RegionRecord) :
    (s.setRegion r x).boundary = s.boundary := rfl
@[simp] theorem State.setRegion_keys (r : RegionIx) (x : RegionRecord) :
    (s.setRegion r x).keys = s.keys := rfl
@[simp] theorem State.setRegion_random (r : RegionIx) (x : RegionRecord) :
    (s.setRegion r x).random = s.random := rfl
@[simp] theorem State.setRegion_transfers (r : RegionIx) (x : RegionRecord) :
    (s.setRegion r x).transfers = s.transfers := rfl
@[simp] theorem State.setRegion_port (r : RegionIx) (x : RegionRecord) :
    (s.setRegion r x).port = s.port := rfl
@[simp] theorem State.setRegion_credentials (r : RegionIx) (x : RegionRecord) :
    (s.setRegion r x).credentials = s.credentials := rfl
@[simp] theorem State.setRegion_revertBackoff (r : RegionIx) (x : RegionRecord) :
    (s.setRegion r x).revertBackoff = s.revertBackoff := rfl
@[simp] theorem State.setRegion_derivation (r : RegionIx) (x : RegionRecord) :
    (s.setRegion r x).derivation = s.derivation := rfl
@[simp] theorem State.setRegion_startUp (r : RegionIx) (x : RegionRecord) :
    (s.setRegion r x).startUp = s.startUp := rfl
@[simp] theorem State.setRegion_window (r : RegionIx) (x : RegionRecord) :
    (s.setRegion r x).window = s.window := rfl
@[simp] theorem State.setRegion_tamper (r : RegionIx) (x : RegionRecord) :
    (s.setRegion r x).tamper = s.tamper := rfl
@[simp] theorem State.setRegion_time (r : RegionIx) (x : RegionRecord) :
    (s.setRegion r x).time = s.time := rfl
@[simp] theorem State.setRegion_deadlines (r : RegionIx) (x : RegionRecord) :
    (s.setRegion r x).deadlines = s.deadlines := rfl
@[simp] theorem State.setRegion_response (r : RegionIx) (x : RegionRecord) :
    (s.setRegion r x).response = s.response := rfl
@[simp] theorem State.setRegion_erases (r : RegionIx) (x : RegionRecord) :
    (s.setRegion r x).erases = s.erases := rfl
@[simp] theorem State.setRegion_scrub (r : RegionIx) (x : RegionRecord) :
    (s.setRegion r x).scrub = s.scrub := rfl
@[simp] theorem State.setRegion_define (r : RegionIx) (x : RegionRecord) :
    (s.setRegion r x).define = s.define := rfl
@[simp] theorem State.setRegion_reverting (r : RegionIx) (x : RegionRecord) :
    (s.setRegion r x).reverting = s.reverting := rfl
@[simp] theorem State.setRegion_revertRequest (r : RegionIx) (x : RegionRecord) :
    (s.setRegion r x).revertRequest = s.revertRequest := rfl
@[simp] theorem State.setRegion_store (r : RegionIx) (x : RegionRecord) :
    (s.setRegion r x).store = s.store := rfl
@[simp] theorem State.setRegion_holdup (r : RegionIx) (x : RegionRecord) :
    (s.setRegion r x).holdup = s.holdup := rfl
@[simp] theorem State.setRegion_management (r : RegionIx) (x : RegionRecord) :
    (s.setRegion r x).management = s.management := rfl
@[simp] theorem State.setRegion_alerts (r : RegionIx) (x : RegionRecord) :
    (s.setRegion r x).alerts = s.alerts := rfl
@[simp] theorem State.setRegion_offered (r : RegionIx) (x : RegionRecord) :
    (s.setRegion r x).offered = s.offered := rfl
@[simp] theorem State.setRegion_sent (r : RegionIx) (x : RegionRecord) :
    (s.setRegion r x).sent = s.sent := rfl
@[simp] theorem State.setRegion_pending (r : RegionIx) (x : RegionRecord) :
    (s.setRegion r x).pending = s.pending := rfl

/-! ### setStatus -/

@[simp] theorem State.setStatus_geometry (r : RegionIx) (x : RegionStatus) :
    (s.setStatus r x).geometry = s.geometry := rfl
@[simp] theorem State.setStatus_fuses (r : RegionIx) (x : RegionStatus) :
    (s.setStatus r x).fuses = s.fuses := rfl
@[simp] theorem State.setStatus_stored (r : RegionIx) (x : RegionStatus) :
    (s.setStatus r x).stored = s.stored := rfl
@[simp] theorem State.setStatus_work (r : RegionIx) (x : RegionStatus) :
    (s.setStatus r x).work = s.work := rfl
@[simp] theorem State.setStatus_regions (r : RegionIx) (x : RegionStatus) :
    (s.setStatus r x).regions = s.regions.set r x := rfl
@[simp] theorem State.setStatus_boundary (r : RegionIx) (x : RegionStatus) :
    (s.setStatus r x).boundary = s.boundary := rfl
@[simp] theorem State.setStatus_keys (r : RegionIx) (x : RegionStatus) :
    (s.setStatus r x).keys = s.keys := rfl
@[simp] theorem State.setStatus_random (r : RegionIx) (x : RegionStatus) :
    (s.setStatus r x).random = s.random := rfl
@[simp] theorem State.setStatus_transfers (r : RegionIx) (x : RegionStatus) :
    (s.setStatus r x).transfers = s.transfers := rfl
@[simp] theorem State.setStatus_port (r : RegionIx) (x : RegionStatus) :
    (s.setStatus r x).port = s.port := rfl
@[simp] theorem State.setStatus_credentials (r : RegionIx) (x : RegionStatus) :
    (s.setStatus r x).credentials = s.credentials := rfl
@[simp] theorem State.setStatus_revertBackoff (r : RegionIx) (x : RegionStatus) :
    (s.setStatus r x).revertBackoff = s.revertBackoff := rfl
@[simp] theorem State.setStatus_derivation (r : RegionIx) (x : RegionStatus) :
    (s.setStatus r x).derivation = s.derivation := rfl
@[simp] theorem State.setStatus_startUp (r : RegionIx) (x : RegionStatus) :
    (s.setStatus r x).startUp = s.startUp := rfl
@[simp] theorem State.setStatus_window (r : RegionIx) (x : RegionStatus) :
    (s.setStatus r x).window = s.window := rfl
@[simp] theorem State.setStatus_tamper (r : RegionIx) (x : RegionStatus) :
    (s.setStatus r x).tamper = s.tamper := rfl
@[simp] theorem State.setStatus_time (r : RegionIx) (x : RegionStatus) :
    (s.setStatus r x).time = s.time := rfl
@[simp] theorem State.setStatus_deadlines (r : RegionIx) (x : RegionStatus) :
    (s.setStatus r x).deadlines = s.deadlines := rfl
@[simp] theorem State.setStatus_response (r : RegionIx) (x : RegionStatus) :
    (s.setStatus r x).response = s.response := rfl
@[simp] theorem State.setStatus_erases (r : RegionIx) (x : RegionStatus) :
    (s.setStatus r x).erases = s.erases := rfl
@[simp] theorem State.setStatus_scrub (r : RegionIx) (x : RegionStatus) :
    (s.setStatus r x).scrub = s.scrub := rfl
@[simp] theorem State.setStatus_define (r : RegionIx) (x : RegionStatus) :
    (s.setStatus r x).define = s.define := rfl
@[simp] theorem State.setStatus_reverting (r : RegionIx) (x : RegionStatus) :
    (s.setStatus r x).reverting = s.reverting := rfl
@[simp] theorem State.setStatus_revertRequest (r : RegionIx) (x : RegionStatus) :
    (s.setStatus r x).revertRequest = s.revertRequest := rfl
@[simp] theorem State.setStatus_store (r : RegionIx) (x : RegionStatus) :
    (s.setStatus r x).store = s.store := rfl
@[simp] theorem State.setStatus_holdup (r : RegionIx) (x : RegionStatus) :
    (s.setStatus r x).holdup = s.holdup := rfl
@[simp] theorem State.setStatus_management (r : RegionIx) (x : RegionStatus) :
    (s.setStatus r x).management = s.management := rfl
@[simp] theorem State.setStatus_alerts (r : RegionIx) (x : RegionStatus) :
    (s.setStatus r x).alerts = s.alerts := rfl
@[simp] theorem State.setStatus_offered (r : RegionIx) (x : RegionStatus) :
    (s.setStatus r x).offered = s.offered := rfl
@[simp] theorem State.setStatus_sent (r : RegionIx) (x : RegionStatus) :
    (s.setStatus r x).sent = s.sent := rfl
@[simp] theorem State.setStatus_pending (r : RegionIx) (x : RegionStatus) :
    (s.setStatus r x).pending = s.pending := rfl

/-! ### setKey -/

@[simp] theorem State.setKey_geometry (r : RegionIx) (x : KeyRecord) :
    (s.setKey r x).geometry = s.geometry := rfl
@[simp] theorem State.setKey_fuses (r : RegionIx) (x : KeyRecord) : (s.setKey r x).fuses = s.fuses := rfl
@[simp] theorem State.setKey_stored (r : RegionIx) (x : KeyRecord) : (s.setKey r x).stored = s.stored := rfl
@[simp] theorem State.setKey_work (r : RegionIx) (x : KeyRecord) :
    (s.setKey r x).work = { s.work with keys := s.work.keys.set r x } := rfl
@[simp] theorem State.setKey_regions (r : RegionIx) (x : KeyRecord) :
    (s.setKey r x).regions = s.regions := rfl
@[simp] theorem State.setKey_boundary (r : RegionIx) (x : KeyRecord) :
    (s.setKey r x).boundary = s.boundary := rfl
@[simp] theorem State.setKey_keys (r : RegionIx) (x : KeyRecord) : (s.setKey r x).keys = s.keys := rfl
@[simp] theorem State.setKey_random (r : RegionIx) (x : KeyRecord) : (s.setKey r x).random = s.random := rfl
@[simp] theorem State.setKey_transfers (r : RegionIx) (x : KeyRecord) :
    (s.setKey r x).transfers = s.transfers := rfl
@[simp] theorem State.setKey_port (r : RegionIx) (x : KeyRecord) : (s.setKey r x).port = s.port := rfl
@[simp] theorem State.setKey_credentials (r : RegionIx) (x : KeyRecord) :
    (s.setKey r x).credentials = s.credentials := rfl
@[simp] theorem State.setKey_revertBackoff (r : RegionIx) (x : KeyRecord) :
    (s.setKey r x).revertBackoff = s.revertBackoff := rfl
@[simp] theorem State.setKey_derivation (r : RegionIx) (x : KeyRecord) :
    (s.setKey r x).derivation = s.derivation := rfl
@[simp] theorem State.setKey_startUp (r : RegionIx) (x : KeyRecord) :
    (s.setKey r x).startUp = s.startUp := rfl
@[simp] theorem State.setKey_window (r : RegionIx) (x : KeyRecord) : (s.setKey r x).window = s.window := rfl
@[simp] theorem State.setKey_tamper (r : RegionIx) (x : KeyRecord) : (s.setKey r x).tamper = s.tamper := rfl
@[simp] theorem State.setKey_time (r : RegionIx) (x : KeyRecord) : (s.setKey r x).time = s.time := rfl
@[simp] theorem State.setKey_deadlines (r : RegionIx) (x : KeyRecord) :
    (s.setKey r x).deadlines = s.deadlines := rfl
@[simp] theorem State.setKey_response (r : RegionIx) (x : KeyRecord) :
    (s.setKey r x).response = s.response := rfl
@[simp] theorem State.setKey_erases (r : RegionIx) (x : KeyRecord) : (s.setKey r x).erases = s.erases := rfl
@[simp] theorem State.setKey_scrub (r : RegionIx) (x : KeyRecord) : (s.setKey r x).scrub = s.scrub := rfl
@[simp] theorem State.setKey_define (r : RegionIx) (x : KeyRecord) : (s.setKey r x).define = s.define := rfl
@[simp] theorem State.setKey_reverting (r : RegionIx) (x : KeyRecord) :
    (s.setKey r x).reverting = s.reverting := rfl
@[simp] theorem State.setKey_revertRequest (r : RegionIx) (x : KeyRecord) :
    (s.setKey r x).revertRequest = s.revertRequest := rfl
@[simp] theorem State.setKey_store (r : RegionIx) (x : KeyRecord) : (s.setKey r x).store = s.store := rfl
@[simp] theorem State.setKey_holdup (r : RegionIx) (x : KeyRecord) : (s.setKey r x).holdup = s.holdup := rfl
@[simp] theorem State.setKey_management (r : RegionIx) (x : KeyRecord) :
    (s.setKey r x).management = s.management := rfl
@[simp] theorem State.setKey_alerts (r : RegionIx) (x : KeyRecord) : (s.setKey r x).alerts = s.alerts := rfl
@[simp] theorem State.setKey_offered (r : RegionIx) (x : KeyRecord) :
    (s.setKey r x).offered = s.offered := rfl
@[simp] theorem State.setKey_sent (r : RegionIx) (x : KeyRecord) : (s.setKey r x).sent = s.sent := rfl
@[simp] theorem State.setKey_pending (r : RegionIx) (x : KeyRecord) :
    (s.setKey r x).pending = s.pending := rfl

/-! ### setSlotKey -/

@[simp] theorem State.setSlotKey_geometry (r : RegionIx) (x : KeySlot) :
    (s.setSlotKey r x).geometry = s.geometry := rfl
@[simp] theorem State.setSlotKey_fuses (r : RegionIx) (x : KeySlot) :
    (s.setSlotKey r x).fuses = s.fuses := rfl
@[simp] theorem State.setSlotKey_stored (r : RegionIx) (x : KeySlot) :
    (s.setSlotKey r x).stored = s.stored := rfl
@[simp] theorem State.setSlotKey_work (r : RegionIx) (x : KeySlot) : (s.setSlotKey r x).work = s.work := rfl
@[simp] theorem State.setSlotKey_regions (r : RegionIx) (x : KeySlot) :
    (s.setSlotKey r x).regions = s.regions := rfl
@[simp] theorem State.setSlotKey_boundary (r : RegionIx) (x : KeySlot) :
    (s.setSlotKey r x).boundary = s.boundary := rfl
@[simp] theorem State.setSlotKey_keys (r : RegionIx) (x : KeySlot) :
    (s.setSlotKey r x).keys = s.keys.set r x := rfl
@[simp] theorem State.setSlotKey_random (r : RegionIx) (x : KeySlot) :
    (s.setSlotKey r x).random = s.random := rfl
@[simp] theorem State.setSlotKey_transfers (r : RegionIx) (x : KeySlot) :
    (s.setSlotKey r x).transfers = s.transfers := rfl
@[simp] theorem State.setSlotKey_port (r : RegionIx) (x : KeySlot) : (s.setSlotKey r x).port = s.port := rfl
@[simp] theorem State.setSlotKey_credentials (r : RegionIx) (x : KeySlot) :
    (s.setSlotKey r x).credentials = s.credentials := rfl
@[simp] theorem State.setSlotKey_revertBackoff (r : RegionIx) (x : KeySlot) :
    (s.setSlotKey r x).revertBackoff = s.revertBackoff := rfl
@[simp] theorem State.setSlotKey_derivation (r : RegionIx) (x : KeySlot) :
    (s.setSlotKey r x).derivation = s.derivation := rfl
@[simp] theorem State.setSlotKey_startUp (r : RegionIx) (x : KeySlot) :
    (s.setSlotKey r x).startUp = s.startUp := rfl
@[simp] theorem State.setSlotKey_window (r : RegionIx) (x : KeySlot) :
    (s.setSlotKey r x).window = s.window := rfl
@[simp] theorem State.setSlotKey_tamper (r : RegionIx) (x : KeySlot) :
    (s.setSlotKey r x).tamper = s.tamper := rfl
@[simp] theorem State.setSlotKey_time (r : RegionIx) (x : KeySlot) : (s.setSlotKey r x).time = s.time := rfl
@[simp] theorem State.setSlotKey_deadlines (r : RegionIx) (x : KeySlot) :
    (s.setSlotKey r x).deadlines = s.deadlines := rfl
@[simp] theorem State.setSlotKey_response (r : RegionIx) (x : KeySlot) :
    (s.setSlotKey r x).response = s.response := rfl
@[simp] theorem State.setSlotKey_erases (r : RegionIx) (x : KeySlot) :
    (s.setSlotKey r x).erases = s.erases := rfl
@[simp] theorem State.setSlotKey_scrub (r : RegionIx) (x : KeySlot) :
    (s.setSlotKey r x).scrub = s.scrub := rfl
@[simp] theorem State.setSlotKey_define (r : RegionIx) (x : KeySlot) :
    (s.setSlotKey r x).define = s.define := rfl
@[simp] theorem State.setSlotKey_reverting (r : RegionIx) (x : KeySlot) :
    (s.setSlotKey r x).reverting = s.reverting := rfl
@[simp] theorem State.setSlotKey_revertRequest (r : RegionIx) (x : KeySlot) :
    (s.setSlotKey r x).revertRequest = s.revertRequest := rfl
@[simp] theorem State.setSlotKey_store (r : RegionIx) (x : KeySlot) :
    (s.setSlotKey r x).store = s.store := rfl
@[simp] theorem State.setSlotKey_holdup (r : RegionIx) (x : KeySlot) :
    (s.setSlotKey r x).holdup = s.holdup := rfl
@[simp] theorem State.setSlotKey_management (r : RegionIx) (x : KeySlot) :
    (s.setSlotKey r x).management = s.management := rfl
@[simp] theorem State.setSlotKey_alerts (r : RegionIx) (x : KeySlot) :
    (s.setSlotKey r x).alerts = s.alerts := rfl
@[simp] theorem State.setSlotKey_offered (r : RegionIx) (x : KeySlot) :
    (s.setSlotKey r x).offered = s.offered := rfl
@[simp] theorem State.setSlotKey_sent (r : RegionIx) (x : KeySlot) : (s.setSlotKey r x).sent = s.sent := rfl
@[simp] theorem State.setSlotKey_pending (r : RegionIx) (x : KeySlot) :
    (s.setSlotKey r x).pending = s.pending := rfl

/-! ### setCredential -/

@[simp] theorem State.setCredential_geometry (c : CredIx) (x : CredentialRecord) :
    (s.setCredential c x).geometry = s.geometry := rfl
@[simp] theorem State.setCredential_fuses (c : CredIx) (x : CredentialRecord) :
    (s.setCredential c x).fuses = s.fuses := rfl
@[simp] theorem State.setCredential_stored (c : CredIx) (x : CredentialRecord) :
    (s.setCredential c x).stored = s.stored := rfl
@[simp] theorem State.setCredential_work (c : CredIx) (x : CredentialRecord) :
    (s.setCredential c x).work = { s.work with credentials := s.work.credentials.set c x } := rfl
@[simp] theorem State.setCredential_regions (c : CredIx) (x : CredentialRecord) :
    (s.setCredential c x).regions = s.regions := rfl
@[simp] theorem State.setCredential_boundary (c : CredIx) (x : CredentialRecord) :
    (s.setCredential c x).boundary = s.boundary := rfl
@[simp] theorem State.setCredential_keys (c : CredIx) (x : CredentialRecord) :
    (s.setCredential c x).keys = s.keys := rfl
@[simp] theorem State.setCredential_random (c : CredIx) (x : CredentialRecord) :
    (s.setCredential c x).random = s.random := rfl
@[simp] theorem State.setCredential_transfers (c : CredIx) (x : CredentialRecord) :
    (s.setCredential c x).transfers = s.transfers := rfl
@[simp] theorem State.setCredential_port (c : CredIx) (x : CredentialRecord) :
    (s.setCredential c x).port = s.port := rfl
@[simp] theorem State.setCredential_credentials (c : CredIx) (x : CredentialRecord) :
    (s.setCredential c x).credentials = s.credentials := rfl
@[simp] theorem State.setCredential_revertBackoff (c : CredIx) (x : CredentialRecord) :
    (s.setCredential c x).revertBackoff = s.revertBackoff := rfl
@[simp] theorem State.setCredential_derivation (c : CredIx) (x : CredentialRecord) :
    (s.setCredential c x).derivation = s.derivation := rfl
@[simp] theorem State.setCredential_startUp (c : CredIx) (x : CredentialRecord) :
    (s.setCredential c x).startUp = s.startUp := rfl
@[simp] theorem State.setCredential_window (c : CredIx) (x : CredentialRecord) :
    (s.setCredential c x).window = s.window := rfl
@[simp] theorem State.setCredential_tamper (c : CredIx) (x : CredentialRecord) :
    (s.setCredential c x).tamper = s.tamper := rfl
@[simp] theorem State.setCredential_time (c : CredIx) (x : CredentialRecord) :
    (s.setCredential c x).time = s.time := rfl
@[simp] theorem State.setCredential_deadlines (c : CredIx) (x : CredentialRecord) :
    (s.setCredential c x).deadlines = s.deadlines := rfl
@[simp] theorem State.setCredential_response (c : CredIx) (x : CredentialRecord) :
    (s.setCredential c x).response = s.response := rfl
@[simp] theorem State.setCredential_erases (c : CredIx) (x : CredentialRecord) :
    (s.setCredential c x).erases = s.erases := rfl
@[simp] theorem State.setCredential_scrub (c : CredIx) (x : CredentialRecord) :
    (s.setCredential c x).scrub = s.scrub := rfl
@[simp] theorem State.setCredential_define (c : CredIx) (x : CredentialRecord) :
    (s.setCredential c x).define = s.define := rfl
@[simp] theorem State.setCredential_reverting (c : CredIx) (x : CredentialRecord) :
    (s.setCredential c x).reverting = s.reverting := rfl
@[simp] theorem State.setCredential_revertRequest (c : CredIx) (x : CredentialRecord) :
    (s.setCredential c x).revertRequest = s.revertRequest := rfl
@[simp] theorem State.setCredential_store (c : CredIx) (x : CredentialRecord) :
    (s.setCredential c x).store = s.store := rfl
@[simp] theorem State.setCredential_holdup (c : CredIx) (x : CredentialRecord) :
    (s.setCredential c x).holdup = s.holdup := rfl
@[simp] theorem State.setCredential_management (c : CredIx) (x : CredentialRecord) :
    (s.setCredential c x).management = s.management := rfl
@[simp] theorem State.setCredential_alerts (c : CredIx) (x : CredentialRecord) :
    (s.setCredential c x).alerts = s.alerts := rfl
@[simp] theorem State.setCredential_offered (c : CredIx) (x : CredentialRecord) :
    (s.setCredential c x).offered = s.offered := rfl
@[simp] theorem State.setCredential_sent (c : CredIx) (x : CredentialRecord) :
    (s.setCredential c x).sent = s.sent := rfl
@[simp] theorem State.setCredential_pending (c : CredIx) (x : CredentialRecord) :
    (s.setCredential c x).pending = s.pending := rfl

/-! ### setCredStatus -/

@[simp] theorem State.setCredStatus_geometry (c : CredIx) (x : CredentialStatus) :
    (s.setCredStatus c x).geometry = s.geometry := rfl
@[simp] theorem State.setCredStatus_fuses (c : CredIx) (x : CredentialStatus) :
    (s.setCredStatus c x).fuses = s.fuses := rfl
@[simp] theorem State.setCredStatus_stored (c : CredIx) (x : CredentialStatus) :
    (s.setCredStatus c x).stored = s.stored := rfl
@[simp] theorem State.setCredStatus_work (c : CredIx) (x : CredentialStatus) :
    (s.setCredStatus c x).work = s.work := rfl
@[simp] theorem State.setCredStatus_regions (c : CredIx) (x : CredentialStatus) :
    (s.setCredStatus c x).regions = s.regions := rfl
@[simp] theorem State.setCredStatus_boundary (c : CredIx) (x : CredentialStatus) :
    (s.setCredStatus c x).boundary = s.boundary := rfl
@[simp] theorem State.setCredStatus_keys (c : CredIx) (x : CredentialStatus) :
    (s.setCredStatus c x).keys = s.keys := rfl
@[simp] theorem State.setCredStatus_random (c : CredIx) (x : CredentialStatus) :
    (s.setCredStatus c x).random = s.random := rfl
@[simp] theorem State.setCredStatus_transfers (c : CredIx) (x : CredentialStatus) :
    (s.setCredStatus c x).transfers = s.transfers := rfl
@[simp] theorem State.setCredStatus_port (c : CredIx) (x : CredentialStatus) :
    (s.setCredStatus c x).port = s.port := rfl
@[simp] theorem State.setCredStatus_credentials (c : CredIx) (x : CredentialStatus) :
    (s.setCredStatus c x).credentials = s.credentials.set c x := rfl
@[simp] theorem State.setCredStatus_revertBackoff (c : CredIx) (x : CredentialStatus) :
    (s.setCredStatus c x).revertBackoff = s.revertBackoff := rfl
@[simp] theorem State.setCredStatus_derivation (c : CredIx) (x : CredentialStatus) :
    (s.setCredStatus c x).derivation = s.derivation := rfl
@[simp] theorem State.setCredStatus_startUp (c : CredIx) (x : CredentialStatus) :
    (s.setCredStatus c x).startUp = s.startUp := rfl
@[simp] theorem State.setCredStatus_window (c : CredIx) (x : CredentialStatus) :
    (s.setCredStatus c x).window = s.window := rfl
@[simp] theorem State.setCredStatus_tamper (c : CredIx) (x : CredentialStatus) :
    (s.setCredStatus c x).tamper = s.tamper := rfl
@[simp] theorem State.setCredStatus_time (c : CredIx) (x : CredentialStatus) :
    (s.setCredStatus c x).time = s.time := rfl
@[simp] theorem State.setCredStatus_deadlines (c : CredIx) (x : CredentialStatus) :
    (s.setCredStatus c x).deadlines = s.deadlines := rfl
@[simp] theorem State.setCredStatus_response (c : CredIx) (x : CredentialStatus) :
    (s.setCredStatus c x).response = s.response := rfl
@[simp] theorem State.setCredStatus_erases (c : CredIx) (x : CredentialStatus) :
    (s.setCredStatus c x).erases = s.erases := rfl
@[simp] theorem State.setCredStatus_scrub (c : CredIx) (x : CredentialStatus) :
    (s.setCredStatus c x).scrub = s.scrub := rfl
@[simp] theorem State.setCredStatus_define (c : CredIx) (x : CredentialStatus) :
    (s.setCredStatus c x).define = s.define := rfl
@[simp] theorem State.setCredStatus_reverting (c : CredIx) (x : CredentialStatus) :
    (s.setCredStatus c x).reverting = s.reverting := rfl
@[simp] theorem State.setCredStatus_revertRequest (c : CredIx) (x : CredentialStatus) :
    (s.setCredStatus c x).revertRequest = s.revertRequest := rfl
@[simp] theorem State.setCredStatus_store (c : CredIx) (x : CredentialStatus) :
    (s.setCredStatus c x).store = s.store := rfl
@[simp] theorem State.setCredStatus_holdup (c : CredIx) (x : CredentialStatus) :
    (s.setCredStatus c x).holdup = s.holdup := rfl
@[simp] theorem State.setCredStatus_management (c : CredIx) (x : CredentialStatus) :
    (s.setCredStatus c x).management = s.management := rfl
@[simp] theorem State.setCredStatus_alerts (c : CredIx) (x : CredentialStatus) :
    (s.setCredStatus c x).alerts = s.alerts := rfl
@[simp] theorem State.setCredStatus_offered (c : CredIx) (x : CredentialStatus) :
    (s.setCredStatus c x).offered = s.offered := rfl
@[simp] theorem State.setCredStatus_sent (c : CredIx) (x : CredentialStatus) :
    (s.setCredStatus c x).sent = s.sent := rfl
@[simp] theorem State.setCredStatus_pending (c : CredIx) (x : CredentialStatus) :
    (s.setCredStatus c x).pending = s.pending := rfl

/-! ### setSlot -/

@[simp] theorem State.setSlot_geometry (i : SlotIx) (x : Option SlotRecord) :
    (s.setSlot i x).geometry = s.geometry := rfl
@[simp] theorem State.setSlot_fuses (i : SlotIx) (x : Option SlotRecord) :
    (s.setSlot i x).fuses = s.fuses := rfl
@[simp] theorem State.setSlot_stored (i : SlotIx) (x : Option SlotRecord) :
    (s.setSlot i x).stored = s.stored := rfl
@[simp] theorem State.setSlot_work (i : SlotIx) (x : Option SlotRecord) : (s.setSlot i x).work = s.work := rfl
@[simp] theorem State.setSlot_regions (i : SlotIx) (x : Option SlotRecord) :
    (s.setSlot i x).regions = s.regions := rfl
@[simp] theorem State.setSlot_boundary (i : SlotIx) (x : Option SlotRecord) :
    (s.setSlot i x).boundary = s.boundary := rfl
@[simp] theorem State.setSlot_keys (i : SlotIx) (x : Option SlotRecord) : (s.setSlot i x).keys = s.keys := rfl
@[simp] theorem State.setSlot_random (i : SlotIx) (x : Option SlotRecord) :
    (s.setSlot i x).random = s.random := rfl
@[simp] theorem State.setSlot_transfers (i : SlotIx) (x : Option SlotRecord) :
    (s.setSlot i x).transfers = s.transfers := rfl
@[simp] theorem State.setSlot_port (i : SlotIx) (x : Option SlotRecord) :
    (s.setSlot i x).port = { s.port with slots := s.port.slots.set i x } := rfl
@[simp] theorem State.setSlot_credentials (i : SlotIx) (x : Option SlotRecord) :
    (s.setSlot i x).credentials = s.credentials := rfl
@[simp] theorem State.setSlot_revertBackoff (i : SlotIx) (x : Option SlotRecord) :
    (s.setSlot i x).revertBackoff = s.revertBackoff := rfl
@[simp] theorem State.setSlot_derivation (i : SlotIx) (x : Option SlotRecord) :
    (s.setSlot i x).derivation = s.derivation := rfl
@[simp] theorem State.setSlot_startUp (i : SlotIx) (x : Option SlotRecord) :
    (s.setSlot i x).startUp = s.startUp := rfl
@[simp] theorem State.setSlot_window (i : SlotIx) (x : Option SlotRecord) :
    (s.setSlot i x).window = s.window := rfl
@[simp] theorem State.setSlot_tamper (i : SlotIx) (x : Option SlotRecord) :
    (s.setSlot i x).tamper = s.tamper := rfl
@[simp] theorem State.setSlot_time (i : SlotIx) (x : Option SlotRecord) : (s.setSlot i x).time = s.time := rfl
@[simp] theorem State.setSlot_deadlines (i : SlotIx) (x : Option SlotRecord) :
    (s.setSlot i x).deadlines = s.deadlines := rfl
@[simp] theorem State.setSlot_response (i : SlotIx) (x : Option SlotRecord) :
    (s.setSlot i x).response = s.response := rfl
@[simp] theorem State.setSlot_erases (i : SlotIx) (x : Option SlotRecord) :
    (s.setSlot i x).erases = s.erases := rfl
@[simp] theorem State.setSlot_scrub (i : SlotIx) (x : Option SlotRecord) :
    (s.setSlot i x).scrub = s.scrub := rfl
@[simp] theorem State.setSlot_define (i : SlotIx) (x : Option SlotRecord) :
    (s.setSlot i x).define = s.define := rfl
@[simp] theorem State.setSlot_reverting (i : SlotIx) (x : Option SlotRecord) :
    (s.setSlot i x).reverting = s.reverting := rfl
@[simp] theorem State.setSlot_revertRequest (i : SlotIx) (x : Option SlotRecord) :
    (s.setSlot i x).revertRequest = s.revertRequest := rfl
@[simp] theorem State.setSlot_store (i : SlotIx) (x : Option SlotRecord) :
    (s.setSlot i x).store = s.store := rfl
@[simp] theorem State.setSlot_holdup (i : SlotIx) (x : Option SlotRecord) :
    (s.setSlot i x).holdup = s.holdup := rfl
@[simp] theorem State.setSlot_management (i : SlotIx) (x : Option SlotRecord) :
    (s.setSlot i x).management = s.management := rfl
@[simp] theorem State.setSlot_alerts (i : SlotIx) (x : Option SlotRecord) :
    (s.setSlot i x).alerts = s.alerts := rfl
@[simp] theorem State.setSlot_offered (i : SlotIx) (x : Option SlotRecord) :
    (s.setSlot i x).offered = s.offered := rfl
@[simp] theorem State.setSlot_sent (i : SlotIx) (x : Option SlotRecord) : (s.setSlot i x).sent = s.sent := rfl
@[simp] theorem State.setSlot_pending (i : SlotIx) (x : Option SlotRecord) :
    (s.setSlot i x).pending = s.pending := rfl

/-! ### setTransfer -/

@[simp] theorem State.setTransfer_geometry (t : Transfer) : (s.setTransfer t).geometry = s.geometry := rfl
@[simp] theorem State.setTransfer_fuses (t : Transfer) : (s.setTransfer t).fuses = s.fuses := rfl
@[simp] theorem State.setTransfer_stored (t : Transfer) : (s.setTransfer t).stored = s.stored := rfl
@[simp] theorem State.setTransfer_work (t : Transfer) : (s.setTransfer t).work = s.work := rfl
@[simp] theorem State.setTransfer_regions (t : Transfer) : (s.setTransfer t).regions = s.regions := rfl
@[simp] theorem State.setTransfer_boundary (t : Transfer) : (s.setTransfer t).boundary = s.boundary := rfl
@[simp] theorem State.setTransfer_keys (t : Transfer) : (s.setTransfer t).keys = s.keys := rfl
@[simp] theorem State.setTransfer_random (t : Transfer) : (s.setTransfer t).random = s.random := rfl
@[simp] theorem State.setTransfer_transfers (t : Transfer) :
    (s.setTransfer t).transfers = s.transfers.map fun x => if x.tag = t.tag then t else x := rfl
@[simp] theorem State.setTransfer_port (t : Transfer) : (s.setTransfer t).port = s.port := rfl
@[simp] theorem State.setTransfer_credentials (t : Transfer) :
    (s.setTransfer t).credentials = s.credentials := rfl
@[simp] theorem State.setTransfer_revertBackoff (t : Transfer) :
    (s.setTransfer t).revertBackoff = s.revertBackoff := rfl
@[simp] theorem State.setTransfer_derivation (t : Transfer) :
    (s.setTransfer t).derivation = s.derivation := rfl
@[simp] theorem State.setTransfer_startUp (t : Transfer) : (s.setTransfer t).startUp = s.startUp := rfl
@[simp] theorem State.setTransfer_window (t : Transfer) : (s.setTransfer t).window = s.window := rfl
@[simp] theorem State.setTransfer_tamper (t : Transfer) : (s.setTransfer t).tamper = s.tamper := rfl
@[simp] theorem State.setTransfer_time (t : Transfer) : (s.setTransfer t).time = s.time := rfl
@[simp] theorem State.setTransfer_deadlines (t : Transfer) : (s.setTransfer t).deadlines = s.deadlines := rfl
@[simp] theorem State.setTransfer_response (t : Transfer) : (s.setTransfer t).response = s.response := rfl
@[simp] theorem State.setTransfer_erases (t : Transfer) : (s.setTransfer t).erases = s.erases := rfl
@[simp] theorem State.setTransfer_scrub (t : Transfer) : (s.setTransfer t).scrub = s.scrub := rfl
@[simp] theorem State.setTransfer_define (t : Transfer) : (s.setTransfer t).define = s.define := rfl
@[simp] theorem State.setTransfer_reverting (t : Transfer) : (s.setTransfer t).reverting = s.reverting := rfl
@[simp] theorem State.setTransfer_revertRequest (t : Transfer) :
    (s.setTransfer t).revertRequest = s.revertRequest := rfl
@[simp] theorem State.setTransfer_store (t : Transfer) : (s.setTransfer t).store = s.store := rfl
@[simp] theorem State.setTransfer_holdup (t : Transfer) : (s.setTransfer t).holdup = s.holdup := rfl
@[simp] theorem State.setTransfer_management (t : Transfer) :
    (s.setTransfer t).management = s.management := rfl
@[simp] theorem State.setTransfer_alerts (t : Transfer) : (s.setTransfer t).alerts = s.alerts := rfl
@[simp] theorem State.setTransfer_offered (t : Transfer) : (s.setTransfer t).offered = s.offered := rfl
@[simp] theorem State.setTransfer_sent (t : Transfer) : (s.setTransfer t).sent = s.sent := rfl
@[simp] theorem State.setTransfer_pending (t : Transfer) : (s.setTransfer t).pending = s.pending := rfl

/-! ### setRunning -/

@[simp] theorem State.setRunning_geometry (r : Option RunningResponse) :
    (s.setRunning r).geometry = s.geometry := rfl
@[simp] theorem State.setRunning_fuses (r : Option RunningResponse) : (s.setRunning r).fuses = s.fuses := rfl
@[simp] theorem State.setRunning_stored (r : Option RunningResponse) :
    (s.setRunning r).stored = s.stored := rfl
@[simp] theorem State.setRunning_work (r : Option RunningResponse) : (s.setRunning r).work = s.work := rfl
@[simp] theorem State.setRunning_regions (r : Option RunningResponse) :
    (s.setRunning r).regions = s.regions := rfl
@[simp] theorem State.setRunning_boundary (r : Option RunningResponse) :
    (s.setRunning r).boundary = s.boundary := rfl
@[simp] theorem State.setRunning_keys (r : Option RunningResponse) : (s.setRunning r).keys = s.keys := rfl
@[simp] theorem State.setRunning_random (r : Option RunningResponse) :
    (s.setRunning r).random = s.random := rfl
@[simp] theorem State.setRunning_transfers (r : Option RunningResponse) :
    (s.setRunning r).transfers = s.transfers := rfl
@[simp] theorem State.setRunning_port (r : Option RunningResponse) : (s.setRunning r).port = s.port := rfl
@[simp] theorem State.setRunning_credentials (r : Option RunningResponse) :
    (s.setRunning r).credentials = s.credentials := rfl
@[simp] theorem State.setRunning_revertBackoff (r : Option RunningResponse) :
    (s.setRunning r).revertBackoff = s.revertBackoff := rfl
@[simp] theorem State.setRunning_derivation (r : Option RunningResponse) :
    (s.setRunning r).derivation = s.derivation := rfl
@[simp] theorem State.setRunning_startUp (r : Option RunningResponse) :
    (s.setRunning r).startUp = s.startUp := rfl
@[simp] theorem State.setRunning_window (r : Option RunningResponse) :
    (s.setRunning r).window = s.window := rfl
@[simp] theorem State.setRunning_tamper (r : Option RunningResponse) :
    (s.setRunning r).tamper = s.tamper := rfl
@[simp] theorem State.setRunning_time (r : Option RunningResponse) : (s.setRunning r).time = s.time := rfl
@[simp] theorem State.setRunning_deadlines (r : Option RunningResponse) :
    (s.setRunning r).deadlines = s.deadlines := rfl
@[simp] theorem State.setRunning_response (r : Option RunningResponse) :
    (s.setRunning r).response = { s.response with running := r } := rfl
@[simp] theorem State.setRunning_erases (r : Option RunningResponse) :
    (s.setRunning r).erases = s.erases := rfl
@[simp] theorem State.setRunning_scrub (r : Option RunningResponse) : (s.setRunning r).scrub = s.scrub := rfl
@[simp] theorem State.setRunning_define (r : Option RunningResponse) :
    (s.setRunning r).define = s.define := rfl
@[simp] theorem State.setRunning_reverting (r : Option RunningResponse) :
    (s.setRunning r).reverting = s.reverting := rfl
@[simp] theorem State.setRunning_revertRequest (r : Option RunningResponse) :
    (s.setRunning r).revertRequest = s.revertRequest := rfl
@[simp] theorem State.setRunning_store (r : Option RunningResponse) : (s.setRunning r).store = s.store := rfl
@[simp] theorem State.setRunning_holdup (r : Option RunningResponse) :
    (s.setRunning r).holdup = s.holdup := rfl
@[simp] theorem State.setRunning_management (r : Option RunningResponse) :
    (s.setRunning r).management = s.management := rfl
@[simp] theorem State.setRunning_alerts (r : Option RunningResponse) :
    (s.setRunning r).alerts = s.alerts := rfl
@[simp] theorem State.setRunning_offered (r : Option RunningResponse) :
    (s.setRunning r).offered = s.offered := rfl
@[simp] theorem State.setRunning_sent (r : Option RunningResponse) : (s.setRunning r).sent = s.sent := rfl
@[simp] theorem State.setRunning_pending (r : Option RunningResponse) :
    (s.setRunning r).pending = s.pending := rfl

/-! ### setHold -/

@[simp] theorem State.setHold_geometry (r : RegionIx) (v : Bool) :
    (s.setHold r v).geometry = s.geometry := rfl
@[simp] theorem State.setHold_fuses (r : RegionIx) (v : Bool) : (s.setHold r v).fuses = s.fuses := rfl
@[simp] theorem State.setHold_stored (r : RegionIx) (v : Bool) : (s.setHold r v).stored = s.stored := rfl
@[simp] theorem State.setHold_work (r : RegionIx) (v : Bool) : (s.setHold r v).work = s.work := rfl
@[simp] theorem State.setHold_regions (r : RegionIx) (v : Bool) :
    (s.setHold r v).regions = s.regions.set r { s.regions[r] with eraseHold := v } := rfl
@[simp] theorem State.setHold_boundary (r : RegionIx) (v : Bool) :
    (s.setHold r v).boundary = s.boundary := rfl
@[simp] theorem State.setHold_keys (r : RegionIx) (v : Bool) : (s.setHold r v).keys = s.keys := rfl
@[simp] theorem State.setHold_random (r : RegionIx) (v : Bool) : (s.setHold r v).random = s.random := rfl
@[simp] theorem State.setHold_transfers (r : RegionIx) (v : Bool) :
    (s.setHold r v).transfers = s.transfers := rfl
@[simp] theorem State.setHold_port (r : RegionIx) (v : Bool) : (s.setHold r v).port = s.port := rfl
@[simp] theorem State.setHold_credentials (r : RegionIx) (v : Bool) :
    (s.setHold r v).credentials = s.credentials := rfl
@[simp] theorem State.setHold_revertBackoff (r : RegionIx) (v : Bool) :
    (s.setHold r v).revertBackoff = s.revertBackoff := rfl
@[simp] theorem State.setHold_derivation (r : RegionIx) (v : Bool) :
    (s.setHold r v).derivation = s.derivation := rfl
@[simp] theorem State.setHold_startUp (r : RegionIx) (v : Bool) : (s.setHold r v).startUp = s.startUp := rfl
@[simp] theorem State.setHold_window (r : RegionIx) (v : Bool) : (s.setHold r v).window = s.window := rfl
@[simp] theorem State.setHold_tamper (r : RegionIx) (v : Bool) : (s.setHold r v).tamper = s.tamper := rfl
@[simp] theorem State.setHold_time (r : RegionIx) (v : Bool) : (s.setHold r v).time = s.time := rfl
@[simp] theorem State.setHold_deadlines (r : RegionIx) (v : Bool) :
    (s.setHold r v).deadlines = s.deadlines := rfl
@[simp] theorem State.setHold_response (r : RegionIx) (v : Bool) :
    (s.setHold r v).response = s.response := rfl
@[simp] theorem State.setHold_erases (r : RegionIx) (v : Bool) : (s.setHold r v).erases = s.erases := rfl
@[simp] theorem State.setHold_scrub (r : RegionIx) (v : Bool) : (s.setHold r v).scrub = s.scrub := rfl
@[simp] theorem State.setHold_define (r : RegionIx) (v : Bool) : (s.setHold r v).define = s.define := rfl
@[simp] theorem State.setHold_reverting (r : RegionIx) (v : Bool) :
    (s.setHold r v).reverting = s.reverting := rfl
@[simp] theorem State.setHold_revertRequest (r : RegionIx) (v : Bool) :
    (s.setHold r v).revertRequest = s.revertRequest := rfl
@[simp] theorem State.setHold_store (r : RegionIx) (v : Bool) : (s.setHold r v).store = s.store := rfl
@[simp] theorem State.setHold_holdup (r : RegionIx) (v : Bool) : (s.setHold r v).holdup = s.holdup := rfl
@[simp] theorem State.setHold_management (r : RegionIx) (v : Bool) :
    (s.setHold r v).management = s.management := rfl
@[simp] theorem State.setHold_alerts (r : RegionIx) (v : Bool) : (s.setHold r v).alerts = s.alerts := rfl
@[simp] theorem State.setHold_offered (r : RegionIx) (v : Bool) : (s.setHold r v).offered = s.offered := rfl
@[simp] theorem State.setHold_sent (r : RegionIx) (v : Bool) : (s.setHold r v).sent = s.sent := rfl
@[simp] theorem State.setHold_pending (r : RegionIx) (v : Bool) : (s.setHold r v).pending = s.pending := rfl

/-! ### setBackoff -/

@[simp] theorem State.setBackoff_geometry (c : CredIx) (n : Nat) :
    (s.setBackoff c n).geometry = s.geometry := rfl
@[simp] theorem State.setBackoff_fuses (c : CredIx) (n : Nat) : (s.setBackoff c n).fuses = s.fuses := rfl
@[simp] theorem State.setBackoff_stored (c : CredIx) (n : Nat) : (s.setBackoff c n).stored = s.stored := rfl
@[simp] theorem State.setBackoff_work (c : CredIx) (n : Nat) : (s.setBackoff c n).work = s.work := rfl
@[simp] theorem State.setBackoff_regions (c : CredIx) (n : Nat) :
    (s.setBackoff c n).regions = s.regions := rfl
@[simp] theorem State.setBackoff_boundary (c : CredIx) (n : Nat) :
    (s.setBackoff c n).boundary = s.boundary := rfl
@[simp] theorem State.setBackoff_keys (c : CredIx) (n : Nat) : (s.setBackoff c n).keys = s.keys := rfl
@[simp] theorem State.setBackoff_random (c : CredIx) (n : Nat) : (s.setBackoff c n).random = s.random := rfl
@[simp] theorem State.setBackoff_transfers (c : CredIx) (n : Nat) :
    (s.setBackoff c n).transfers = s.transfers := rfl
@[simp] theorem State.setBackoff_port (c : CredIx) (n : Nat) : (s.setBackoff c n).port = s.port := rfl
@[simp] theorem State.setBackoff_credentials (c : CredIx) (n : Nat) :
    (s.setBackoff c n).credentials = s.credentials.set c { s.credentials[c] with backoff := n } := rfl
@[simp] theorem State.setBackoff_revertBackoff (c : CredIx) (n : Nat) :
    (s.setBackoff c n).revertBackoff = s.revertBackoff := rfl
@[simp] theorem State.setBackoff_derivation (c : CredIx) (n : Nat) :
    (s.setBackoff c n).derivation = s.derivation := rfl
@[simp] theorem State.setBackoff_startUp (c : CredIx) (n : Nat) :
    (s.setBackoff c n).startUp = s.startUp := rfl
@[simp] theorem State.setBackoff_window (c : CredIx) (n : Nat) : (s.setBackoff c n).window = s.window := rfl
@[simp] theorem State.setBackoff_tamper (c : CredIx) (n : Nat) : (s.setBackoff c n).tamper = s.tamper := rfl
@[simp] theorem State.setBackoff_time (c : CredIx) (n : Nat) : (s.setBackoff c n).time = s.time := rfl
@[simp] theorem State.setBackoff_deadlines (c : CredIx) (n : Nat) :
    (s.setBackoff c n).deadlines = s.deadlines := rfl
@[simp] theorem State.setBackoff_response (c : CredIx) (n : Nat) :
    (s.setBackoff c n).response = s.response := rfl
@[simp] theorem State.setBackoff_erases (c : CredIx) (n : Nat) : (s.setBackoff c n).erases = s.erases := rfl
@[simp] theorem State.setBackoff_scrub (c : CredIx) (n : Nat) : (s.setBackoff c n).scrub = s.scrub := rfl
@[simp] theorem State.setBackoff_define (c : CredIx) (n : Nat) : (s.setBackoff c n).define = s.define := rfl
@[simp] theorem State.setBackoff_reverting (c : CredIx) (n : Nat) :
    (s.setBackoff c n).reverting = s.reverting := rfl
@[simp] theorem State.setBackoff_revertRequest (c : CredIx) (n : Nat) :
    (s.setBackoff c n).revertRequest = s.revertRequest := rfl
@[simp] theorem State.setBackoff_store (c : CredIx) (n : Nat) : (s.setBackoff c n).store = s.store := rfl
@[simp] theorem State.setBackoff_holdup (c : CredIx) (n : Nat) : (s.setBackoff c n).holdup = s.holdup := rfl
@[simp] theorem State.setBackoff_management (c : CredIx) (n : Nat) :
    (s.setBackoff c n).management = s.management := rfl
@[simp] theorem State.setBackoff_alerts (c : CredIx) (n : Nat) : (s.setBackoff c n).alerts = s.alerts := rfl
@[simp] theorem State.setBackoff_offered (c : CredIx) (n : Nat) :
    (s.setBackoff c n).offered = s.offered := rfl
@[simp] theorem State.setBackoff_sent (c : CredIx) (n : Nat) : (s.setBackoff c n).sent = s.sent := rfl
@[simp] theorem State.setBackoff_pending (c : CredIx) (n : Nat) :
    (s.setBackoff c n).pending = s.pending := rfl

/-! ### clearFlags -/

@[simp] theorem State.clearFlags_geometry : (s.clearFlags).geometry = s.geometry := rfl
@[simp] theorem State.clearFlags_fuses : (s.clearFlags).fuses = s.fuses := rfl
@[simp] theorem State.clearFlags_stored : (s.clearFlags).stored = s.stored := rfl
@[simp] theorem State.clearFlags_work : (s.clearFlags).work = s.work := rfl
@[simp] theorem State.clearFlags_regions : (s.clearFlags).regions = s.regions := rfl
@[simp] theorem State.clearFlags_boundary : (s.clearFlags).boundary = s.boundary := rfl
@[simp] theorem State.clearFlags_keys : (s.clearFlags).keys = s.keys := rfl
@[simp] theorem State.clearFlags_random : (s.clearFlags).random = s.random := rfl
@[simp] theorem State.clearFlags_transfers : (s.clearFlags).transfers = s.transfers := rfl
@[simp] theorem State.clearFlags_port : (s.clearFlags).port = s.port := rfl
@[simp] theorem State.clearFlags_credentials :
    (s.clearFlags).credentials = tabMap (fun x => { x with presented := false }) s.credentials := rfl
@[simp] theorem State.clearFlags_revertBackoff : (s.clearFlags).revertBackoff = s.revertBackoff := rfl
@[simp] theorem State.clearFlags_derivation : (s.clearFlags).derivation = s.derivation := rfl
@[simp] theorem State.clearFlags_startUp : (s.clearFlags).startUp = s.startUp := rfl
@[simp] theorem State.clearFlags_window : (s.clearFlags).window = s.window := rfl
@[simp] theorem State.clearFlags_tamper : (s.clearFlags).tamper = s.tamper := rfl
@[simp] theorem State.clearFlags_time : (s.clearFlags).time = s.time := rfl
@[simp] theorem State.clearFlags_deadlines : (s.clearFlags).deadlines = s.deadlines := rfl
@[simp] theorem State.clearFlags_response : (s.clearFlags).response = s.response := rfl
@[simp] theorem State.clearFlags_erases : (s.clearFlags).erases = s.erases := rfl
@[simp] theorem State.clearFlags_scrub : (s.clearFlags).scrub = s.scrub := rfl
@[simp] theorem State.clearFlags_define : (s.clearFlags).define = s.define := rfl
@[simp] theorem State.clearFlags_reverting : (s.clearFlags).reverting = s.reverting := rfl
@[simp] theorem State.clearFlags_revertRequest : (s.clearFlags).revertRequest = s.revertRequest := rfl
@[simp] theorem State.clearFlags_store : (s.clearFlags).store = s.store := rfl
@[simp] theorem State.clearFlags_holdup : (s.clearFlags).holdup = s.holdup := rfl
@[simp] theorem State.clearFlags_management : (s.clearFlags).management = s.management := rfl
@[simp] theorem State.clearFlags_alerts : (s.clearFlags).alerts = s.alerts := rfl
@[simp] theorem State.clearFlags_offered : (s.clearFlags).offered = s.offered := rfl
@[simp] theorem State.clearFlags_sent : (s.clearFlags).sent = s.sent := rfl
@[simp] theorem State.clearFlags_pending : (s.clearFlags).pending = s.pending := rfl

/-! ### trigger -/

@[simp] theorem State.trigger_geometry (n : SourceIx) : (s.trigger n).geometry = s.geometry := rfl
@[simp] theorem State.trigger_fuses (n : SourceIx) : (s.trigger n).fuses = s.fuses := rfl
@[simp] theorem State.trigger_stored (n : SourceIx) : (s.trigger n).stored = s.stored := rfl
@[simp] theorem State.trigger_work (n : SourceIx) : (s.trigger n).work = s.work := rfl
@[simp] theorem State.trigger_regions (n : SourceIx) : (s.trigger n).regions = s.regions := rfl
@[simp] theorem State.trigger_boundary (n : SourceIx) : (s.trigger n).boundary = s.boundary := rfl
@[simp] theorem State.trigger_keys (n : SourceIx) : (s.trigger n).keys = s.keys := rfl
@[simp] theorem State.trigger_random (n : SourceIx) : (s.trigger n).random = s.random := rfl
@[simp] theorem State.trigger_transfers (n : SourceIx) : (s.trigger n).transfers = s.transfers := rfl
@[simp] theorem State.trigger_port (n : SourceIx) : (s.trigger n).port = s.port := rfl
@[simp] theorem State.trigger_credentials (n : SourceIx) : (s.trigger n).credentials = s.credentials := rfl
@[simp] theorem State.trigger_revertBackoff (n : SourceIx) :
    (s.trigger n).revertBackoff = s.revertBackoff := rfl
@[simp] theorem State.trigger_derivation (n : SourceIx) : (s.trigger n).derivation = s.derivation := rfl
@[simp] theorem State.trigger_startUp (n : SourceIx) : (s.trigger n).startUp = s.startUp := rfl
@[simp] theorem State.trigger_window (n : SourceIx) : (s.trigger n).window = s.window := rfl
@[simp] theorem State.trigger_tamper (n : SourceIx) : (s.trigger n).tamper = s.tamper := rfl
@[simp] theorem State.trigger_time (n : SourceIx) : (s.trigger n).time = s.time := rfl
@[simp] theorem State.trigger_deadlines (n : SourceIx) : (s.trigger n).deadlines = s.deadlines := rfl
@[simp] theorem State.trigger_erases (n : SourceIx) : (s.trigger n).erases = s.erases := rfl
@[simp] theorem State.trigger_scrub (n : SourceIx) : (s.trigger n).scrub = s.scrub := rfl
@[simp] theorem State.trigger_define (n : SourceIx) : (s.trigger n).define = s.define := rfl
@[simp] theorem State.trigger_reverting (n : SourceIx) : (s.trigger n).reverting = s.reverting := rfl
@[simp] theorem State.trigger_revertRequest (n : SourceIx) :
    (s.trigger n).revertRequest = s.revertRequest := rfl
@[simp] theorem State.trigger_store (n : SourceIx) : (s.trigger n).store = s.store := rfl
@[simp] theorem State.trigger_holdup (n : SourceIx) : (s.trigger n).holdup = s.holdup := rfl
@[simp] theorem State.trigger_management (n : SourceIx) : (s.trigger n).management = s.management := rfl
@[simp] theorem State.trigger_alerts (n : SourceIx) : (s.trigger n).alerts = s.alerts := rfl
@[simp] theorem State.trigger_offered (n : SourceIx) : (s.trigger n).offered = s.offered := rfl
@[simp] theorem State.trigger_sent (n : SourceIx) : (s.trigger n).sent = s.sent := rfl
@[simp] theorem State.trigger_pending (n : SourceIx) : (s.trigger n).pending = s.pending := rfl

/-! ### beginRequest -/

@[simp] theorem State.beginRequest_geometry : (s.beginRequest).geometry = s.geometry := rfl
@[simp] theorem State.beginRequest_fuses : (s.beginRequest).fuses = s.fuses := rfl
@[simp] theorem State.beginRequest_stored : (s.beginRequest).stored = s.stored := rfl
@[simp] theorem State.beginRequest_work : (s.beginRequest).work = s.work := rfl
@[simp] theorem State.beginRequest_regions : (s.beginRequest).regions = s.regions := rfl
@[simp] theorem State.beginRequest_boundary : (s.beginRequest).boundary = s.boundary := rfl
@[simp] theorem State.beginRequest_keys : (s.beginRequest).keys = s.keys := rfl
@[simp] theorem State.beginRequest_random : (s.beginRequest).random = s.random := rfl
@[simp] theorem State.beginRequest_transfers : (s.beginRequest).transfers = s.transfers := rfl
@[simp] theorem State.beginRequest_port : (s.beginRequest).port = s.port := rfl
@[simp] theorem State.beginRequest_credentials : (s.beginRequest).credentials = s.credentials := rfl
@[simp] theorem State.beginRequest_revertBackoff : (s.beginRequest).revertBackoff = s.revertBackoff := rfl
@[simp] theorem State.beginRequest_derivation : (s.beginRequest).derivation = s.derivation := rfl
@[simp] theorem State.beginRequest_startUp : (s.beginRequest).startUp = s.startUp := rfl
@[simp] theorem State.beginRequest_window : (s.beginRequest).window = s.window := rfl
@[simp] theorem State.beginRequest_tamper : (s.beginRequest).tamper = s.tamper := rfl
@[simp] theorem State.beginRequest_time : (s.beginRequest).time = s.time := rfl
@[simp] theorem State.beginRequest_deadlines : (s.beginRequest).deadlines = s.deadlines := rfl
@[simp] theorem State.beginRequest_response : (s.beginRequest).response = s.response := rfl
@[simp] theorem State.beginRequest_erases : (s.beginRequest).erases = s.erases := rfl
@[simp] theorem State.beginRequest_scrub : (s.beginRequest).scrub = s.scrub := rfl
@[simp] theorem State.beginRequest_define : (s.beginRequest).define = s.define := rfl
@[simp] theorem State.beginRequest_reverting : (s.beginRequest).reverting = s.reverting := rfl
@[simp] theorem State.beginRequest_revertRequest : (s.beginRequest).revertRequest = s.revertRequest := rfl
@[simp] theorem State.beginRequest_store : (s.beginRequest).store = s.store := rfl
@[simp] theorem State.beginRequest_holdup : (s.beginRequest).holdup = s.holdup := rfl
@[simp] theorem State.beginRequest_management :
    (s.beginRequest).management = ⟨.working, none, some s.management.nextId, s.management.nextId + 1⟩ := rfl
@[simp] theorem State.beginRequest_alerts : (s.beginRequest).alerts = s.alerts := rfl
@[simp] theorem State.beginRequest_offered : (s.beginRequest).offered = s.offered := rfl
@[simp] theorem State.beginRequest_sent : (s.beginRequest).sent = s.sent := rfl
@[simp] theorem State.beginRequest_pending : (s.beginRequest).pending = s.pending := rfl

/-! ### startConversion -/

@[simp] theorem State.startConversion_geometry : (s.startConversion).geometry = s.geometry := rfl
@[simp] theorem State.startConversion_fuses : (s.startConversion).fuses = s.fuses := rfl
@[simp] theorem State.startConversion_stored : (s.startConversion).stored = s.stored := rfl
@[simp] theorem State.startConversion_work : (s.startConversion).work = s.work := rfl
@[simp] theorem State.startConversion_regions : (s.startConversion).regions = s.regions := rfl
@[simp] theorem State.startConversion_boundary : (s.startConversion).boundary = s.boundary := rfl
@[simp] theorem State.startConversion_keys : (s.startConversion).keys = s.keys := rfl
@[simp] theorem State.startConversion_random : (s.startConversion).random = s.random := rfl
@[simp] theorem State.startConversion_transfers : (s.startConversion).transfers = s.transfers := rfl
@[simp] theorem State.startConversion_port : (s.startConversion).port = s.port := rfl
@[simp] theorem State.startConversion_credentials : (s.startConversion).credentials = s.credentials := rfl
@[simp] theorem State.startConversion_revertBackoff :
    (s.startConversion).revertBackoff = s.revertBackoff := rfl
@[simp] theorem State.startConversion_derivation : (s.startConversion).derivation = s.derivation := rfl
@[simp] theorem State.startConversion_startUp : (s.startConversion).startUp = s.startUp := rfl
@[simp] theorem State.startConversion_window : (s.startConversion).window = s.window := rfl
@[simp] theorem State.startConversion_tamper : (s.startConversion).tamper = s.tamper := rfl
@[simp] theorem State.startConversion_time : (s.startConversion).time = s.time := rfl
@[simp] theorem State.startConversion_deadlines : (s.startConversion).deadlines = s.deadlines := rfl
@[simp] theorem State.startConversion_response : (s.startConversion).response = s.response := rfl
@[simp] theorem State.startConversion_erases : (s.startConversion).erases = s.erases := rfl
@[simp] theorem State.startConversion_scrub : (s.startConversion).scrub = s.scrub := rfl
@[simp] theorem State.startConversion_define : (s.startConversion).define = s.define := rfl
@[simp] theorem State.startConversion_reverting : (s.startConversion).reverting = s.reverting := rfl
@[simp] theorem State.startConversion_revertRequest :
    (s.startConversion).revertRequest = s.revertRequest := rfl
@[simp] theorem State.startConversion_store : (s.startConversion).store = s.store := rfl
@[simp] theorem State.startConversion_holdup :
    (s.startConversion).holdup = { s.holdup with converting := true } := rfl
@[simp] theorem State.startConversion_management : (s.startConversion).management = s.management := rfl
@[simp] theorem State.startConversion_alerts : (s.startConversion).alerts = s.alerts := rfl
@[simp] theorem State.startConversion_offered : (s.startConversion).offered = s.offered := rfl
@[simp] theorem State.startConversion_sent : (s.startConversion).sent = s.sent := rfl
@[simp] theorem State.startConversion_pending : (s.startConversion).pending = s.pending := rfl

/-! ### windowPending -/

@[simp] theorem State.windowPending_geometry (v : Bool) : (s.windowPending v).geometry = s.geometry := rfl
@[simp] theorem State.windowPending_fuses (v : Bool) : (s.windowPending v).fuses = s.fuses := rfl
@[simp] theorem State.windowPending_stored (v : Bool) : (s.windowPending v).stored = s.stored := rfl
@[simp] theorem State.windowPending_work (v : Bool) : (s.windowPending v).work = s.work := rfl
@[simp] theorem State.windowPending_regions (v : Bool) : (s.windowPending v).regions = s.regions := rfl
@[simp] theorem State.windowPending_boundary (v : Bool) : (s.windowPending v).boundary = s.boundary := rfl
@[simp] theorem State.windowPending_keys (v : Bool) : (s.windowPending v).keys = s.keys := rfl
@[simp] theorem State.windowPending_random (v : Bool) : (s.windowPending v).random = s.random := rfl
@[simp] theorem State.windowPending_transfers (v : Bool) : (s.windowPending v).transfers = s.transfers := rfl
@[simp] theorem State.windowPending_port (v : Bool) : (s.windowPending v).port = s.port := rfl
@[simp] theorem State.windowPending_credentials (v : Bool) :
    (s.windowPending v).credentials = s.credentials := rfl
@[simp] theorem State.windowPending_revertBackoff (v : Bool) :
    (s.windowPending v).revertBackoff = s.revertBackoff := rfl
@[simp] theorem State.windowPending_derivation (v : Bool) :
    (s.windowPending v).derivation = s.derivation := rfl
@[simp] theorem State.windowPending_startUp (v : Bool) : (s.windowPending v).startUp = s.startUp := rfl
@[simp] theorem State.windowPending_window (v : Bool) :
    (s.windowPending v).window = { s.window with changePending := v } := rfl
@[simp] theorem State.windowPending_tamper (v : Bool) : (s.windowPending v).tamper = s.tamper := rfl
@[simp] theorem State.windowPending_time (v : Bool) : (s.windowPending v).time = s.time := rfl
@[simp] theorem State.windowPending_deadlines (v : Bool) : (s.windowPending v).deadlines = s.deadlines := rfl
@[simp] theorem State.windowPending_response (v : Bool) : (s.windowPending v).response = s.response := rfl
@[simp] theorem State.windowPending_erases (v : Bool) : (s.windowPending v).erases = s.erases := rfl
@[simp] theorem State.windowPending_scrub (v : Bool) : (s.windowPending v).scrub = s.scrub := rfl
@[simp] theorem State.windowPending_define (v : Bool) : (s.windowPending v).define = s.define := rfl
@[simp] theorem State.windowPending_reverting (v : Bool) : (s.windowPending v).reverting = s.reverting := rfl
@[simp] theorem State.windowPending_revertRequest (v : Bool) :
    (s.windowPending v).revertRequest = s.revertRequest := rfl
@[simp] theorem State.windowPending_store (v : Bool) : (s.windowPending v).store = s.store := rfl
@[simp] theorem State.windowPending_holdup (v : Bool) : (s.windowPending v).holdup = s.holdup := rfl
@[simp] theorem State.windowPending_management (v : Bool) :
    (s.windowPending v).management = s.management := rfl
@[simp] theorem State.windowPending_alerts (v : Bool) : (s.windowPending v).alerts = s.alerts := rfl
@[simp] theorem State.windowPending_offered (v : Bool) : (s.windowPending v).offered = s.offered := rfl
@[simp] theorem State.windowPending_sent (v : Bool) : (s.windowPending v).sent = s.sent := rfl
@[simp] theorem State.windowPending_pending (v : Bool) : (s.windowPending v).pending = s.pending := rfl

end Sys2Proof.Machine
end

