-- ==== Sys2Proof/Laws/Tables.lean ====
section
/-! SUPPORT. Laws of the tables: what an entry reads as after a map over the table, the index lists hold
every index once, and folds that change nothing. -/

namespace Sys2Proof.Machine

theorem getElem_mapFrom {α β : Type} (f : Nat → α → β) (xs : List α) :
    ∀ (i k : Nat) (h : k < (mapFrom f i xs).length),
      (mapFrom f i xs)[k] = f (i + k) (xs[k]'(by simpa [length_mapFrom] using h)) := by
  induction xs with
  | nil => intro i k h; simp [mapFrom] at h
  | cons x xs ih =>
    intro i k h
    cases k with
    | zero => simp [mapFrom]
    | succ k => simp [mapFrom, ih, Nat.add_comm, Nat.add_left_comm]

@[simp] theorem getElem_tabMap {α β : Type} {n : Nat} (f : α → β) (v : Vector α n) (i : Nat) (h : i < n) :
    (tabMap f v)[i] = f v[i] := by
  simp [tabMap, Vector.getElem_mk]

@[simp] theorem getElem_tabMapIx {α β : Type} {n : Nat} (f : Nat → α → β) (v : Vector α n) (i : Nat)
    (h : i < n) : (tabMapIx f v)[i] = f i v[i] := by
  simp [tabMapIx, Vector.getElem_mk, getElem_mapFrom]

@[simp] theorem mem_allRegions (r : RegionIx) : r ∈ allRegions := by revert r; decide

@[simp] theorem mem_allSlots (i : SlotIx) : i ∈ allSlots := by revert i; decide

@[simp] theorem mem_allCredentials (c : CredIx) : c ∈ allCredentials := by revert c; decide

@[simp] theorem mem_allLines (n : LineIx) : n ∈ allLines := by revert n; decide

/-- A fold of steps that each leave the state as it is. -/
theorem foldl_of_still {α β : Type} (f : β → α → β) (b : β) (h : ∀ a, f b a = b) (l : List α) :
    l.foldl f b = b := by
  induction l with
  | nil => rfl
  | cons a l ih => simp [h, ih]

/-- A property that every step of a fold keeps. -/
theorem foldl_keeps {α β : Type} (P : β → Prop) (f : β → α → β) (h : ∀ b a, P b → P (f b a)) (l : List α) :
    ∀ b, P b → P (l.foldl f b) := by
  induction l with
  | nil => intro b hb; exact hb
  | cons a l ih => intro b hb; exact ih _ (h b a hb)

/-- A relation to the start that is reflexive and that every step of a fold continues. -/
theorem foldl_relates {α β : Type} (R : β → β → Prop) (refl : ∀ b, R b b)
    (trans : ∀ a b c, R a b → R b c → R a c) (f : β → α → β) (h : ∀ b a, R b (f b a)) (l : List α) :
    ∀ b, R b (l.foldl f b) := by
  induction l with
  | nil => intro b; exact refl b
  | cons a l ih => intro b; exact trans _ _ _ (h b a) (ih _)

@[simp] theorem inMask_bit (r q : RegionIx) : inMask (bit r.val) q.val = decide (r = q) := by
  revert r q; decide

end Sys2Proof.Machine
end

