-- ==== Sys2Proof/Laws/Still.lean ====
section
/-! SUPPORT. Where nothing is due, the end of an event changes nothing: one lemma for each part of
`State.settle`, and for the whole of it. -/

namespace Sys2Proof.Machine

variable {s : State}

theorem nextTrigger_nil : nextTrigger [] = none := rfl

theorem State.takeIfFree_of_still (h : s.ResponseStill) : s.takeIfFree = s := by
  unfold State.takeIfFree
  split
  · rename_i hf; rw [h hf, nextTrigger_nil]
  · rfl

theorem State.destroyIfDue_of_not_due {r : RegionIx} (h : s.destructionsDue r = []) :
    s.destroyIfDue r = s := by
  simp [State.destroyIfDue, h]

theorem State.destroyAllDue_of_not_due (h : ∀ r : RegionIx, s.destructionsDue r = []) :
    s.destroyAllDue = s :=
  foldl_of_still _ _ (fun r => State.destroyIfDue_of_not_due (h r)) _

theorem State.destructionsDue_of_no_erase (h : s.erases = []) (r : RegionIx) : s.destructionsDue r = [] := by
  simp [State.destructionsDue, h]

theorem State.progress_of_not_resuming (h : s.startUp.phase ≠ .resuming) : s.progress = s := by
  simp [State.progress, h]

theorem State.startWalkIfDue_of_not_due (h : s.walkDue = false) : s.startWalkIfDue = s := by
  simp [State.startWalkIfDue, h]

theorem State.walkDue_of_no_list (h : s.work.scrubList = []) : s.walkDue = false := by
  simp [State.walkDue, State.scrubHead, h]

theorem State.placeOffer_of_not_walking (h : s.scrub.phase ≠ .walking) : s.placeOffer = s := by
  unfold State.placeOffer; split <;> simp [h]

theorem State.placeOffer_of_no_list (h : s.work.scrubList = []) : s.placeOffer = s := by
  simp [State.placeOffer, State.scrubHead, h]

theorem State.tryFinish_of_not_walking (h : s.scrub.phase ≠ .walking) : s.tryFinish = s := by
  unfold State.tryFinish; split <;> simp [State.walkEnded, h]

theorem State.tryFinish_of_no_list (h : s.work.scrubList = []) : s.tryFinish = s := by
  simp [State.tryFinish, State.scrubHead, h]

theorem State.arbitrate_of_nothing (h : s.nextGrant = .nothing) : ∀ n, s.arbitrate n = s
  | 0 => rfl
  | n + 1 => by simp [State.arbitrate, h]

theorem State.serveMedia_of_still (h : s.MediaStill) : s.serveMedia = s := by
  simp only [State.serveMedia, State.placeOffer_of_not_walking h.1, State.arbitrate_of_nothing h.2,
    State.tryFinish_of_not_walking h.1]

theorem State.serveMedia_of_no_list (h : s.work.scrubList = []) (g : s.nextGrant = .nothing) :
    s.serveMedia = s := by
  simp only [State.serveMedia, State.placeOffer_of_no_list h, State.arbitrate_of_nothing g,
    State.tryFinish_of_no_list h]

theorem State.serveStore_of_still (h : s.StoreStill) : s.serveStore = s := by
  unfold State.serveStore
  split
  · rename_i hq hw
    rcases h with h | h | h | h
    · simp [h] at hq
    · simp [hw] at h
    · simp [h]
    · simp [h]
  · rfl

/-- The end of an event in which nothing is due but, at most, the gate. -/
theorem State.settle_to_gate (hr : s.ResponseStill) (hd : ∀ r : RegionIx, s.destructionsDue r = [])
    (hp : s.startUp.phase ≠ .resuming) (hw : s.walkDue = false) (hm : s.MediaStill) :
    s.settle = s.serveStore := by
  simp only [State.settle, State.takeIfFree_of_still hr, State.destroyAllDue_of_not_due hd,
    State.progress_of_not_resuming hp, State.startWalkIfDue_of_not_due hw, State.serveMedia_of_still hm]

/-- The end of an event in which nothing is due. -/
theorem State.settle_of_still (h : s.Still) : s.settle = s := by
  obtain ⟨hr, hd, hp, hw, hm, hs⟩ := h
  rw [State.settle_to_gate hr hd hp hw hm, State.serveStore_of_still hs]

/-- The end of an event in which only the commit queue's head may meet the gate. -/
theorem State.settle_of_calm (h : s.Calm) : s.settle = s.serveStore := by
  obtain ⟨hr, he, hp, hl, hg⟩ := h
  simp only [State.settle, State.takeIfFree_of_still hr,
    State.destroyAllDue_of_not_due (State.destructionsDue_of_no_erase he),
    State.progress_of_not_resuming hp, State.startWalkIfDue_of_not_due (State.walkDue_of_no_list hl),
    State.serveMedia_of_no_list hl hg]

/-! ### What stillness looks at -/

theorem State.nextGrant_nothing_congr {t : State} (h : s.nextGrant = .nothing)
    (h1 : t.port.slots = s.port.slots) (h2 : t.port.queue = s.port.queue) (h3 : t.scrub.formed = s.scrub.formed) :
    t.nextGrant = .nothing := by
  unfold State.nextGrant State.freeSlot State.offer at *
  rw [h1, h2, h3]
  revert h
  cases List.find? (fun i => s.port.slots[i].isNone) allSlots with
  | none => simp
  | some i =>
    dsimp only
    cases (List.find? (fun f => f.place == ChunkPlace.offered) s.scrub.formed).map (·.chunk) <;>
      cases s.port.queue <;> dsimp only <;> intro h
    · rfl
    · cases h
    · split at h <;> cases h
    · split at h <;> cases h

theorem State.responseStill_congr {t : State} (h : s.ResponseStill) (h1 : t.response.running = s.response.running)
    (h2 : t.response.released = s.response.released) (h3 : t.response.triggers = s.response.triggers)
    (h4 : t.reverting = s.reverting) : t.ResponseStill := by
  unfold State.ResponseStill State.responseFree at *
  rw [h1, h2, h3, h4]; exact h

/-- A calm state stays calm where none of these fields change. -/
theorem State.calm_congr {t : State} (h : s.Calm) (h1 : t.response.running = s.response.running)
    (h2 : t.response.released = s.response.released) (h3 : t.response.triggers = s.response.triggers)
    (h4 : t.reverting = s.reverting) (h5 : t.erases = s.erases) (h6 : t.startUp = s.startUp)
    (h7 : t.work.scrubList = s.work.scrubList) (h8 : t.port.slots = s.port.slots)
    (h9 : t.port.queue = s.port.queue) (h10 : t.scrub = s.scrub) : t.Calm := by
  obtain ⟨a, b, c, d, e⟩ := h
  exact ⟨State.responseStill_congr a h1 h2 h3 h4, by rw [h5, b], by rw [h6]; exact c, by rw [h7, d],
    State.nextGrant_nothing_congr e h8 h9 (by rw [h10])⟩

theorem State.walkDue_congr {t : State} (h1 : t.work.scrubList = s.work.scrubList) (h2 : t.startUp = s.startUp)
    (h3 : t.scrub = s.scrub) (h4 : ∀ r : RegionIx, t.regions[r].eraseHold = s.regions[r].eraseHold)
    (h5 : t.stored.keys = s.stored.keys) (h6 : t.define = s.define) : t.walkDue = s.walkDue := by
  have hh : t.scrubHead = s.scrubHead := by simp [State.scrubHead, h1]
  unfold State.walkDue
  rw [hh]
  cases s.scrubHead with
  | none => rfl
  | some h =>
    have := h4 h
    simp only [State.isRunning, State.headHeld, State.defineHolds, h2, h3, h5, h6, this]

/-- A still state stays still where none of these fields change. -/
theorem State.still_congr {t : State} (h : s.Still) (h1 : t.ResponseStill)
    (h2 : ∀ r : RegionIx, t.regions[r].admitted = s.regions[r].admitted)
    (h3 : ∀ r : RegionIx, t.regions[r].eraseHold = s.regions[r].eraseHold) (h4 : t.erases = s.erases)
    (h5 : t.startUp = s.startUp) (h6 : t.work.scrubList = s.work.scrubList) (h7 : t.stored.keys = s.stored.keys)
    (h8 : t.define = s.define) (h9 : t.scrub = s.scrub) (h10 : t.port.slots = s.port.slots)
    (h11 : t.port.queue = s.port.queue) (h12 : t.StoreStill) : t.Still := by
  obtain ⟨_, hd, hp, hw, hm, _⟩ := h
  have hh : t.scrubHead = s.scrubHead := by simp [State.scrubHead, h6]
  refine ⟨h1, fun r => ?_, by rw [h5]; exact hp, ?_, ⟨by rw [h9]; exact hm.1, ?_⟩, h12⟩
  · have := hd r
    unfold State.destructionsDue at *
    rw [h2, h9, hh, h4]; exact this
  · rw [State.walkDue_congr h6 h5 h9 h3 h7 h8, hw]
  · exact State.nextGrant_nothing_congr hm.2 h10 h11 (by rw [h9])

/-- While the response controller is not free, triggers do not disturb it. -/
theorem State.responseStill_of_busy (h : s.responseFree = false) : s.ResponseStill := by
  intro h'; rw [h] at h'; cases h'

end Sys2Proof.Machine
end

