-- ==== Sys2Proof/Laws/Ops.lean ====
section
/-! SUPPORT. For each shared operation of the machine, once, everything it can do: its frame (the fields
that may differ afterwards), and its result in the cases it tells apart. -/

namespace Sys2Proof.Machine

variable {s : State}

/-! ### Replies and the commit queue -/

theorem State.reply_frame (id : Nat) (k : Byte) (c : ResultCode) (b : List Byte) :
    s.reply id k c b = { s with management := (s.reply id k c b).management } := by
  unfold State.reply; split <;> rfl

/-- A reply to the channel's current request fills the slot. -/
theorem State.reply_current {id : Nat} (h : s.management.current = some id) (k : Byte) (c : ResultCode)
    (b : List Byte) :
    s.reply id k c b = { s with management :=
      { s.management with slot := .replyReady, buffer := some ⟨k, c, b⟩, current := none } } := by
  simp [State.reply, h]

/-- A reply to a detached request is discarded. -/
theorem State.reply_detached {id : Nat} (h : s.management.current ≠ some id) (k : Byte) (c : ResultCode)
    (b : List Byte) : s.reply id k c b = s := by
  simp [State.reply, h]

theorem State.submit_frame (u : CommitUnit) : s.submit u = { s with store := (s.submit u).store } := by
  unfold State.submit; split <;> rfl

theorem State.submit_free {u : CommitUnit} (h : s.holds u.requester = false) :
    s.submit u = { s with store := { s.store with queue := s.store.queue ++ [u] } } := by
  simp [State.submit, h]

theorem State.submit_held {u : CommitUnit} (h : s.holds u.requester = true) :
    s.submit u = { s with store := { s.store with deferred := s.store.deferred ++ [u] } } := by
  simp [State.submit, h]

/-- Meeting the gate touches the store and the monitor, and neither the queue nor what waits. -/
theorem State.serveStore_frame : s.serveStore = { s with
    store := { s.store with writing := s.serveStore.store.writing, headWaiting := s.serveStore.store.headWaiting }
    holdup := s.serveStore.holdup } := by
  unfold State.serveStore State.startWrite State.startConversion
  split
  · split
    · dsimp only; split <;> rfl
    · rfl
  · rfl

theorem State.serveStore_queue : s.serveStore.store.queue = s.store.queue := by
  rw [State.serveStore_frame]

theorem State.serveStore_deferred : s.serveStore.store.deferred = s.store.deferred := by
  rw [State.serveStore_frame]

/-- What a write newly begun carries is the head unit's contents. -/
theorem State.serveStore_writing :
    s.serveStore.store.writing = s.store.writing
      ∨ ∃ u, u ∈ s.store.queue ∧ s.store.writing = none
        ∧ s.serveStore.store.writing = some (State.image { s with holdup := { s.holdup with lowCount := 0 } } u) := by
  unfold State.serveStore State.startWrite State.startConversion
  split
  · rename_i u rest hq hw
    split
    · dsimp only
      split
      · exact .inr ⟨u, by simp [hq], hw, rfl⟩
      · exact .inl rfl
    · exact .inl rfl
  · exact .inl rfl

theorem State.submitNow_frame (u : CommitUnit) :
    s.submitNow u = { s with store := (s.submitNow u).store, holdup := (s.submitNow u).holdup } := by
  unfold State.submitNow
  rw [State.serveStore_frame, State.submit_frame]

/-- A unit whose requester holds none reaches the tail of the queue, and meets the gate there if the queue
was empty. -/
theorem State.submitNow_submitted {u : CommitUnit} (h : s.holds u.requester = false) :
    State.Submitted s (s.submitNow u) u := by
  refine ⟨State.submitNow_frame u, ?_, ?_, ?_⟩
  · simp [State.submitNow, State.serveStore_queue, State.submit_free h]
  · simp [State.submitNow, State.serveStore_deferred, State.submit_free h]
  · rintro ⟨hne, hs⟩
    have : (s.submit u).StoreStill := by
      rw [State.submit_free h]
      rcases hs with hs | hs | hs | hs
      · exact absurd hs hne
      · exact .inr (.inl hs)
      · exact .inr (.inr (.inl hs))
      · exact .inr (.inr (.inr hs))
    rw [State.submitNow, State.serveStore_of_still this, State.submit_free h]
    exact ⟨rfl, rfl, rfl⟩

/-! ### Keys and rights -/

theorem State.unloadTest_frame (r : RegionIx) : s.unloadTest r = { s with keys := (s.unloadTest r).keys } := by
  unfold State.unloadTest; split <;> rfl

theorem State.unloadTest_keys (r q : RegionIx) :
    (s.unloadTest r).keys[q] =
      if q = r ∧ s.unloadDue r = true then { s.keys[q] with loaded := none } else s.keys[q] := by
  unfold State.unloadTest
  split <;> rename_i h
  · by_cases hq : q = r
    · subst hq; simp [h]
    · have : ¬ r.val = q.val := fun e => hq (Fin.ext e.symm)
      simp [hq, this]
  · simp [h]

theorem State.loadKey_frame (r : RegionIx) : s.loadKey r = { s with keys := (s.loadKey r).keys } := by
  unfold State.loadKey; split <;> rfl

theorem State.loadKey_keys (r q : RegionIx) :
    (s.loadKey r).keys[q] =
      if q = r ∧ s.keys[r].loaded = none then { s.keys[q] with loaded := s.unwrapped r } else s.keys[q] := by
  unfold State.loadKey
  split <;> rename_i h
  · have hn : ¬ (q = r ∧ s.keys[r].loaded = none) := by rintro ⟨-, h'⟩; rw [h'] at h; cases h
    simp only [hn, if_false]
  · by_cases hq : q = r
    · subst hq; simp at h; simp [h]
    · have : ¬ r.val = q.val := fun e => hq (Fin.ext e.symm)
      simp [hq, this]

theorem State.lockRight_frame (k : RightKind) (r : RegionIx) :
    s.lockRight k r = { s with regions := (s.lockRight k r).regions, keys := (s.lockRight k r).keys } := by
  unfold State.lockRight
  split
  · rfl
  · rw [State.unloadTest_frame]; rfl

theorem State.lockBoth_frame (r : RegionIx) :
    s.lockBoth r = { s with regions := (s.lockBoth r).regions, keys := (s.lockBoth r).keys } := by
  unfold State.lockBoth
  rw [State.lockRight_frame, State.lockRight_frame .read]

/-- Two states that differ at most in rights and keys. -/
def RightsFrame (s t : State) : Prop := t = { s with regions := t.regions, keys := t.keys }

theorem RightsFrame.refl (s : State) : RightsFrame s s := rfl

theorem RightsFrame.trans {a b c : State} (h : RightsFrame a b) (g : RightsFrame b c) : RightsFrame a c := by
  unfold RightsFrame at *; rw [g, h]

theorem State.lockAll_frame : s.lockAll = { s with regions := s.lockAll.regions, keys := s.lockAll.keys } :=
  foldl_relates RightsFrame RightsFrame.refl (fun _ _ _ => RightsFrame.trans) _
    (fun _ r => State.lockBoth_frame r) _ s

theorem State.openRight_frame (k : RightKind) (r : RegionIx) :
    s.openRight k r = { s with regions := (s.openRight k r).regions, keys := (s.openRight k r).keys } := by
  unfold State.openRight
  split
  · rfl
  · dsimp only
    rw [State.loadKey_frame]
    split <;> rfl

theorem State.lowerAdmitted_frame (r : RegionIx) :
    s.lowerAdmitted r = { s with regions := (s.lowerAdmitted r).regions, keys := (s.lowerAdmitted r).keys } := by
  unfold State.lowerAdmitted
  dsimp only
  split
  · rw [State.unloadTest_frame]; rfl
  · rfl

/-! ### Draws -/

theorem State.requestDraw_frame (d : Draw) : s.requestDraw d = { s with random := (s.requestDraw d).random } := by
  unfold State.requestDraw; split <;> rfl

theorem State.requestDraw_idle (d : Draw) (h : s.random.queue = []) :
    s.requestDraw d = { s with random := { s.random with queue := [d] } } := by
  simp [State.requestDraw, h]

theorem State.drawKey_frame (r : RegionIx) (use : DrawUse) :
    s.drawKey r use = { s with keys := (s.drawKey r use).keys, random := (s.drawKey r use).random } := by
  unfold State.drawKey
  rw [State.requestDraw_frame]; rfl

/-! ### Alerts -/

/-- An alert's arrival leaves the attention line as R179 gives it. -/
theorem AlertQueue.refresh_attention (q : AlertQueue) : q.refresh.attention = q.refresh.attentionLaw := rfl

theorem AlertQueue.arrive_attention (a : Alert) (q : AlertQueue) :
    (q.arrive a).attention = (q.arrive a).attentionLaw := by
  unfold AlertQueue.arrive; split <;> rfl

theorem AlertQueue.arrive_lengths (a : Alert) (q : AlertQueue) (h : q.queue.length ≤ 15)
    (g : q.holding.isSome = true → q.queue.length = 15) :
    (q.arrive a).queue.length ≤ 15
      ∧ ((q.arrive a).holding.isSome = true → (q.arrive a).queue.length = 15) := by
  unfold AlertQueue.arrive
  split <;> rename_i hl
  · refine ⟨by simp [AlertQueue.refresh]; omega, fun hh => ?_⟩
    have := g hh
    omega
  · exact ⟨h, fun _ => by simp [AlertQueue.refresh]; omega⟩

/-! ### Media port and scrub engine -/

theorem State.placeOffer_frame : s.placeOffer = { s with scrub := s.placeOffer.scrub } := by
  unfold State.placeOffer
  repeat' split
  all_goals rfl

theorem State.tryFinish_frame :
    s.tryFinish = { s with scrub := s.tryFinish.scrub, store := s.tryFinish.store } := by
  unfold State.tryFinish
  split
  · split
    · rw [State.submit_frame]
    · rfl
  · rfl

theorem State.tryCheckpoint_frame :
    s.tryCheckpoint = { s with scrub := s.tryCheckpoint.scrub, store := s.tryCheckpoint.store } := by
  unfold State.tryCheckpoint
  split
  · split
    · rw [State.submit_frame]
    · rfl
  · rfl

theorem State.completeIfDone_frame (t : Transfer) : s.completeIfDone t = { s with
    transfers := (s.completeIfDone t).transfers, sent := (s.completeIfDone t).sent } := by
  unfold State.completeIfDone; split <;> rfl

/-- A segment's end reaches the transfer table, what is sent, rights and keys, and nothing else. -/
theorem State.takeSegment_frame (tag index : Nat) (status : Status) (held : List Block) :
    s.takeSegment tag index status held = { s with
      transfers := (s.takeSegment tag index status held).transfers
      sent := (s.takeSegment tag index status held).sent
      regions := (s.takeSegment tag index status held).regions
      keys := (s.takeSegment tag index status held).keys } := by
  unfold State.takeSegment
  split
  · rfl
  · split
    · rfl
    · dsimp only
      split <;> (split <;> (try rw [State.lowerAdmitted_frame]) <;> (rw [State.completeIfDone_frame]; try rfl))

theorem State.issueSegment_frame (i : SlotIx) (t : Transfer) (index : Nat) (seg : Segment) :
    s.issueSegment i t index seg = { s with
      port := (s.issueSegment i t index seg).port
      transfers := (s.issueSegment i t index seg).transfers
      sent := (s.issueSegment i t index seg).sent } := by
  unfold State.issueSegment State.issue
  dsimp only
  split <;> rfl

theorem State.grantSegment_frame (i : SlotIx) : s.grantSegment i = { s with
    port := (s.grantSegment i).port, transfers := (s.grantSegment i).transfers
    sent := (s.grantSegment i).sent } := by
  unfold State.grantSegment
  split
  · rfl
  · dsimp only
    split
    · rfl
    · split
      · rfl
      · rw [State.issueSegment_frame]

theorem State.grantChunk_frame (i : SlotIx) (c : Chunk) : s.grantChunk i c = { s with
    port := (s.grantChunk i c).port, sent := (s.grantChunk i c).sent, scrub := (s.grantChunk i c).scrub } := by
  unfold State.grantChunk State.issue
  dsimp only
  rw [State.placeOffer_frame]; rfl

/-- A grant reaches the media port, the transfer table, what is sent, and the scrub engine. -/
theorem State.grantOnce_frame (g : Grant) : s.grantOnce g = { s with
    port := (s.grantOnce g).port, transfers := (s.grantOnce g).transfers, sent := (s.grantOnce g).sent
    scrub := (s.grantOnce g).scrub } := by
  unfold State.grantOnce
  split
  · rfl
  · rw [State.grantChunk_frame]
  · rw [State.grantSegment_frame]
  · rw [State.grantChunk_frame]

theorem State.arbitrate_frame (n : Nat) : ∀ s : State, s.arbitrate n = { s with
    port := (s.arbitrate n).port, transfers := (s.arbitrate n).transfers, sent := (s.arbitrate n).sent
    scrub := (s.arbitrate n).scrub } := by
  induction n with
  | zero => intro s; rfl
  | succ n ih =>
    intro s
    unfold State.arbitrate
    split
    · rfl
    · rw [ih, State.grantOnce_frame]

/-- Serving the media port reaches the port, the transfer table, what is sent, the scrub engine, and the
commit queue (the finish unit of a walk at its end). -/
theorem State.serveMedia_frame : s.serveMedia = { s with
    port := s.serveMedia.port, transfers := s.serveMedia.transfers, sent := s.serveMedia.sent
    scrub := s.serveMedia.scrub, store := s.serveMedia.store } := by
  unfold State.serveMedia
  rw [State.tryFinish_frame, State.arbitrate_frame, State.placeOffer_frame]

/-- A move of the cursor reaches the scrub list's head entry, and the checkpoint it may ask for. -/
theorem State.moveCursor_frame (p : Nat) : s.moveCursor p = { s with
    scrub := (s.moveCursor p).scrub, work := (s.moveCursor p).work, store := (s.moveCursor p).store } := by
  unfold State.moveCursor
  split
  · rfl
  · rw [State.tryCheckpoint_frame]
    unfold State.setCursor
    split <;> rfl

theorem State.chunkEnd_frame (c : Chunk) (status : Status) : s.chunkEnd c status = { s with
    scrub := (s.chunkEnd c status).scrub, work := (s.chunkEnd c status).work
    alerts := (s.chunkEnd c status).alerts, store := (s.chunkEnd c status).store } := by
  unfold State.chunkEnd
  dsimp only
  split
  · rfl
  · rw [State.tryFinish_frame, State.moveCursor_frame]
    split <;> rfl

/-- What a slot hands on when it is released. -/
theorem State.release_frame (i : SlotIx) (x : SlotRecord) (status : Status) :
    s.release i x status = { s with
      port := { s.port with slots := s.port.slots.set i none }
      transfers := (s.release i x status).transfers, sent := (s.release i x status).sent
      regions := (s.release i x status).regions, keys := (s.release i x status).keys
      scrub := (s.release i x status).scrub, work := (s.release i x status).work
      alerts := (s.release i x status).alerts, store := (s.release i x status).store } := by
  unfold State.release
  dsimp only
  split
  · rw [State.takeSegment_frame]; rfl
  · rw [State.chunkEnd_frame]; rfl

/-! ### The end of a crypto-erase -/

/-- While another crypto-erase of the region is in progress its erase hold stays (R25). -/
theorem State.releaseHold_of_erasing {r : RegionIx} (h : s.erasing r = true) : s.releaseHold r = s := by
  simp [State.releaseHold, h]

theorem State.releaseHold_of_not_erasing {r : RegionIx} (h : s.erasing r = false) :
    s.releaseHold r = s.setHold r false := by
  simp [State.releaseHold, h]

theorem State.erasing_iff (r : RegionIx) : s.erasing r = true
    ↔ ∃ e ∈ s.erases, e.region = r ∧ e.stage ≠ .waitDisabling := by
  simp [State.erasing]

/-! ### Digests and the end of a walk -/

/-- For one salt and one cost, digests are equal exactly if their secrets are (R81). -/
theorem derive_eq_iff (salt : BitVec 128) (cost : Nat) (a b : List Byte) :
    Config.derive salt cost a = Config.derive salt cost b ↔ a = b :=
  ⟨fun h => (Config.digestTag salt cost).map_rel_iff.mp (congrArg Digest.tag h), fun h => h ▸ rfl⟩

theorem State.walkEnded_iff (h : RegionIx) : s.walkEnded h = true ↔ s.scrub.phase = .walking
    ∧ s.scrub.issue = none ∧ (s.scrub.formed = [] ∨ s.keys[h].loaded = none) := by
  simp [State.walkEnded, State.unwritten, and_assoc]

/-! ### A list entry taken to its region's start -/

/-- An entry taken to its region's start reaches the scrub list and the issue position. -/
theorem State.entryToStart_frame (r : RegionIx) : s.entryToStart r = { s with
    work := { s.work with scrubList := (s.entryToStart r).work.scrubList }
    scrub := { s.scrub with issue := (s.entryToStart r).scrub.issue } } := rfl

/-- The entries of other regions stay as they are, the region's own takes its start as cursor, and none comes
or goes. -/
theorem State.mem_entryToStart (r : RegionIx) (e : ScrubEntry) : e ∈ (s.entryToStart r).work.scrubList ↔
    e.region ≠ r ∧ e ∈ s.work.scrubList
    ∨ e = ⟨r, s.work.regions[r].startLba⟩ ∧ ∃ x ∈ s.work.scrubList, x.region = r := by
  simp only [State.entryToStart, List.mem_map]
  constructor
  · rintro ⟨⟨q, c⟩, hm, rfl⟩
    by_cases hq : q = r
    · subst hq; exact .inr ⟨by simp, _, hm, rfl⟩
    · exact .inl ⟨by simp [hq], by simpa [hq] using hm⟩
  · rintro (⟨hr, hm⟩ | ⟨rfl, ⟨q, c⟩, hm, rfl⟩)
    · exact ⟨e, hm, by simp [hr]⟩
    · exact ⟨_, hm, by simp⟩

/-- A region that is not on the scrub list has no entry to take to its start. -/
theorem State.entryToStart_of_unlisted {r : RegionIx} (h : ∀ e ∈ s.work.scrubList, e.region ≠ r) :
    s.entryToStart r = s := by
  have hl : (s.work.scrubList.map fun e =>
      if e.region = r then { e with cursor := s.work.regions[r].startLba } else e) = s.work.scrubList :=
    (List.map_congr_left fun e he => if_neg (h e he)).trans (List.map_id _)
  have hd : s.scrubHead ≠ some r := fun hh => by
    obtain ⟨e, he, hr⟩ := Option.map_eq_some_iff.mp hh
    exact h e (List.mem_of_mem_head? he) hr
  simp only [State.entryToStart, hl, if_neg hd]

/-- The finish unit is submitted exactly if the head's walk has ended, no unit of it is held and no erase hold
stands (R157, R160). -/
theorem State.tryFinish_of_head {h : RegionIx} (hd : s.scrubHead = some h) : s.tryFinish =
    if s.walkEnded h = true ∧ s.scrub.commitHeld = .none ∧ s.regions[h].eraseHold = false then
      State.submit .finish { s with scrub := { s.scrub with phase := .finishing, commitHeld := .finish } }
    else s := by
  simp [State.tryFinish, hd]

/-- The chunks a link reset leaves: those not at the media as they were, and those at the media that are
neither stale nor of a walk that has ended, waiting for reissue (R72, R157). -/
theorem State.mem_abandonChunks (f : FormedChunk) : f ∈ s.abandonChunks.scrub.formed ↔
    f.place ≠ .atMedia ∧ f ∈ s.scrub.formed
    ∨ f.place = .reissue ∧ s.stale f.chunk = false ∧ s.walkOver = false
      ∧ ⟨f.chunk, .atMedia⟩ ∈ s.scrub.formed := by
  obtain ⟨c, p⟩ := f
  simp only [State.abandonChunks, List.mem_map, List.mem_filter]
  constructor
  · rintro ⟨⟨d, q⟩, ⟨hm, hk⟩, he⟩
    by_cases hq : q = .atMedia
    · subst hq
      simp at he hk
      obtain ⟨rfl, rfl⟩ := he
      exact .inr ⟨rfl, hk.1, hk.2, hm⟩
    · simp [hq] at he
      obtain ⟨rfl, rfl⟩ := he
      exact .inl ⟨hq, hm⟩
  · rintro (⟨hp, hm⟩ | ⟨rfl, hs, hw, hm⟩)
    · exact ⟨⟨c, p⟩, ⟨hm, by simp [hp]⟩, by simp_all⟩
    · exact ⟨⟨c, .atMedia⟩, ⟨hm, by simp [hs, hw]⟩, rfl⟩

/-! ### Chunks that an erase or a REVERT has made stale -/

/-- Outdating chunks changes nothing else of the scrub engine. -/
theorem ScrubEngine.outdate_frame (p : RegionIx → Bool) (e : ScrubEngine) :
    e.outdate p = { e with earlier := (e.outdate p).earlier } := rfl

/-- The outdated chunks: those of the named regions at the media, and those outdated before and still there. -/
theorem ScrubEngine.mem_outdate (p : RegionIx → Bool) (e : ScrubEngine) (c : Chunk) :
    c ∈ (e.outdate p).earlier ↔ ⟨c, .atMedia⟩ ∈ e.formed ∧ (p c.region = true ∨ c ∈ e.earlier) := by
  simp only [ScrubEngine.outdate, List.mem_map, List.mem_filter]
  constructor
  · rintro ⟨⟨d, q⟩, ⟨hm, hk⟩, rfl⟩
    simp at hk
    obtain ⟨rfl, hk⟩ := hk
    exact ⟨hm, hk⟩
  · rintro ⟨hm, hk⟩
    exact ⟨_, ⟨hm, by simpa using hk⟩, rfl⟩

/-- What makes a chunk stale (R153, R156). -/
theorem State.stale_iff (c : Chunk) : s.stale c = true ↔ s.stored.keys[c.region].generation ≠ c.generation
    ∨ (∀ e ∈ s.work.scrubList, e.region ≠ c.region) ∨ c ∈ s.scrub.earlier := by
  simp [State.stale, or_assoc]

/-- A chunk of an erased region at the media holds whichever head follows. -/
theorem State.headHeld_of_outdated {c : Chunk} {h : RegionIx} (p : RegionIx → Bool) (hm : ⟨c, .atMedia⟩ ∈ s.scrub.formed)
    (hp : p c.region = true) : State.headHeld { s with scrub := s.scrub.outdate p } h = true := by
  have : c ∈ (s.scrub.outdate p).earlier := (ScrubEngine.mem_outdate p _ c).mpr ⟨hm, .inl hp⟩
  simp only [State.headHeld, Bool.or_eq_true, List.any_eq_true]
  exact .inl (.inr ⟨_, hm, by simp [this]⟩)

/-! ### What a link reset delivers -/

/-- The zero fill of a slot: of a CIPHER segment of a READ (R56). -/
theorem State.slotFill_eq_some (i : SlotIx) (e : PortEvent) : s.slotFill i = some e ↔
    ∃ (x : SlotRecord) (tag index : Nat) (t : Transfer) (g : Segment), s.port.slots[i] = some x
      ∧ x.occupant = .segment tag index ∧ s.transfer tag = some t ∧ t.kind = .read
      ∧ t.segments[index]? = some g ∧ g.disposition = .cipher
      ∧ e = .readData tag (g.first - t.start) [.zeros g.count] := by
  unfold State.slotFill
  constructor
  · intro h
    split at h
    · rename_i tag index ho
      obtain ⟨x, hx, ho⟩ := Option.map_eq_some_iff.mp ho
      split at h
      · cases h
      · rename_i t ht
        split at h
        · cases h
        · rename_i g hg
          split at h
          · rename_i hk
            exact ⟨x, tag, index, t, g, hx, ho, ht, hk.1, hg, hk.2, (Option.some.inj h).symm⟩
          · cases h
    · cases h
  · rintro ⟨x, tag, index, t, g, hx, ho, ht, hk, hg, hd, rfl⟩
    simp [hx, ho, ht, hg, hk, hd]

/-- A link reset delivers the zero fills of the slots, each once, or nothing. -/
theorem State.mem_abandonedFills (e : PortEvent) :
    e ∈ s.abandonedFills ↔ Config.fillsAbandoned = true ∧ ∃ i, s.slotFill i = some e := by
  have all : ∀ i : SlotIx, i ∈ allSlots := by decide
  simp [State.abandonedFills, all, and_comm]

theorem State.abandonedFills_length : s.abandonedFills.length ≤ 16 :=
  (List.length_filter_le _ _).trans ((List.length_filterMap_le _ _).trans (by decide))

end Sys2Proof.Machine
end

