-- ==== Sys2Proof/Laws/Frames.lean ====
section
/-! SUPPORT. For each shared operation, the fields of the state that it leaves as they are, whatever the
state. -/

namespace Sys2Proof.Machine

variable (s : State)

@[simp] theorem State.reply_rest (id : Nat) (k : Byte) (c : ResultCode) (b : List Byte) :
    (s.reply id k c b).geometry = s.geometry ∧ (s.reply id k c b).fuses = s.fuses
      ∧ (s.reply id k c b).stored = s.stored ∧ (s.reply id k c b).work = s.work
      ∧ (s.reply id k c b).regions = s.regions ∧ (s.reply id k c b).boundary = s.boundary
      ∧ (s.reply id k c b).keys = s.keys ∧ (s.reply id k c b).random = s.random
      ∧ (s.reply id k c b).transfers = s.transfers ∧ (s.reply id k c b).port = s.port
      ∧ (s.reply id k c b).credentials = s.credentials ∧ (s.reply id k c b).revertBackoff = s.revertBackoff
      ∧ (s.reply id k c b).derivation = s.derivation ∧ (s.reply id k c b).startUp = s.startUp
      ∧ (s.reply id k c b).window = s.window ∧ (s.reply id k c b).tamper = s.tamper
      ∧ (s.reply id k c b).time = s.time ∧ (s.reply id k c b).deadlines = s.deadlines
      ∧ (s.reply id k c b).response = s.response ∧ (s.reply id k c b).erases = s.erases
      ∧ (s.reply id k c b).scrub = s.scrub ∧ (s.reply id k c b).define = s.define
      ∧ (s.reply id k c b).reverting = s.reverting ∧ (s.reply id k c b).revertRequest = s.revertRequest
      ∧ (s.reply id k c b).store = s.store ∧ (s.reply id k c b).holdup = s.holdup
      ∧ (s.reply id k c b).alerts = s.alerts ∧ (s.reply id k c b).offered = s.offered
      ∧ (s.reply id k c b).sent = s.sent ∧ (s.reply id k c b).pending = s.pending := by rw [State.reply_frame]; simp

@[simp] theorem State.submit_rest (u : CommitUnit) :
    (s.submit u).geometry = s.geometry ∧ (s.submit u).fuses = s.fuses ∧ (s.submit u).stored = s.stored
      ∧ (s.submit u).work = s.work ∧ (s.submit u).regions = s.regions ∧ (s.submit u).boundary = s.boundary
      ∧ (s.submit u).keys = s.keys ∧ (s.submit u).random = s.random ∧ (s.submit u).transfers = s.transfers
      ∧ (s.submit u).port = s.port ∧ (s.submit u).credentials = s.credentials
      ∧ (s.submit u).revertBackoff = s.revertBackoff ∧ (s.submit u).derivation = s.derivation
      ∧ (s.submit u).startUp = s.startUp ∧ (s.submit u).window = s.window ∧ (s.submit u).tamper = s.tamper
      ∧ (s.submit u).time = s.time ∧ (s.submit u).deadlines = s.deadlines
      ∧ (s.submit u).response = s.response ∧ (s.submit u).erases = s.erases ∧ (s.submit u).scrub = s.scrub
      ∧ (s.submit u).define = s.define ∧ (s.submit u).reverting = s.reverting
      ∧ (s.submit u).revertRequest = s.revertRequest ∧ (s.submit u).holdup = s.holdup
      ∧ (s.submit u).management = s.management ∧ (s.submit u).alerts = s.alerts
      ∧ (s.submit u).offered = s.offered ∧ (s.submit u).sent = s.sent ∧ (s.submit u).pending = s.pending := by rw [State.submit_frame]; simp

@[simp] theorem State.serveStore_rest :
    (s.serveStore).geometry = s.geometry ∧ (s.serveStore).fuses = s.fuses ∧ (s.serveStore).stored = s.stored
      ∧ (s.serveStore).work = s.work ∧ (s.serveStore).regions = s.regions
      ∧ (s.serveStore).boundary = s.boundary ∧ (s.serveStore).keys = s.keys
      ∧ (s.serveStore).random = s.random ∧ (s.serveStore).transfers = s.transfers
      ∧ (s.serveStore).port = s.port ∧ (s.serveStore).credentials = s.credentials
      ∧ (s.serveStore).revertBackoff = s.revertBackoff ∧ (s.serveStore).derivation = s.derivation
      ∧ (s.serveStore).startUp = s.startUp ∧ (s.serveStore).window = s.window
      ∧ (s.serveStore).tamper = s.tamper ∧ (s.serveStore).time = s.time
      ∧ (s.serveStore).deadlines = s.deadlines ∧ (s.serveStore).response = s.response
      ∧ (s.serveStore).erases = s.erases ∧ (s.serveStore).scrub = s.scrub ∧ (s.serveStore).define = s.define
      ∧ (s.serveStore).reverting = s.reverting ∧ (s.serveStore).revertRequest = s.revertRequest
      ∧ (s.serveStore).management = s.management ∧ (s.serveStore).alerts = s.alerts
      ∧ (s.serveStore).offered = s.offered ∧ (s.serveStore).sent = s.sent
      ∧ (s.serveStore).pending = s.pending := by rw [State.serveStore_frame]; simp

@[simp] theorem State.submitNow_rest (u : CommitUnit) :
    (s.submitNow u).geometry = s.geometry ∧ (s.submitNow u).fuses = s.fuses
      ∧ (s.submitNow u).stored = s.stored ∧ (s.submitNow u).work = s.work
      ∧ (s.submitNow u).regions = s.regions ∧ (s.submitNow u).boundary = s.boundary
      ∧ (s.submitNow u).keys = s.keys ∧ (s.submitNow u).random = s.random
      ∧ (s.submitNow u).transfers = s.transfers ∧ (s.submitNow u).port = s.port
      ∧ (s.submitNow u).credentials = s.credentials ∧ (s.submitNow u).revertBackoff = s.revertBackoff
      ∧ (s.submitNow u).derivation = s.derivation ∧ (s.submitNow u).startUp = s.startUp
      ∧ (s.submitNow u).window = s.window ∧ (s.submitNow u).tamper = s.tamper
      ∧ (s.submitNow u).time = s.time ∧ (s.submitNow u).deadlines = s.deadlines
      ∧ (s.submitNow u).response = s.response ∧ (s.submitNow u).erases = s.erases
      ∧ (s.submitNow u).scrub = s.scrub ∧ (s.submitNow u).define = s.define
      ∧ (s.submitNow u).reverting = s.reverting ∧ (s.submitNow u).revertRequest = s.revertRequest
      ∧ (s.submitNow u).management = s.management ∧ (s.submitNow u).alerts = s.alerts
      ∧ (s.submitNow u).offered = s.offered ∧ (s.submitNow u).sent = s.sent
      ∧ (s.submitNow u).pending = s.pending := by rw [State.submitNow_frame]; simp

@[simp] theorem State.unloadTest_rest (r : RegionIx) :
    (s.unloadTest r).geometry = s.geometry ∧ (s.unloadTest r).fuses = s.fuses
      ∧ (s.unloadTest r).stored = s.stored ∧ (s.unloadTest r).work = s.work
      ∧ (s.unloadTest r).regions = s.regions ∧ (s.unloadTest r).boundary = s.boundary
      ∧ (s.unloadTest r).random = s.random ∧ (s.unloadTest r).transfers = s.transfers
      ∧ (s.unloadTest r).port = s.port ∧ (s.unloadTest r).credentials = s.credentials
      ∧ (s.unloadTest r).revertBackoff = s.revertBackoff ∧ (s.unloadTest r).derivation = s.derivation
      ∧ (s.unloadTest r).startUp = s.startUp ∧ (s.unloadTest r).window = s.window
      ∧ (s.unloadTest r).tamper = s.tamper ∧ (s.unloadTest r).time = s.time
      ∧ (s.unloadTest r).deadlines = s.deadlines ∧ (s.unloadTest r).response = s.response
      ∧ (s.unloadTest r).erases = s.erases ∧ (s.unloadTest r).scrub = s.scrub
      ∧ (s.unloadTest r).define = s.define ∧ (s.unloadTest r).reverting = s.reverting
      ∧ (s.unloadTest r).revertRequest = s.revertRequest ∧ (s.unloadTest r).store = s.store
      ∧ (s.unloadTest r).holdup = s.holdup ∧ (s.unloadTest r).management = s.management
      ∧ (s.unloadTest r).alerts = s.alerts ∧ (s.unloadTest r).offered = s.offered
      ∧ (s.unloadTest r).sent = s.sent ∧ (s.unloadTest r).pending = s.pending := by rw [State.unloadTest_frame]; simp

@[simp] theorem State.loadKey_rest (r : RegionIx) :
    (s.loadKey r).geometry = s.geometry ∧ (s.loadKey r).fuses = s.fuses ∧ (s.loadKey r).stored = s.stored
      ∧ (s.loadKey r).work = s.work ∧ (s.loadKey r).regions = s.regions
      ∧ (s.loadKey r).boundary = s.boundary ∧ (s.loadKey r).random = s.random
      ∧ (s.loadKey r).transfers = s.transfers ∧ (s.loadKey r).port = s.port
      ∧ (s.loadKey r).credentials = s.credentials ∧ (s.loadKey r).revertBackoff = s.revertBackoff
      ∧ (s.loadKey r).derivation = s.derivation ∧ (s.loadKey r).startUp = s.startUp
      ∧ (s.loadKey r).window = s.window ∧ (s.loadKey r).tamper = s.tamper ∧ (s.loadKey r).time = s.time
      ∧ (s.loadKey r).deadlines = s.deadlines ∧ (s.loadKey r).response = s.response
      ∧ (s.loadKey r).erases = s.erases ∧ (s.loadKey r).scrub = s.scrub ∧ (s.loadKey r).define = s.define
      ∧ (s.loadKey r).reverting = s.reverting ∧ (s.loadKey r).revertRequest = s.revertRequest
      ∧ (s.loadKey r).store = s.store ∧ (s.loadKey r).holdup = s.holdup
      ∧ (s.loadKey r).management = s.management ∧ (s.loadKey r).alerts = s.alerts
      ∧ (s.loadKey r).offered = s.offered ∧ (s.loadKey r).sent = s.sent ∧ (s.loadKey r).pending = s.pending := by rw [State.loadKey_frame]; simp

@[simp] theorem State.lockRight_rest (k : RightKind) (r : RegionIx) :
    (s.lockRight k r).geometry = s.geometry ∧ (s.lockRight k r).fuses = s.fuses
      ∧ (s.lockRight k r).stored = s.stored ∧ (s.lockRight k r).work = s.work
      ∧ (s.lockRight k r).boundary = s.boundary ∧ (s.lockRight k r).random = s.random
      ∧ (s.lockRight k r).transfers = s.transfers ∧ (s.lockRight k r).port = s.port
      ∧ (s.lockRight k r).credentials = s.credentials ∧ (s.lockRight k r).revertBackoff = s.revertBackoff
      ∧ (s.lockRight k r).derivation = s.derivation ∧ (s.lockRight k r).startUp = s.startUp
      ∧ (s.lockRight k r).window = s.window ∧ (s.lockRight k r).tamper = s.tamper
      ∧ (s.lockRight k r).time = s.time ∧ (s.lockRight k r).deadlines = s.deadlines
      ∧ (s.lockRight k r).response = s.response ∧ (s.lockRight k r).erases = s.erases
      ∧ (s.lockRight k r).scrub = s.scrub ∧ (s.lockRight k r).define = s.define
      ∧ (s.lockRight k r).reverting = s.reverting ∧ (s.lockRight k r).revertRequest = s.revertRequest
      ∧ (s.lockRight k r).store = s.store ∧ (s.lockRight k r).holdup = s.holdup
      ∧ (s.lockRight k r).management = s.management ∧ (s.lockRight k r).alerts = s.alerts
      ∧ (s.lockRight k r).offered = s.offered ∧ (s.lockRight k r).sent = s.sent
      ∧ (s.lockRight k r).pending = s.pending := by rw [State.lockRight_frame]; simp

@[simp] theorem State.lockBoth_rest (r : RegionIx) :
    (s.lockBoth r).geometry = s.geometry ∧ (s.lockBoth r).fuses = s.fuses ∧ (s.lockBoth r).stored = s.stored
      ∧ (s.lockBoth r).work = s.work ∧ (s.lockBoth r).boundary = s.boundary
      ∧ (s.lockBoth r).random = s.random ∧ (s.lockBoth r).transfers = s.transfers
      ∧ (s.lockBoth r).port = s.port ∧ (s.lockBoth r).credentials = s.credentials
      ∧ (s.lockBoth r).revertBackoff = s.revertBackoff ∧ (s.lockBoth r).derivation = s.derivation
      ∧ (s.lockBoth r).startUp = s.startUp ∧ (s.lockBoth r).window = s.window
      ∧ (s.lockBoth r).tamper = s.tamper ∧ (s.lockBoth r).time = s.time
      ∧ (s.lockBoth r).deadlines = s.deadlines ∧ (s.lockBoth r).response = s.response
      ∧ (s.lockBoth r).erases = s.erases ∧ (s.lockBoth r).scrub = s.scrub ∧ (s.lockBoth r).define = s.define
      ∧ (s.lockBoth r).reverting = s.reverting ∧ (s.lockBoth r).revertRequest = s.revertRequest
      ∧ (s.lockBoth r).store = s.store ∧ (s.lockBoth r).holdup = s.holdup
      ∧ (s.lockBoth r).management = s.management ∧ (s.lockBoth r).alerts = s.alerts
      ∧ (s.lockBoth r).offered = s.offered ∧ (s.lockBoth r).sent = s.sent
      ∧ (s.lockBoth r).pending = s.pending := by rw [State.lockBoth_frame]; simp

@[simp] theorem State.lockAll_rest :
    (s.lockAll).geometry = s.geometry ∧ (s.lockAll).fuses = s.fuses ∧ (s.lockAll).stored = s.stored
      ∧ (s.lockAll).work = s.work ∧ (s.lockAll).boundary = s.boundary ∧ (s.lockAll).random = s.random
      ∧ (s.lockAll).transfers = s.transfers ∧ (s.lockAll).port = s.port
      ∧ (s.lockAll).credentials = s.credentials ∧ (s.lockAll).revertBackoff = s.revertBackoff
      ∧ (s.lockAll).derivation = s.derivation ∧ (s.lockAll).startUp = s.startUp
      ∧ (s.lockAll).window = s.window ∧ (s.lockAll).tamper = s.tamper ∧ (s.lockAll).time = s.time
      ∧ (s.lockAll).deadlines = s.deadlines ∧ (s.lockAll).response = s.response
      ∧ (s.lockAll).erases = s.erases ∧ (s.lockAll).scrub = s.scrub ∧ (s.lockAll).define = s.define
      ∧ (s.lockAll).reverting = s.reverting ∧ (s.lockAll).revertRequest = s.revertRequest
      ∧ (s.lockAll).store = s.store ∧ (s.lockAll).holdup = s.holdup ∧ (s.lockAll).management = s.management
      ∧ (s.lockAll).alerts = s.alerts ∧ (s.lockAll).offered = s.offered ∧ (s.lockAll).sent = s.sent
      ∧ (s.lockAll).pending = s.pending := by rw [State.lockAll_frame]; simp

@[simp] theorem State.openRight_rest (k : RightKind) (r : RegionIx) :
    (s.openRight k r).geometry = s.geometry ∧ (s.openRight k r).fuses = s.fuses
      ∧ (s.openRight k r).stored = s.stored ∧ (s.openRight k r).work = s.work
      ∧ (s.openRight k r).boundary = s.boundary ∧ (s.openRight k r).random = s.random
      ∧ (s.openRight k r).transfers = s.transfers ∧ (s.openRight k r).port = s.port
      ∧ (s.openRight k r).credentials = s.credentials ∧ (s.openRight k r).revertBackoff = s.revertBackoff
      ∧ (s.openRight k r).derivation = s.derivation ∧ (s.openRight k r).startUp = s.startUp
      ∧ (s.openRight k r).window = s.window ∧ (s.openRight k r).tamper = s.tamper
      ∧ (s.openRight k r).time = s.time ∧ (s.openRight k r).deadlines = s.deadlines
      ∧ (s.openRight k r).response = s.response ∧ (s.openRight k r).erases = s.erases
      ∧ (s.openRight k r).scrub = s.scrub ∧ (s.openRight k r).define = s.define
      ∧ (s.openRight k r).reverting = s.reverting ∧ (s.openRight k r).revertRequest = s.revertRequest
      ∧ (s.openRight k r).store = s.store ∧ (s.openRight k r).holdup = s.holdup
      ∧ (s.openRight k r).management = s.management ∧ (s.openRight k r).alerts = s.alerts
      ∧ (s.openRight k r).offered = s.offered ∧ (s.openRight k r).sent = s.sent
      ∧ (s.openRight k r).pending = s.pending := by rw [State.openRight_frame]; simp

@[simp] theorem State.lowerAdmitted_rest (r : RegionIx) :
    (s.lowerAdmitted r).geometry = s.geometry ∧ (s.lowerAdmitted r).fuses = s.fuses
      ∧ (s.lowerAdmitted r).stored = s.stored ∧ (s.lowerAdmitted r).work = s.work
      ∧ (s.lowerAdmitted r).boundary = s.boundary ∧ (s.lowerAdmitted r).random = s.random
      ∧ (s.lowerAdmitted r).transfers = s.transfers ∧ (s.lowerAdmitted r).port = s.port
      ∧ (s.lowerAdmitted r).credentials = s.credentials
      ∧ (s.lowerAdmitted r).revertBackoff = s.revertBackoff ∧ (s.lowerAdmitted r).derivation = s.derivation
      ∧ (s.lowerAdmitted r).startUp = s.startUp ∧ (s.lowerAdmitted r).window = s.window
      ∧ (s.lowerAdmitted r).tamper = s.tamper ∧ (s.lowerAdmitted r).time = s.time
      ∧ (s.lowerAdmitted r).deadlines = s.deadlines ∧ (s.lowerAdmitted r).response = s.response
      ∧ (s.lowerAdmitted r).erases = s.erases ∧ (s.lowerAdmitted r).scrub = s.scrub
      ∧ (s.lowerAdmitted r).define = s.define ∧ (s.lowerAdmitted r).reverting = s.reverting
      ∧ (s.lowerAdmitted r).revertRequest = s.revertRequest ∧ (s.lowerAdmitted r).store = s.store
      ∧ (s.lowerAdmitted r).holdup = s.holdup ∧ (s.lowerAdmitted r).management = s.management
      ∧ (s.lowerAdmitted r).alerts = s.alerts ∧ (s.lowerAdmitted r).offered = s.offered
      ∧ (s.lowerAdmitted r).sent = s.sent ∧ (s.lowerAdmitted r).pending = s.pending := by rw [State.lowerAdmitted_frame]; simp

@[simp] theorem State.requestDraw_rest (d : Draw) :
    (s.requestDraw d).geometry = s.geometry ∧ (s.requestDraw d).fuses = s.fuses
      ∧ (s.requestDraw d).stored = s.stored ∧ (s.requestDraw d).work = s.work
      ∧ (s.requestDraw d).regions = s.regions ∧ (s.requestDraw d).boundary = s.boundary
      ∧ (s.requestDraw d).keys = s.keys ∧ (s.requestDraw d).transfers = s.transfers
      ∧ (s.requestDraw d).port = s.port ∧ (s.requestDraw d).credentials = s.credentials
      ∧ (s.requestDraw d).revertBackoff = s.revertBackoff ∧ (s.requestDraw d).derivation = s.derivation
      ∧ (s.requestDraw d).startUp = s.startUp ∧ (s.requestDraw d).window = s.window
      ∧ (s.requestDraw d).tamper = s.tamper ∧ (s.requestDraw d).time = s.time
      ∧ (s.requestDraw d).deadlines = s.deadlines ∧ (s.requestDraw d).response = s.response
      ∧ (s.requestDraw d).erases = s.erases ∧ (s.requestDraw d).scrub = s.scrub
      ∧ (s.requestDraw d).define = s.define ∧ (s.requestDraw d).reverting = s.reverting
      ∧ (s.requestDraw d).revertRequest = s.revertRequest ∧ (s.requestDraw d).store = s.store
      ∧ (s.requestDraw d).holdup = s.holdup ∧ (s.requestDraw d).management = s.management
      ∧ (s.requestDraw d).alerts = s.alerts ∧ (s.requestDraw d).offered = s.offered
      ∧ (s.requestDraw d).sent = s.sent ∧ (s.requestDraw d).pending = s.pending := by rw [State.requestDraw_frame]; simp

@[simp] theorem State.takeGeneration_rest (r : RegionIx) :
    (s.takeGeneration r).geometry = s.geometry ∧ (s.takeGeneration r).fuses = s.fuses
      ∧ (s.takeGeneration r).stored = s.stored ∧ (s.takeGeneration r).work = s.work
      ∧ (s.takeGeneration r).regions = s.regions ∧ (s.takeGeneration r).boundary = s.boundary
      ∧ (s.takeGeneration r).random = s.random ∧ (s.takeGeneration r).transfers = s.transfers
      ∧ (s.takeGeneration r).port = s.port ∧ (s.takeGeneration r).credentials = s.credentials
      ∧ (s.takeGeneration r).revertBackoff = s.revertBackoff
      ∧ (s.takeGeneration r).derivation = s.derivation ∧ (s.takeGeneration r).startUp = s.startUp
      ∧ (s.takeGeneration r).window = s.window ∧ (s.takeGeneration r).tamper = s.tamper
      ∧ (s.takeGeneration r).time = s.time ∧ (s.takeGeneration r).deadlines = s.deadlines
      ∧ (s.takeGeneration r).response = s.response ∧ (s.takeGeneration r).erases = s.erases
      ∧ (s.takeGeneration r).scrub = s.scrub ∧ (s.takeGeneration r).define = s.define
      ∧ (s.takeGeneration r).reverting = s.reverting ∧ (s.takeGeneration r).revertRequest = s.revertRequest
      ∧ (s.takeGeneration r).store = s.store ∧ (s.takeGeneration r).holdup = s.holdup
      ∧ (s.takeGeneration r).management = s.management ∧ (s.takeGeneration r).alerts = s.alerts
      ∧ (s.takeGeneration r).offered = s.offered ∧ (s.takeGeneration r).sent = s.sent
      ∧ (s.takeGeneration r).pending = s.pending := by simp [State.takeGeneration]

@[simp] theorem State.drawKey_rest (r : RegionIx) (use : DrawUse) :
    (s.drawKey r use).geometry = s.geometry ∧ (s.drawKey r use).fuses = s.fuses
      ∧ (s.drawKey r use).stored = s.stored ∧ (s.drawKey r use).work = s.work
      ∧ (s.drawKey r use).regions = s.regions ∧ (s.drawKey r use).boundary = s.boundary
      ∧ (s.drawKey r use).transfers = s.transfers ∧ (s.drawKey r use).port = s.port
      ∧ (s.drawKey r use).credentials = s.credentials ∧ (s.drawKey r use).revertBackoff = s.revertBackoff
      ∧ (s.drawKey r use).derivation = s.derivation ∧ (s.drawKey r use).startUp = s.startUp
      ∧ (s.drawKey r use).window = s.window ∧ (s.drawKey r use).tamper = s.tamper
      ∧ (s.drawKey r use).time = s.time ∧ (s.drawKey r use).deadlines = s.deadlines
      ∧ (s.drawKey r use).response = s.response ∧ (s.drawKey r use).erases = s.erases
      ∧ (s.drawKey r use).scrub = s.scrub ∧ (s.drawKey r use).define = s.define
      ∧ (s.drawKey r use).reverting = s.reverting ∧ (s.drawKey r use).revertRequest = s.revertRequest
      ∧ (s.drawKey r use).store = s.store ∧ (s.drawKey r use).holdup = s.holdup
      ∧ (s.drawKey r use).management = s.management ∧ (s.drawKey r use).alerts = s.alerts
      ∧ (s.drawKey r use).offered = s.offered ∧ (s.drawKey r use).sent = s.sent
      ∧ (s.drawKey r use).pending = s.pending := by rw [State.drawKey_frame]; simp

@[simp] theorem State.placeOffer_rest :
    (s.placeOffer).geometry = s.geometry ∧ (s.placeOffer).fuses = s.fuses ∧ (s.placeOffer).stored = s.stored
      ∧ (s.placeOffer).work = s.work ∧ (s.placeOffer).regions = s.regions
      ∧ (s.placeOffer).boundary = s.boundary ∧ (s.placeOffer).keys = s.keys
      ∧ (s.placeOffer).random = s.random ∧ (s.placeOffer).transfers = s.transfers
      ∧ (s.placeOffer).port = s.port ∧ (s.placeOffer).credentials = s.credentials
      ∧ (s.placeOffer).revertBackoff = s.revertBackoff ∧ (s.placeOffer).derivation = s.derivation
      ∧ (s.placeOffer).startUp = s.startUp ∧ (s.placeOffer).window = s.window
      ∧ (s.placeOffer).tamper = s.tamper ∧ (s.placeOffer).time = s.time
      ∧ (s.placeOffer).deadlines = s.deadlines ∧ (s.placeOffer).response = s.response
      ∧ (s.placeOffer).erases = s.erases ∧ (s.placeOffer).define = s.define
      ∧ (s.placeOffer).reverting = s.reverting ∧ (s.placeOffer).revertRequest = s.revertRequest
      ∧ (s.placeOffer).store = s.store ∧ (s.placeOffer).holdup = s.holdup
      ∧ (s.placeOffer).management = s.management ∧ (s.placeOffer).alerts = s.alerts
      ∧ (s.placeOffer).offered = s.offered ∧ (s.placeOffer).sent = s.sent
      ∧ (s.placeOffer).pending = s.pending := by rw [State.placeOffer_frame]; simp

@[simp] theorem State.tryFinish_rest :
    (s.tryFinish).geometry = s.geometry ∧ (s.tryFinish).fuses = s.fuses ∧ (s.tryFinish).stored = s.stored
      ∧ (s.tryFinish).work = s.work ∧ (s.tryFinish).regions = s.regions
      ∧ (s.tryFinish).boundary = s.boundary ∧ (s.tryFinish).keys = s.keys ∧ (s.tryFinish).random = s.random
      ∧ (s.tryFinish).transfers = s.transfers ∧ (s.tryFinish).port = s.port
      ∧ (s.tryFinish).credentials = s.credentials ∧ (s.tryFinish).revertBackoff = s.revertBackoff
      ∧ (s.tryFinish).derivation = s.derivation ∧ (s.tryFinish).startUp = s.startUp
      ∧ (s.tryFinish).window = s.window ∧ (s.tryFinish).tamper = s.tamper ∧ (s.tryFinish).time = s.time
      ∧ (s.tryFinish).deadlines = s.deadlines ∧ (s.tryFinish).response = s.response
      ∧ (s.tryFinish).erases = s.erases ∧ (s.tryFinish).define = s.define
      ∧ (s.tryFinish).reverting = s.reverting ∧ (s.tryFinish).revertRequest = s.revertRequest
      ∧ (s.tryFinish).holdup = s.holdup ∧ (s.tryFinish).management = s.management
      ∧ (s.tryFinish).alerts = s.alerts ∧ (s.tryFinish).offered = s.offered ∧ (s.tryFinish).sent = s.sent
      ∧ (s.tryFinish).pending = s.pending := by rw [State.tryFinish_frame]; simp

@[simp] theorem State.tryCheckpoint_rest :
    (s.tryCheckpoint).geometry = s.geometry ∧ (s.tryCheckpoint).fuses = s.fuses
      ∧ (s.tryCheckpoint).stored = s.stored ∧ (s.tryCheckpoint).work = s.work
      ∧ (s.tryCheckpoint).regions = s.regions ∧ (s.tryCheckpoint).boundary = s.boundary
      ∧ (s.tryCheckpoint).keys = s.keys ∧ (s.tryCheckpoint).random = s.random
      ∧ (s.tryCheckpoint).transfers = s.transfers ∧ (s.tryCheckpoint).port = s.port
      ∧ (s.tryCheckpoint).credentials = s.credentials ∧ (s.tryCheckpoint).revertBackoff = s.revertBackoff
      ∧ (s.tryCheckpoint).derivation = s.derivation ∧ (s.tryCheckpoint).startUp = s.startUp
      ∧ (s.tryCheckpoint).window = s.window ∧ (s.tryCheckpoint).tamper = s.tamper
      ∧ (s.tryCheckpoint).time = s.time ∧ (s.tryCheckpoint).deadlines = s.deadlines
      ∧ (s.tryCheckpoint).response = s.response ∧ (s.tryCheckpoint).erases = s.erases
      ∧ (s.tryCheckpoint).define = s.define ∧ (s.tryCheckpoint).reverting = s.reverting
      ∧ (s.tryCheckpoint).revertRequest = s.revertRequest ∧ (s.tryCheckpoint).holdup = s.holdup
      ∧ (s.tryCheckpoint).management = s.management ∧ (s.tryCheckpoint).alerts = s.alerts
      ∧ (s.tryCheckpoint).offered = s.offered ∧ (s.tryCheckpoint).sent = s.sent
      ∧ (s.tryCheckpoint).pending = s.pending := by rw [State.tryCheckpoint_frame]; simp

@[simp] theorem State.scrubFault_rest (r : RegionIx) (v : Nat) :
    (s.scrubFault r v).geometry = s.geometry ∧ (s.scrubFault r v).fuses = s.fuses
      ∧ (s.scrubFault r v).stored = s.stored ∧ (s.scrubFault r v).regions = s.regions
      ∧ (s.scrubFault r v).boundary = s.boundary ∧ (s.scrubFault r v).keys = s.keys
      ∧ (s.scrubFault r v).random = s.random ∧ (s.scrubFault r v).transfers = s.transfers
      ∧ (s.scrubFault r v).port = s.port ∧ (s.scrubFault r v).credentials = s.credentials
      ∧ (s.scrubFault r v).revertBackoff = s.revertBackoff ∧ (s.scrubFault r v).derivation = s.derivation
      ∧ (s.scrubFault r v).startUp = s.startUp ∧ (s.scrubFault r v).window = s.window
      ∧ (s.scrubFault r v).tamper = s.tamper ∧ (s.scrubFault r v).time = s.time
      ∧ (s.scrubFault r v).deadlines = s.deadlines ∧ (s.scrubFault r v).response = s.response
      ∧ (s.scrubFault r v).erases = s.erases ∧ (s.scrubFault r v).scrub = s.scrub
      ∧ (s.scrubFault r v).define = s.define ∧ (s.scrubFault r v).reverting = s.reverting
      ∧ (s.scrubFault r v).revertRequest = s.revertRequest ∧ (s.scrubFault r v).store = s.store
      ∧ (s.scrubFault r v).holdup = s.holdup ∧ (s.scrubFault r v).management = s.management
      ∧ (s.scrubFault r v).offered = s.offered ∧ (s.scrubFault r v).sent = s.sent
      ∧ (s.scrubFault r v).pending = s.pending := by simp [State.scrubFault]

@[simp] theorem State.setCursor_rest (p : Nat) :
    (s.setCursor p).geometry = s.geometry ∧ (s.setCursor p).fuses = s.fuses
      ∧ (s.setCursor p).stored = s.stored ∧ (s.setCursor p).regions = s.regions
      ∧ (s.setCursor p).boundary = s.boundary ∧ (s.setCursor p).keys = s.keys
      ∧ (s.setCursor p).random = s.random ∧ (s.setCursor p).transfers = s.transfers
      ∧ (s.setCursor p).port = s.port ∧ (s.setCursor p).credentials = s.credentials
      ∧ (s.setCursor p).revertBackoff = s.revertBackoff ∧ (s.setCursor p).derivation = s.derivation
      ∧ (s.setCursor p).startUp = s.startUp ∧ (s.setCursor p).window = s.window
      ∧ (s.setCursor p).tamper = s.tamper ∧ (s.setCursor p).time = s.time
      ∧ (s.setCursor p).deadlines = s.deadlines ∧ (s.setCursor p).response = s.response
      ∧ (s.setCursor p).erases = s.erases ∧ (s.setCursor p).scrub = s.scrub
      ∧ (s.setCursor p).define = s.define ∧ (s.setCursor p).reverting = s.reverting
      ∧ (s.setCursor p).revertRequest = s.revertRequest ∧ (s.setCursor p).store = s.store
      ∧ (s.setCursor p).holdup = s.holdup ∧ (s.setCursor p).management = s.management
      ∧ (s.setCursor p).alerts = s.alerts ∧ (s.setCursor p).offered = s.offered
      ∧ (s.setCursor p).sent = s.sent ∧ (s.setCursor p).pending = s.pending := by unfold State.setCursor; split <;> simp

@[simp] theorem State.startWalk_rest :
    (s.startWalk).geometry = s.geometry ∧ (s.startWalk).fuses = s.fuses ∧ (s.startWalk).stored = s.stored
      ∧ (s.startWalk).regions = s.regions ∧ (s.startWalk).boundary = s.boundary
      ∧ (s.startWalk).random = s.random ∧ (s.startWalk).transfers = s.transfers
      ∧ (s.startWalk).port = s.port ∧ (s.startWalk).credentials = s.credentials
      ∧ (s.startWalk).revertBackoff = s.revertBackoff ∧ (s.startWalk).derivation = s.derivation
      ∧ (s.startWalk).startUp = s.startUp ∧ (s.startWalk).window = s.window
      ∧ (s.startWalk).tamper = s.tamper ∧ (s.startWalk).time = s.time
      ∧ (s.startWalk).deadlines = s.deadlines ∧ (s.startWalk).response = s.response
      ∧ (s.startWalk).erases = s.erases ∧ (s.startWalk).define = s.define
      ∧ (s.startWalk).reverting = s.reverting ∧ (s.startWalk).revertRequest = s.revertRequest
      ∧ (s.startWalk).holdup = s.holdup ∧ (s.startWalk).management = s.management
      ∧ (s.startWalk).offered = s.offered ∧ (s.startWalk).sent = s.sent ∧ (s.startWalk).pending = s.pending := by
  unfold State.startWalk; split
  · simp
  · split
    · simp
    · dsimp only; split <;> simp

@[simp] theorem State.startWalkIfDue_rest :
    (s.startWalkIfDue).geometry = s.geometry ∧ (s.startWalkIfDue).fuses = s.fuses
      ∧ (s.startWalkIfDue).stored = s.stored ∧ (s.startWalkIfDue).regions = s.regions
      ∧ (s.startWalkIfDue).boundary = s.boundary ∧ (s.startWalkIfDue).random = s.random
      ∧ (s.startWalkIfDue).transfers = s.transfers ∧ (s.startWalkIfDue).port = s.port
      ∧ (s.startWalkIfDue).credentials = s.credentials ∧ (s.startWalkIfDue).revertBackoff = s.revertBackoff
      ∧ (s.startWalkIfDue).derivation = s.derivation ∧ (s.startWalkIfDue).startUp = s.startUp
      ∧ (s.startWalkIfDue).window = s.window ∧ (s.startWalkIfDue).tamper = s.tamper
      ∧ (s.startWalkIfDue).time = s.time ∧ (s.startWalkIfDue).deadlines = s.deadlines
      ∧ (s.startWalkIfDue).response = s.response ∧ (s.startWalkIfDue).erases = s.erases
      ∧ (s.startWalkIfDue).define = s.define ∧ (s.startWalkIfDue).reverting = s.reverting
      ∧ (s.startWalkIfDue).revertRequest = s.revertRequest ∧ (s.startWalkIfDue).holdup = s.holdup
      ∧ (s.startWalkIfDue).management = s.management ∧ (s.startWalkIfDue).offered = s.offered
      ∧ (s.startWalkIfDue).sent = s.sent ∧ (s.startWalkIfDue).pending = s.pending := by
  unfold State.startWalkIfDue; split <;> simp

@[simp] theorem State.settleHead_rest :
    (s.settleHead).geometry = s.geometry ∧ (s.settleHead).fuses = s.fuses ∧ (s.settleHead).stored = s.stored
      ∧ (s.settleHead).work = s.work ∧ (s.settleHead).regions = s.regions
      ∧ (s.settleHead).boundary = s.boundary ∧ (s.settleHead).keys = s.keys
      ∧ (s.settleHead).random = s.random ∧ (s.settleHead).transfers = s.transfers
      ∧ (s.settleHead).credentials = s.credentials ∧ (s.settleHead).revertBackoff = s.revertBackoff
      ∧ (s.settleHead).derivation = s.derivation ∧ (s.settleHead).startUp = s.startUp
      ∧ (s.settleHead).window = s.window ∧ (s.settleHead).tamper = s.tamper ∧ (s.settleHead).time = s.time
      ∧ (s.settleHead).deadlines = s.deadlines ∧ (s.settleHead).response = s.response
      ∧ (s.settleHead).erases = s.erases ∧ (s.settleHead).define = s.define
      ∧ (s.settleHead).reverting = s.reverting ∧ (s.settleHead).revertRequest = s.revertRequest
      ∧ (s.settleHead).store = s.store ∧ (s.settleHead).holdup = s.holdup
      ∧ (s.settleHead).management = s.management ∧ (s.settleHead).alerts = s.alerts
      ∧ (s.settleHead).offered = s.offered ∧ (s.settleHead).sent = s.sent
      ∧ (s.settleHead).pending = s.pending := by unfold State.settleHead; split <;> simp

@[simp] theorem State.holdHead_rest (r : RegionIx) :
    (s.holdHead r).geometry = s.geometry ∧ (s.holdHead r).fuses = s.fuses ∧ (s.holdHead r).stored = s.stored
      ∧ (s.holdHead r).work = s.work ∧ (s.holdHead r).regions = s.regions
      ∧ (s.holdHead r).boundary = s.boundary ∧ (s.holdHead r).keys = s.keys
      ∧ (s.holdHead r).random = s.random ∧ (s.holdHead r).transfers = s.transfers
      ∧ (s.holdHead r).port = s.port ∧ (s.holdHead r).credentials = s.credentials
      ∧ (s.holdHead r).revertBackoff = s.revertBackoff ∧ (s.holdHead r).derivation = s.derivation
      ∧ (s.holdHead r).startUp = s.startUp ∧ (s.holdHead r).window = s.window
      ∧ (s.holdHead r).tamper = s.tamper ∧ (s.holdHead r).time = s.time
      ∧ (s.holdHead r).deadlines = s.deadlines ∧ (s.holdHead r).response = s.response
      ∧ (s.holdHead r).erases = s.erases ∧ (s.holdHead r).define = s.define
      ∧ (s.holdHead r).reverting = s.reverting ∧ (s.holdHead r).revertRequest = s.revertRequest
      ∧ (s.holdHead r).store = s.store ∧ (s.holdHead r).holdup = s.holdup
      ∧ (s.holdHead r).management = s.management ∧ (s.holdHead r).alerts = s.alerts
      ∧ (s.holdHead r).offered = s.offered ∧ (s.holdHead r).sent = s.sent
      ∧ (s.holdHead r).pending = s.pending := by unfold State.holdHead; split <;> simp

@[simp] theorem State.applyScrubEntry_rest (r : RegionIx) :
    (s.applyScrubEntry r).geometry = s.geometry ∧ (s.applyScrubEntry r).fuses = s.fuses
      ∧ (s.applyScrubEntry r).stored = s.stored ∧ (s.applyScrubEntry r).regions = s.regions
      ∧ (s.applyScrubEntry r).boundary = s.boundary ∧ (s.applyScrubEntry r).keys = s.keys
      ∧ (s.applyScrubEntry r).random = s.random ∧ (s.applyScrubEntry r).transfers = s.transfers
      ∧ (s.applyScrubEntry r).credentials = s.credentials
      ∧ (s.applyScrubEntry r).revertBackoff = s.revertBackoff
      ∧ (s.applyScrubEntry r).derivation = s.derivation ∧ (s.applyScrubEntry r).startUp = s.startUp
      ∧ (s.applyScrubEntry r).window = s.window ∧ (s.applyScrubEntry r).tamper = s.tamper
      ∧ (s.applyScrubEntry r).time = s.time ∧ (s.applyScrubEntry r).deadlines = s.deadlines
      ∧ (s.applyScrubEntry r).response = s.response ∧ (s.applyScrubEntry r).erases = s.erases
      ∧ (s.applyScrubEntry r).define = s.define ∧ (s.applyScrubEntry r).reverting = s.reverting
      ∧ (s.applyScrubEntry r).revertRequest = s.revertRequest ∧ (s.applyScrubEntry r).store = s.store
      ∧ (s.applyScrubEntry r).holdup = s.holdup ∧ (s.applyScrubEntry r).management = s.management
      ∧ (s.applyScrubEntry r).alerts = s.alerts ∧ (s.applyScrubEntry r).offered = s.offered
      ∧ (s.applyScrubEntry r).sent = s.sent ∧ (s.applyScrubEntry r).pending = s.pending := by
  unfold State.applyScrubEntry; dsimp only [State.entryToStart]; split <;> split <;> simp

@[simp] theorem State.moveCursor_rest (p : Nat) :
    (s.moveCursor p).geometry = s.geometry ∧ (s.moveCursor p).fuses = s.fuses
      ∧ (s.moveCursor p).stored = s.stored ∧ (s.moveCursor p).regions = s.regions
      ∧ (s.moveCursor p).boundary = s.boundary ∧ (s.moveCursor p).keys = s.keys
      ∧ (s.moveCursor p).random = s.random ∧ (s.moveCursor p).transfers = s.transfers
      ∧ (s.moveCursor p).port = s.port ∧ (s.moveCursor p).credentials = s.credentials
      ∧ (s.moveCursor p).revertBackoff = s.revertBackoff ∧ (s.moveCursor p).derivation = s.derivation
      ∧ (s.moveCursor p).startUp = s.startUp ∧ (s.moveCursor p).window = s.window
      ∧ (s.moveCursor p).tamper = s.tamper ∧ (s.moveCursor p).time = s.time
      ∧ (s.moveCursor p).deadlines = s.deadlines ∧ (s.moveCursor p).response = s.response
      ∧ (s.moveCursor p).erases = s.erases ∧ (s.moveCursor p).define = s.define
      ∧ (s.moveCursor p).reverting = s.reverting ∧ (s.moveCursor p).revertRequest = s.revertRequest
      ∧ (s.moveCursor p).holdup = s.holdup ∧ (s.moveCursor p).management = s.management
      ∧ (s.moveCursor p).alerts = s.alerts ∧ (s.moveCursor p).offered = s.offered
      ∧ (s.moveCursor p).sent = s.sent ∧ (s.moveCursor p).pending = s.pending := by
  unfold State.moveCursor; split <;> simp

@[simp] theorem State.chunkEnd_rest (c : Chunk) (v : Status) :
    (s.chunkEnd c v).geometry = s.geometry ∧ (s.chunkEnd c v).fuses = s.fuses
      ∧ (s.chunkEnd c v).stored = s.stored ∧ (s.chunkEnd c v).regions = s.regions
      ∧ (s.chunkEnd c v).boundary = s.boundary ∧ (s.chunkEnd c v).keys = s.keys
      ∧ (s.chunkEnd c v).random = s.random ∧ (s.chunkEnd c v).transfers = s.transfers
      ∧ (s.chunkEnd c v).port = s.port ∧ (s.chunkEnd c v).credentials = s.credentials
      ∧ (s.chunkEnd c v).revertBackoff = s.revertBackoff ∧ (s.chunkEnd c v).derivation = s.derivation
      ∧ (s.chunkEnd c v).startUp = s.startUp ∧ (s.chunkEnd c v).window = s.window
      ∧ (s.chunkEnd c v).tamper = s.tamper ∧ (s.chunkEnd c v).time = s.time
      ∧ (s.chunkEnd c v).deadlines = s.deadlines ∧ (s.chunkEnd c v).response = s.response
      ∧ (s.chunkEnd c v).erases = s.erases ∧ (s.chunkEnd c v).define = s.define
      ∧ (s.chunkEnd c v).reverting = s.reverting ∧ (s.chunkEnd c v).revertRequest = s.revertRequest
      ∧ (s.chunkEnd c v).holdup = s.holdup ∧ (s.chunkEnd c v).management = s.management
      ∧ (s.chunkEnd c v).offered = s.offered ∧ (s.chunkEnd c v).sent = s.sent
      ∧ (s.chunkEnd c v).pending = s.pending := by rw [State.chunkEnd_frame]; simp

@[simp] theorem State.completeIfDone_rest (t : Transfer) :
    (s.completeIfDone t).geometry = s.geometry ∧ (s.completeIfDone t).fuses = s.fuses
      ∧ (s.completeIfDone t).stored = s.stored ∧ (s.completeIfDone t).work = s.work
      ∧ (s.completeIfDone t).regions = s.regions ∧ (s.completeIfDone t).boundary = s.boundary
      ∧ (s.completeIfDone t).keys = s.keys ∧ (s.completeIfDone t).random = s.random
      ∧ (s.completeIfDone t).port = s.port ∧ (s.completeIfDone t).credentials = s.credentials
      ∧ (s.completeIfDone t).revertBackoff = s.revertBackoff
      ∧ (s.completeIfDone t).derivation = s.derivation ∧ (s.completeIfDone t).startUp = s.startUp
      ∧ (s.completeIfDone t).window = s.window ∧ (s.completeIfDone t).tamper = s.tamper
      ∧ (s.completeIfDone t).time = s.time ∧ (s.completeIfDone t).deadlines = s.deadlines
      ∧ (s.completeIfDone t).response = s.response ∧ (s.completeIfDone t).erases = s.erases
      ∧ (s.completeIfDone t).scrub = s.scrub ∧ (s.completeIfDone t).define = s.define
      ∧ (s.completeIfDone t).reverting = s.reverting ∧ (s.completeIfDone t).revertRequest = s.revertRequest
      ∧ (s.completeIfDone t).store = s.store ∧ (s.completeIfDone t).holdup = s.holdup
      ∧ (s.completeIfDone t).management = s.management ∧ (s.completeIfDone t).alerts = s.alerts
      ∧ (s.completeIfDone t).offered = s.offered ∧ (s.completeIfDone t).pending = s.pending := by rw [State.completeIfDone_frame]; simp

@[simp] theorem State.takeSegment_rest (tag index : Nat) (v : Status) (held : List Block) :
    (s.takeSegment tag index v held).geometry = s.geometry
      ∧ (s.takeSegment tag index v held).fuses = s.fuses
      ∧ (s.takeSegment tag index v held).stored = s.stored ∧ (s.takeSegment tag index v held).work = s.work
      ∧ (s.takeSegment tag index v held).boundary = s.boundary
      ∧ (s.takeSegment tag index v held).random = s.random ∧ (s.takeSegment tag index v held).port = s.port
      ∧ (s.takeSegment tag index v held).credentials = s.credentials
      ∧ (s.takeSegment tag index v held).revertBackoff = s.revertBackoff
      ∧ (s.takeSegment tag index v held).derivation = s.derivation
      ∧ (s.takeSegment tag index v held).startUp = s.startUp
      ∧ (s.takeSegment tag index v held).window = s.window
      ∧ (s.takeSegment tag index v held).tamper = s.tamper ∧ (s.takeSegment tag index v held).time = s.time
      ∧ (s.takeSegment tag index v held).deadlines = s.deadlines
      ∧ (s.takeSegment tag index v held).response = s.response
      ∧ (s.takeSegment tag index v held).erases = s.erases
      ∧ (s.takeSegment tag index v held).scrub = s.scrub
      ∧ (s.takeSegment tag index v held).define = s.define
      ∧ (s.takeSegment tag index v held).reverting = s.reverting
      ∧ (s.takeSegment tag index v held).revertRequest = s.revertRequest
      ∧ (s.takeSegment tag index v held).store = s.store
      ∧ (s.takeSegment tag index v held).holdup = s.holdup
      ∧ (s.takeSegment tag index v held).management = s.management
      ∧ (s.takeSegment tag index v held).alerts = s.alerts
      ∧ (s.takeSegment tag index v held).offered = s.offered
      ∧ (s.takeSegment tag index v held).pending = s.pending := by rw [State.takeSegment_frame]; simp

@[simp] theorem State.issue_rest (i : SlotIx) (o : Occupant) (k : MediaKind) (e : Option Extent) (d : List Block) :
    (s.issue i o k e d).geometry = s.geometry ∧ (s.issue i o k e d).fuses = s.fuses
      ∧ (s.issue i o k e d).stored = s.stored ∧ (s.issue i o k e d).work = s.work
      ∧ (s.issue i o k e d).regions = s.regions ∧ (s.issue i o k e d).boundary = s.boundary
      ∧ (s.issue i o k e d).keys = s.keys ∧ (s.issue i o k e d).random = s.random
      ∧ (s.issue i o k e d).transfers = s.transfers ∧ (s.issue i o k e d).credentials = s.credentials
      ∧ (s.issue i o k e d).revertBackoff = s.revertBackoff ∧ (s.issue i o k e d).derivation = s.derivation
      ∧ (s.issue i o k e d).startUp = s.startUp ∧ (s.issue i o k e d).window = s.window
      ∧ (s.issue i o k e d).tamper = s.tamper ∧ (s.issue i o k e d).time = s.time
      ∧ (s.issue i o k e d).deadlines = s.deadlines ∧ (s.issue i o k e d).response = s.response
      ∧ (s.issue i o k e d).erases = s.erases ∧ (s.issue i o k e d).scrub = s.scrub
      ∧ (s.issue i o k e d).define = s.define ∧ (s.issue i o k e d).reverting = s.reverting
      ∧ (s.issue i o k e d).revertRequest = s.revertRequest ∧ (s.issue i o k e d).store = s.store
      ∧ (s.issue i o k e d).holdup = s.holdup ∧ (s.issue i o k e d).management = s.management
      ∧ (s.issue i o k e d).alerts = s.alerts ∧ (s.issue i o k e d).offered = s.offered
      ∧ (s.issue i o k e d).pending = s.pending := by simp [State.issue]

@[simp] theorem State.issueSegment_rest (i : SlotIx) (t : Transfer) (n : Nat) (x : Segment) :
    (s.issueSegment i t n x).geometry = s.geometry ∧ (s.issueSegment i t n x).fuses = s.fuses
      ∧ (s.issueSegment i t n x).stored = s.stored ∧ (s.issueSegment i t n x).work = s.work
      ∧ (s.issueSegment i t n x).regions = s.regions ∧ (s.issueSegment i t n x).boundary = s.boundary
      ∧ (s.issueSegment i t n x).keys = s.keys ∧ (s.issueSegment i t n x).random = s.random
      ∧ (s.issueSegment i t n x).credentials = s.credentials
      ∧ (s.issueSegment i t n x).revertBackoff = s.revertBackoff
      ∧ (s.issueSegment i t n x).derivation = s.derivation ∧ (s.issueSegment i t n x).startUp = s.startUp
      ∧ (s.issueSegment i t n x).window = s.window ∧ (s.issueSegment i t n x).tamper = s.tamper
      ∧ (s.issueSegment i t n x).time = s.time ∧ (s.issueSegment i t n x).deadlines = s.deadlines
      ∧ (s.issueSegment i t n x).response = s.response ∧ (s.issueSegment i t n x).erases = s.erases
      ∧ (s.issueSegment i t n x).scrub = s.scrub ∧ (s.issueSegment i t n x).define = s.define
      ∧ (s.issueSegment i t n x).reverting = s.reverting
      ∧ (s.issueSegment i t n x).revertRequest = s.revertRequest ∧ (s.issueSegment i t n x).store = s.store
      ∧ (s.issueSegment i t n x).holdup = s.holdup ∧ (s.issueSegment i t n x).management = s.management
      ∧ (s.issueSegment i t n x).alerts = s.alerts ∧ (s.issueSegment i t n x).offered = s.offered
      ∧ (s.issueSegment i t n x).pending = s.pending := by rw [State.issueSegment_frame]; simp

@[simp] theorem State.grantSegment_rest (i : SlotIx) :
    (s.grantSegment i).geometry = s.geometry ∧ (s.grantSegment i).fuses = s.fuses
      ∧ (s.grantSegment i).stored = s.stored ∧ (s.grantSegment i).work = s.work
      ∧ (s.grantSegment i).regions = s.regions ∧ (s.grantSegment i).boundary = s.boundary
      ∧ (s.grantSegment i).keys = s.keys ∧ (s.grantSegment i).random = s.random
      ∧ (s.grantSegment i).credentials = s.credentials ∧ (s.grantSegment i).revertBackoff = s.revertBackoff
      ∧ (s.grantSegment i).derivation = s.derivation ∧ (s.grantSegment i).startUp = s.startUp
      ∧ (s.grantSegment i).window = s.window ∧ (s.grantSegment i).tamper = s.tamper
      ∧ (s.grantSegment i).time = s.time ∧ (s.grantSegment i).deadlines = s.deadlines
      ∧ (s.grantSegment i).response = s.response ∧ (s.grantSegment i).erases = s.erases
      ∧ (s.grantSegment i).scrub = s.scrub ∧ (s.grantSegment i).define = s.define
      ∧ (s.grantSegment i).reverting = s.reverting ∧ (s.grantSegment i).revertRequest = s.revertRequest
      ∧ (s.grantSegment i).store = s.store ∧ (s.grantSegment i).holdup = s.holdup
      ∧ (s.grantSegment i).management = s.management ∧ (s.grantSegment i).alerts = s.alerts
      ∧ (s.grantSegment i).offered = s.offered ∧ (s.grantSegment i).pending = s.pending := by rw [State.grantSegment_frame]; simp

@[simp] theorem State.grantChunk_rest (i : SlotIx) (c : Chunk) :
    (s.grantChunk i c).geometry = s.geometry ∧ (s.grantChunk i c).fuses = s.fuses
      ∧ (s.grantChunk i c).stored = s.stored ∧ (s.grantChunk i c).work = s.work
      ∧ (s.grantChunk i c).regions = s.regions ∧ (s.grantChunk i c).boundary = s.boundary
      ∧ (s.grantChunk i c).keys = s.keys ∧ (s.grantChunk i c).random = s.random
      ∧ (s.grantChunk i c).transfers = s.transfers ∧ (s.grantChunk i c).credentials = s.credentials
      ∧ (s.grantChunk i c).revertBackoff = s.revertBackoff ∧ (s.grantChunk i c).derivation = s.derivation
      ∧ (s.grantChunk i c).startUp = s.startUp ∧ (s.grantChunk i c).window = s.window
      ∧ (s.grantChunk i c).tamper = s.tamper ∧ (s.grantChunk i c).time = s.time
      ∧ (s.grantChunk i c).deadlines = s.deadlines ∧ (s.grantChunk i c).response = s.response
      ∧ (s.grantChunk i c).erases = s.erases ∧ (s.grantChunk i c).define = s.define
      ∧ (s.grantChunk i c).reverting = s.reverting ∧ (s.grantChunk i c).revertRequest = s.revertRequest
      ∧ (s.grantChunk i c).store = s.store ∧ (s.grantChunk i c).holdup = s.holdup
      ∧ (s.grantChunk i c).management = s.management ∧ (s.grantChunk i c).alerts = s.alerts
      ∧ (s.grantChunk i c).offered = s.offered ∧ (s.grantChunk i c).pending = s.pending := by rw [State.grantChunk_frame]; simp

@[simp] theorem State.grantOnce_rest (g : Grant) :
    (s.grantOnce g).geometry = s.geometry ∧ (s.grantOnce g).fuses = s.fuses
      ∧ (s.grantOnce g).stored = s.stored ∧ (s.grantOnce g).work = s.work
      ∧ (s.grantOnce g).regions = s.regions ∧ (s.grantOnce g).boundary = s.boundary
      ∧ (s.grantOnce g).keys = s.keys ∧ (s.grantOnce g).random = s.random
      ∧ (s.grantOnce g).credentials = s.credentials ∧ (s.grantOnce g).revertBackoff = s.revertBackoff
      ∧ (s.grantOnce g).derivation = s.derivation ∧ (s.grantOnce g).startUp = s.startUp
      ∧ (s.grantOnce g).window = s.window ∧ (s.grantOnce g).tamper = s.tamper
      ∧ (s.grantOnce g).time = s.time ∧ (s.grantOnce g).deadlines = s.deadlines
      ∧ (s.grantOnce g).response = s.response ∧ (s.grantOnce g).erases = s.erases
      ∧ (s.grantOnce g).define = s.define ∧ (s.grantOnce g).reverting = s.reverting
      ∧ (s.grantOnce g).revertRequest = s.revertRequest ∧ (s.grantOnce g).store = s.store
      ∧ (s.grantOnce g).holdup = s.holdup ∧ (s.grantOnce g).management = s.management
      ∧ (s.grantOnce g).alerts = s.alerts ∧ (s.grantOnce g).offered = s.offered
      ∧ (s.grantOnce g).pending = s.pending := by rw [State.grantOnce_frame]; simp

@[simp] theorem State.arbitrate_rest (n : Nat) :
    (s.arbitrate n).geometry = s.geometry ∧ (s.arbitrate n).fuses = s.fuses
      ∧ (s.arbitrate n).stored = s.stored ∧ (s.arbitrate n).work = s.work
      ∧ (s.arbitrate n).regions = s.regions ∧ (s.arbitrate n).boundary = s.boundary
      ∧ (s.arbitrate n).keys = s.keys ∧ (s.arbitrate n).random = s.random
      ∧ (s.arbitrate n).credentials = s.credentials ∧ (s.arbitrate n).revertBackoff = s.revertBackoff
      ∧ (s.arbitrate n).derivation = s.derivation ∧ (s.arbitrate n).startUp = s.startUp
      ∧ (s.arbitrate n).window = s.window ∧ (s.arbitrate n).tamper = s.tamper
      ∧ (s.arbitrate n).time = s.time ∧ (s.arbitrate n).deadlines = s.deadlines
      ∧ (s.arbitrate n).response = s.response ∧ (s.arbitrate n).erases = s.erases
      ∧ (s.arbitrate n).define = s.define ∧ (s.arbitrate n).reverting = s.reverting
      ∧ (s.arbitrate n).revertRequest = s.revertRequest ∧ (s.arbitrate n).store = s.store
      ∧ (s.arbitrate n).holdup = s.holdup ∧ (s.arbitrate n).management = s.management
      ∧ (s.arbitrate n).alerts = s.alerts ∧ (s.arbitrate n).offered = s.offered
      ∧ (s.arbitrate n).pending = s.pending := by rw [State.arbitrate_frame]; simp

@[simp] theorem State.serveMedia_rest :
    (s.serveMedia).geometry = s.geometry ∧ (s.serveMedia).fuses = s.fuses ∧ (s.serveMedia).stored = s.stored
      ∧ (s.serveMedia).work = s.work ∧ (s.serveMedia).regions = s.regions
      ∧ (s.serveMedia).boundary = s.boundary ∧ (s.serveMedia).keys = s.keys
      ∧ (s.serveMedia).random = s.random ∧ (s.serveMedia).credentials = s.credentials
      ∧ (s.serveMedia).revertBackoff = s.revertBackoff ∧ (s.serveMedia).derivation = s.derivation
      ∧ (s.serveMedia).startUp = s.startUp ∧ (s.serveMedia).window = s.window
      ∧ (s.serveMedia).tamper = s.tamper ∧ (s.serveMedia).time = s.time
      ∧ (s.serveMedia).deadlines = s.deadlines ∧ (s.serveMedia).response = s.response
      ∧ (s.serveMedia).erases = s.erases ∧ (s.serveMedia).define = s.define
      ∧ (s.serveMedia).reverting = s.reverting ∧ (s.serveMedia).revertRequest = s.revertRequest
      ∧ (s.serveMedia).holdup = s.holdup ∧ (s.serveMedia).management = s.management
      ∧ (s.serveMedia).alerts = s.alerts ∧ (s.serveMedia).offered = s.offered
      ∧ (s.serveMedia).pending = s.pending := by rw [State.serveMedia_frame]; simp

@[simp] theorem State.release_rest (i : SlotIx) (x : SlotRecord) (v : Status) :
    (s.release i x v).geometry = s.geometry ∧ (s.release i x v).fuses = s.fuses
      ∧ (s.release i x v).stored = s.stored ∧ (s.release i x v).boundary = s.boundary
      ∧ (s.release i x v).random = s.random ∧ (s.release i x v).credentials = s.credentials
      ∧ (s.release i x v).revertBackoff = s.revertBackoff ∧ (s.release i x v).derivation = s.derivation
      ∧ (s.release i x v).startUp = s.startUp ∧ (s.release i x v).window = s.window
      ∧ (s.release i x v).tamper = s.tamper ∧ (s.release i x v).time = s.time
      ∧ (s.release i x v).deadlines = s.deadlines ∧ (s.release i x v).response = s.response
      ∧ (s.release i x v).erases = s.erases ∧ (s.release i x v).define = s.define
      ∧ (s.release i x v).reverting = s.reverting ∧ (s.release i x v).revertRequest = s.revertRequest
      ∧ (s.release i x v).holdup = s.holdup ∧ (s.release i x v).management = s.management
      ∧ (s.release i x v).offered = s.offered ∧ (s.release i x v).pending = s.pending := by rw [State.release_frame]; simp

@[simp] theorem State.expire_rest (i : SlotIx) :
    (s.expire i).geometry = s.geometry ∧ (s.expire i).fuses = s.fuses ∧ (s.expire i).stored = s.stored
      ∧ (s.expire i).boundary = s.boundary ∧ (s.expire i).random = s.random
      ∧ (s.expire i).credentials = s.credentials ∧ (s.expire i).revertBackoff = s.revertBackoff
      ∧ (s.expire i).derivation = s.derivation ∧ (s.expire i).startUp = s.startUp
      ∧ (s.expire i).window = s.window ∧ (s.expire i).tamper = s.tamper ∧ (s.expire i).time = s.time
      ∧ (s.expire i).deadlines = s.deadlines ∧ (s.expire i).response = s.response
      ∧ (s.expire i).erases = s.erases ∧ (s.expire i).define = s.define
      ∧ (s.expire i).reverting = s.reverting ∧ (s.expire i).revertRequest = s.revertRequest
      ∧ (s.expire i).holdup = s.holdup ∧ (s.expire i).management = s.management
      ∧ (s.expire i).offered = s.offered ∧ (s.expire i).pending = s.pending := by unfold State.expire; split <;> simp

@[simp] theorem State.takeData_rest (o : BitVec 32) (n : Nat) (b : Block) :
    (s.takeData o n b).geometry = s.geometry ∧ (s.takeData o n b).fuses = s.fuses
      ∧ (s.takeData o n b).stored = s.stored ∧ (s.takeData o n b).work = s.work
      ∧ (s.takeData o n b).regions = s.regions ∧ (s.takeData o n b).boundary = s.boundary
      ∧ (s.takeData o n b).keys = s.keys ∧ (s.takeData o n b).random = s.random
      ∧ (s.takeData o n b).transfers = s.transfers ∧ (s.takeData o n b).credentials = s.credentials
      ∧ (s.takeData o n b).revertBackoff = s.revertBackoff ∧ (s.takeData o n b).derivation = s.derivation
      ∧ (s.takeData o n b).startUp = s.startUp ∧ (s.takeData o n b).window = s.window
      ∧ (s.takeData o n b).tamper = s.tamper ∧ (s.takeData o n b).time = s.time
      ∧ (s.takeData o n b).deadlines = s.deadlines ∧ (s.takeData o n b).response = s.response
      ∧ (s.takeData o n b).erases = s.erases ∧ (s.takeData o n b).scrub = s.scrub
      ∧ (s.takeData o n b).define = s.define ∧ (s.takeData o n b).reverting = s.reverting
      ∧ (s.takeData o n b).revertRequest = s.revertRequest ∧ (s.takeData o n b).store = s.store
      ∧ (s.takeData o n b).holdup = s.holdup ∧ (s.takeData o n b).management = s.management
      ∧ (s.takeData o n b).alerts = s.alerts ∧ (s.takeData o n b).offered = s.offered
      ∧ (s.takeData o n b).sent = s.sent ∧ (s.takeData o n b).pending = s.pending := by
  unfold State.takeData; split <;> try simp
  split <;> try simp
  split <;> simp

@[simp] theorem State.setEraseStage_rest (r : RegionIx) (p : Party) (x : EraseStage) :
    (s.setEraseStage r p x).geometry = s.geometry ∧ (s.setEraseStage r p x).fuses = s.fuses
      ∧ (s.setEraseStage r p x).stored = s.stored ∧ (s.setEraseStage r p x).work = s.work
      ∧ (s.setEraseStage r p x).regions = s.regions ∧ (s.setEraseStage r p x).boundary = s.boundary
      ∧ (s.setEraseStage r p x).keys = s.keys ∧ (s.setEraseStage r p x).random = s.random
      ∧ (s.setEraseStage r p x).transfers = s.transfers ∧ (s.setEraseStage r p x).port = s.port
      ∧ (s.setEraseStage r p x).credentials = s.credentials
      ∧ (s.setEraseStage r p x).revertBackoff = s.revertBackoff
      ∧ (s.setEraseStage r p x).derivation = s.derivation ∧ (s.setEraseStage r p x).startUp = s.startUp
      ∧ (s.setEraseStage r p x).window = s.window ∧ (s.setEraseStage r p x).tamper = s.tamper
      ∧ (s.setEraseStage r p x).time = s.time ∧ (s.setEraseStage r p x).deadlines = s.deadlines
      ∧ (s.setEraseStage r p x).response = s.response ∧ (s.setEraseStage r p x).scrub = s.scrub
      ∧ (s.setEraseStage r p x).define = s.define ∧ (s.setEraseStage r p x).reverting = s.reverting
      ∧ (s.setEraseStage r p x).revertRequest = s.revertRequest ∧ (s.setEraseStage r p x).store = s.store
      ∧ (s.setEraseStage r p x).holdup = s.holdup ∧ (s.setEraseStage r p x).management = s.management
      ∧ (s.setEraseStage r p x).alerts = s.alerts ∧ (s.setEraseStage r p x).offered = s.offered
      ∧ (s.setEraseStage r p x).sent = s.sent ∧ (s.setEraseStage r p x).pending = s.pending := by simp [State.setEraseStage]

@[simp] theorem State.dropErase_rest (r : RegionIx) (p : Party) :
    (s.dropErase r p).geometry = s.geometry ∧ (s.dropErase r p).fuses = s.fuses
      ∧ (s.dropErase r p).stored = s.stored ∧ (s.dropErase r p).work = s.work
      ∧ (s.dropErase r p).regions = s.regions ∧ (s.dropErase r p).boundary = s.boundary
      ∧ (s.dropErase r p).keys = s.keys ∧ (s.dropErase r p).random = s.random
      ∧ (s.dropErase r p).transfers = s.transfers ∧ (s.dropErase r p).port = s.port
      ∧ (s.dropErase r p).credentials = s.credentials ∧ (s.dropErase r p).revertBackoff = s.revertBackoff
      ∧ (s.dropErase r p).derivation = s.derivation ∧ (s.dropErase r p).startUp = s.startUp
      ∧ (s.dropErase r p).window = s.window ∧ (s.dropErase r p).tamper = s.tamper
      ∧ (s.dropErase r p).time = s.time ∧ (s.dropErase r p).deadlines = s.deadlines
      ∧ (s.dropErase r p).response = s.response ∧ (s.dropErase r p).scrub = s.scrub
      ∧ (s.dropErase r p).define = s.define ∧ (s.dropErase r p).reverting = s.reverting
      ∧ (s.dropErase r p).revertRequest = s.revertRequest ∧ (s.dropErase r p).store = s.store
      ∧ (s.dropErase r p).holdup = s.holdup ∧ (s.dropErase r p).management = s.management
      ∧ (s.dropErase r p).alerts = s.alerts ∧ (s.dropErase r p).offered = s.offered
      ∧ (s.dropErase r p).sent = s.sent ∧ (s.dropErase r p).pending = s.pending := by simp [State.dropErase]

@[simp] theorem State.beginErase_rest (r : RegionIx) (p : Party) (b : Bool) :
    (s.beginErase r p b).geometry = s.geometry ∧ (s.beginErase r p b).fuses = s.fuses
      ∧ (s.beginErase r p b).stored = s.stored ∧ (s.beginErase r p b).work = s.work
      ∧ (s.beginErase r p b).boundary = s.boundary ∧ (s.beginErase r p b).random = s.random
      ∧ (s.beginErase r p b).transfers = s.transfers ∧ (s.beginErase r p b).port = s.port
      ∧ (s.beginErase r p b).credentials = s.credentials
      ∧ (s.beginErase r p b).revertBackoff = s.revertBackoff
      ∧ (s.beginErase r p b).derivation = s.derivation ∧ (s.beginErase r p b).startUp = s.startUp
      ∧ (s.beginErase r p b).window = s.window ∧ (s.beginErase r p b).tamper = s.tamper
      ∧ (s.beginErase r p b).time = s.time ∧ (s.beginErase r p b).deadlines = s.deadlines
      ∧ (s.beginErase r p b).response = s.response ∧ (s.beginErase r p b).define = s.define
      ∧ (s.beginErase r p b).reverting = s.reverting ∧ (s.beginErase r p b).revertRequest = s.revertRequest
      ∧ (s.beginErase r p b).store = s.store ∧ (s.beginErase r p b).holdup = s.holdup
      ∧ (s.beginErase r p b).management = s.management ∧ (s.beginErase r p b).alerts = s.alerts
      ∧ (s.beginErase r p b).offered = s.offered ∧ (s.beginErase r p b).sent = s.sent
      ∧ (s.beginErase r p b).pending = s.pending := by simp [State.beginErase]

@[simp] theorem State.keyComplete_rest (r : RegionIx) (p : Party) :
    (s.keyComplete r p).geometry = s.geometry ∧ (s.keyComplete r p).fuses = s.fuses
      ∧ (s.keyComplete r p).stored = s.stored ∧ (s.keyComplete r p).work = s.work
      ∧ (s.keyComplete r p).regions = s.regions ∧ (s.keyComplete r p).boundary = s.boundary
      ∧ (s.keyComplete r p).keys = s.keys ∧ (s.keyComplete r p).random = s.random
      ∧ (s.keyComplete r p).transfers = s.transfers ∧ (s.keyComplete r p).port = s.port
      ∧ (s.keyComplete r p).credentials = s.credentials
      ∧ (s.keyComplete r p).revertBackoff = s.revertBackoff ∧ (s.keyComplete r p).derivation = s.derivation
      ∧ (s.keyComplete r p).startUp = s.startUp ∧ (s.keyComplete r p).window = s.window
      ∧ (s.keyComplete r p).tamper = s.tamper ∧ (s.keyComplete r p).time = s.time
      ∧ (s.keyComplete r p).deadlines = s.deadlines ∧ (s.keyComplete r p).scrub = s.scrub
      ∧ (s.keyComplete r p).define = s.define ∧ (s.keyComplete r p).reverting = s.reverting
      ∧ (s.keyComplete r p).revertRequest = s.revertRequest ∧ (s.keyComplete r p).holdup = s.holdup
      ∧ (s.keyComplete r p).management = s.management ∧ (s.keyComplete r p).alerts = s.alerts
      ∧ (s.keyComplete r p).offered = s.offered ∧ (s.keyComplete r p).sent = s.sent
      ∧ (s.keyComplete r p).pending = s.pending := by
  unfold State.keyComplete; dsimp only
  split
  · simp
  · split <;> simp
  · split
    · split <;> simp
    · simp

@[simp] theorem State.destroyKey_rest (r : RegionIx) (p : Party) :
    (s.destroyKey r p).geometry = s.geometry ∧ (s.destroyKey r p).fuses = s.fuses
      ∧ (s.destroyKey r p).stored = s.stored ∧ (s.destroyKey r p).regions = s.regions
      ∧ (s.destroyKey r p).boundary = s.boundary ∧ (s.destroyKey r p).transfers = s.transfers
      ∧ (s.destroyKey r p).port = s.port ∧ (s.destroyKey r p).credentials = s.credentials
      ∧ (s.destroyKey r p).revertBackoff = s.revertBackoff ∧ (s.destroyKey r p).derivation = s.derivation
      ∧ (s.destroyKey r p).startUp = s.startUp ∧ (s.destroyKey r p).window = s.window
      ∧ (s.destroyKey r p).tamper = s.tamper ∧ (s.destroyKey r p).time = s.time
      ∧ (s.destroyKey r p).deadlines = s.deadlines ∧ (s.destroyKey r p).scrub = s.scrub
      ∧ (s.destroyKey r p).define = s.define ∧ (s.destroyKey r p).reverting = s.reverting
      ∧ (s.destroyKey r p).revertRequest = s.revertRequest ∧ (s.destroyKey r p).holdup = s.holdup
      ∧ (s.destroyKey r p).management = s.management ∧ (s.destroyKey r p).alerts = s.alerts
      ∧ (s.destroyKey r p).offered = s.offered ∧ (s.destroyKey r p).sent = s.sent
      ∧ (s.destroyKey r p).pending = s.pending := by
  unfold State.destroyKey; dsimp only
  split
  · simp
  · split <;> simp

/-- What the destruction steps leave as it was. -/
def State.EraseFrame (s b : State) : Prop :=
  b.geometry = s.geometry ∧ b.fuses = s.fuses ∧ b.stored = s.stored ∧
    b.regions = s.regions ∧ b.boundary = s.boundary ∧ b.transfers = s.transfers ∧ b.port = s.port ∧
    b.credentials = s.credentials ∧ b.revertBackoff = s.revertBackoff ∧ b.derivation = s.derivation ∧
    b.startUp = s.startUp ∧ b.window = s.window ∧ b.tamper = s.tamper ∧ b.time = s.time ∧ b.deadlines =
    s.deadlines ∧ b.scrub = s.scrub ∧ b.define = s.define ∧ b.reverting = s.reverting ∧ b.revertRequest =
    s.revertRequest ∧ b.holdup = s.holdup ∧ b.management = s.management ∧ b.alerts = s.alerts ∧ b.offered =
    s.offered ∧ b.sent = s.sent ∧ b.pending = s.pending

@[simp] theorem State.destroyIfDue_rest (r : RegionIx) :
    (s.destroyIfDue r).geometry = s.geometry ∧ (s.destroyIfDue r).fuses = s.fuses
      ∧ (s.destroyIfDue r).stored = s.stored ∧ (s.destroyIfDue r).regions = s.regions
      ∧ (s.destroyIfDue r).boundary = s.boundary ∧ (s.destroyIfDue r).transfers = s.transfers
      ∧ (s.destroyIfDue r).port = s.port ∧ (s.destroyIfDue r).credentials = s.credentials
      ∧ (s.destroyIfDue r).revertBackoff = s.revertBackoff ∧ (s.destroyIfDue r).derivation = s.derivation
      ∧ (s.destroyIfDue r).startUp = s.startUp ∧ (s.destroyIfDue r).window = s.window
      ∧ (s.destroyIfDue r).tamper = s.tamper ∧ (s.destroyIfDue r).time = s.time
      ∧ (s.destroyIfDue r).deadlines = s.deadlines ∧ (s.destroyIfDue r).scrub = s.scrub
      ∧ (s.destroyIfDue r).define = s.define ∧ (s.destroyIfDue r).reverting = s.reverting
      ∧ (s.destroyIfDue r).revertRequest = s.revertRequest ∧ (s.destroyIfDue r).holdup = s.holdup
      ∧ (s.destroyIfDue r).management = s.management ∧ (s.destroyIfDue r).alerts = s.alerts
      ∧ (s.destroyIfDue r).offered = s.offered ∧ (s.destroyIfDue r).sent = s.sent
      ∧ (s.destroyIfDue r).pending = s.pending := by
  refine foldl_keeps (State.EraseFrame s) _ ?_ _ s (by simp [State.EraseFrame])
  intro b p hb
  simpa only [State.EraseFrame, State.destroyKey_rest] using hb

@[simp] theorem State.destroyAllDue_rest :
    (s.destroyAllDue).geometry = s.geometry ∧ (s.destroyAllDue).fuses = s.fuses
      ∧ (s.destroyAllDue).stored = s.stored ∧ (s.destroyAllDue).regions = s.regions
      ∧ (s.destroyAllDue).boundary = s.boundary ∧ (s.destroyAllDue).transfers = s.transfers
      ∧ (s.destroyAllDue).port = s.port ∧ (s.destroyAllDue).credentials = s.credentials
      ∧ (s.destroyAllDue).revertBackoff = s.revertBackoff ∧ (s.destroyAllDue).derivation = s.derivation
      ∧ (s.destroyAllDue).startUp = s.startUp ∧ (s.destroyAllDue).window = s.window
      ∧ (s.destroyAllDue).tamper = s.tamper ∧ (s.destroyAllDue).time = s.time
      ∧ (s.destroyAllDue).deadlines = s.deadlines ∧ (s.destroyAllDue).scrub = s.scrub
      ∧ (s.destroyAllDue).define = s.define ∧ (s.destroyAllDue).reverting = s.reverting
      ∧ (s.destroyAllDue).revertRequest = s.revertRequest ∧ (s.destroyAllDue).holdup = s.holdup
      ∧ (s.destroyAllDue).management = s.management ∧ (s.destroyAllDue).alerts = s.alerts
      ∧ (s.destroyAllDue).offered = s.offered ∧ (s.destroyAllDue).sent = s.sent
      ∧ (s.destroyAllDue).pending = s.pending := by
  refine foldl_keeps (State.EraseFrame s) _ ?_ _ s (by simp [State.EraseFrame])
  intro b r hb
  simpa only [State.EraseFrame, State.destroyIfDue_rest] using hb

@[simp] theorem State.wrapMaterial_rest (r : RegionIx) (g : Nat) (b : BitVec 512) :
    (s.wrapMaterial r g b).geometry = s.geometry ∧ (s.wrapMaterial r g b).fuses = s.fuses
      ∧ (s.wrapMaterial r g b).stored = s.stored ∧ (s.wrapMaterial r g b).regions = s.regions
      ∧ (s.wrapMaterial r g b).boundary = s.boundary ∧ (s.wrapMaterial r g b).keys = s.keys
      ∧ (s.wrapMaterial r g b).random = s.random ∧ (s.wrapMaterial r g b).transfers = s.transfers
      ∧ (s.wrapMaterial r g b).port = s.port ∧ (s.wrapMaterial r g b).credentials = s.credentials
      ∧ (s.wrapMaterial r g b).revertBackoff = s.revertBackoff
      ∧ (s.wrapMaterial r g b).derivation = s.derivation ∧ (s.wrapMaterial r g b).startUp = s.startUp
      ∧ (s.wrapMaterial r g b).window = s.window ∧ (s.wrapMaterial r g b).tamper = s.tamper
      ∧ (s.wrapMaterial r g b).time = s.time ∧ (s.wrapMaterial r g b).deadlines = s.deadlines
      ∧ (s.wrapMaterial r g b).response = s.response ∧ (s.wrapMaterial r g b).erases = s.erases
      ∧ (s.wrapMaterial r g b).scrub = s.scrub ∧ (s.wrapMaterial r g b).define = s.define
      ∧ (s.wrapMaterial r g b).reverting = s.reverting
      ∧ (s.wrapMaterial r g b).revertRequest = s.revertRequest ∧ (s.wrapMaterial r g b).store = s.store
      ∧ (s.wrapMaterial r g b).holdup = s.holdup ∧ (s.wrapMaterial r g b).management = s.management
      ∧ (s.wrapMaterial r g b).alerts = s.alerts ∧ (s.wrapMaterial r g b).offered = s.offered
      ∧ (s.wrapMaterial r g b).sent = s.sent ∧ (s.wrapMaterial r g b).pending = s.pending := by unfold State.wrapMaterial; split <;> simp

@[simp] theorem State.takeMaterial_rest (r : RegionIx) (g : Nat) (u : DrawUse) (b : BitVec 512) :
    (s.takeMaterial r g u b).geometry = s.geometry ∧ (s.takeMaterial r g u b).fuses = s.fuses
      ∧ (s.takeMaterial r g u b).stored = s.stored ∧ (s.takeMaterial r g u b).regions = s.regions
      ∧ (s.takeMaterial r g u b).boundary = s.boundary ∧ (s.takeMaterial r g u b).keys = s.keys
      ∧ (s.takeMaterial r g u b).random = s.random ∧ (s.takeMaterial r g u b).transfers = s.transfers
      ∧ (s.takeMaterial r g u b).port = s.port ∧ (s.takeMaterial r g u b).credentials = s.credentials
      ∧ (s.takeMaterial r g u b).revertBackoff = s.revertBackoff
      ∧ (s.takeMaterial r g u b).derivation = s.derivation ∧ (s.takeMaterial r g u b).startUp = s.startUp
      ∧ (s.takeMaterial r g u b).window = s.window ∧ (s.takeMaterial r g u b).tamper = s.tamper
      ∧ (s.takeMaterial r g u b).time = s.time ∧ (s.takeMaterial r g u b).deadlines = s.deadlines
      ∧ (s.takeMaterial r g u b).scrub = s.scrub ∧ (s.takeMaterial r g u b).define = s.define
      ∧ (s.takeMaterial r g u b).reverting = s.reverting
      ∧ (s.takeMaterial r g u b).revertRequest = s.revertRequest
      ∧ (s.takeMaterial r g u b).holdup = s.holdup ∧ (s.takeMaterial r g u b).management = s.management
      ∧ (s.takeMaterial r g u b).alerts = s.alerts ∧ (s.takeMaterial r g u b).offered = s.offered
      ∧ (s.takeMaterial r g u b).sent = s.sent ∧ (s.takeMaterial r g u b).pending = s.pending := by
  unfold State.takeMaterial
  split
  · split <;> simp
  · split <;> simp

@[simp] theorem State.releaseHold_rest (r : RegionIx) :
    (s.releaseHold r).geometry = s.geometry ∧ (s.releaseHold r).fuses = s.fuses
      ∧ (s.releaseHold r).stored = s.stored ∧ (s.releaseHold r).work = s.work
      ∧ (s.releaseHold r).boundary = s.boundary ∧ (s.releaseHold r).keys = s.keys
      ∧ (s.releaseHold r).random = s.random ∧ (s.releaseHold r).transfers = s.transfers
      ∧ (s.releaseHold r).port = s.port ∧ (s.releaseHold r).credentials = s.credentials
      ∧ (s.releaseHold r).revertBackoff = s.revertBackoff ∧ (s.releaseHold r).derivation = s.derivation
      ∧ (s.releaseHold r).startUp = s.startUp ∧ (s.releaseHold r).window = s.window
      ∧ (s.releaseHold r).tamper = s.tamper ∧ (s.releaseHold r).time = s.time
      ∧ (s.releaseHold r).deadlines = s.deadlines ∧ (s.releaseHold r).response = s.response
      ∧ (s.releaseHold r).erases = s.erases ∧ (s.releaseHold r).scrub = s.scrub
      ∧ (s.releaseHold r).define = s.define ∧ (s.releaseHold r).reverting = s.reverting
      ∧ (s.releaseHold r).revertRequest = s.revertRequest ∧ (s.releaseHold r).store = s.store
      ∧ (s.releaseHold r).holdup = s.holdup ∧ (s.releaseHold r).management = s.management
      ∧ (s.releaseHold r).alerts = s.alerts ∧ (s.releaseHold r).offered = s.offered
      ∧ (s.releaseHold r).sent = s.sent ∧ (s.releaseHold r).pending = s.pending := by
  unfold State.releaseHold; split <;> simp

@[simp] theorem State.endRevertErase_rest (r : RegionIx) :
    (s.endRevertErase r).geometry = s.geometry ∧ (s.endRevertErase r).fuses = s.fuses
      ∧ (s.endRevertErase r).stored = s.stored ∧ (s.endRevertErase r).boundary = s.boundary
      ∧ (s.endRevertErase r).keys = s.keys ∧ (s.endRevertErase r).random = s.random
      ∧ (s.endRevertErase r).transfers = s.transfers ∧ (s.endRevertErase r).port = s.port
      ∧ (s.endRevertErase r).credentials = s.credentials
      ∧ (s.endRevertErase r).revertBackoff = s.revertBackoff
      ∧ (s.endRevertErase r).derivation = s.derivation ∧ (s.endRevertErase r).startUp = s.startUp
      ∧ (s.endRevertErase r).window = s.window ∧ (s.endRevertErase r).tamper = s.tamper
      ∧ (s.endRevertErase r).time = s.time ∧ (s.endRevertErase r).deadlines = s.deadlines
      ∧ (s.endRevertErase r).response = s.response ∧ (s.endRevertErase r).erases = s.erases
      ∧ (s.endRevertErase r).scrub = s.scrub ∧ (s.endRevertErase r).define = s.define
      ∧ (s.endRevertErase r).reverting = s.reverting
      ∧ (s.endRevertErase r).revertRequest = s.revertRequest ∧ (s.endRevertErase r).store = s.store
      ∧ (s.endRevertErase r).holdup = s.holdup ∧ (s.endRevertErase r).management = s.management
      ∧ (s.endRevertErase r).alerts = s.alerts ∧ (s.endRevertErase r).offered = s.offered
      ∧ (s.endRevertErase r).sent = s.sent ∧ (s.endRevertErase r).pending = s.pending := by
  unfold State.endRevertErase; split <;> simp

@[simp] theorem State.eraseDone_rest (r : RegionIx) (b : Bool) :
    (s.eraseDone r b).geometry = s.geometry ∧ (s.eraseDone r b).fuses = s.fuses
      ∧ (s.eraseDone r b).stored = s.stored ∧ (s.eraseDone r b).boundary = s.boundary
      ∧ (s.eraseDone r b).keys = s.keys ∧ (s.eraseDone r b).random = s.random
      ∧ (s.eraseDone r b).transfers = s.transfers ∧ (s.eraseDone r b).credentials = s.credentials
      ∧ (s.eraseDone r b).revertBackoff = s.revertBackoff ∧ (s.eraseDone r b).derivation = s.derivation
      ∧ (s.eraseDone r b).startUp = s.startUp ∧ (s.eraseDone r b).window = s.window
      ∧ (s.eraseDone r b).tamper = s.tamper ∧ (s.eraseDone r b).time = s.time
      ∧ (s.eraseDone r b).deadlines = s.deadlines ∧ (s.eraseDone r b).response = s.response
      ∧ (s.eraseDone r b).define = s.define ∧ (s.eraseDone r b).reverting = s.reverting
      ∧ (s.eraseDone r b).revertRequest = s.revertRequest ∧ (s.eraseDone r b).store = s.store
      ∧ (s.eraseDone r b).holdup = s.holdup ∧ (s.eraseDone r b).management = s.management
      ∧ (s.eraseDone r b).alerts = s.alerts ∧ (s.eraseDone r b).offered = s.offered
      ∧ (s.eraseDone r b).sent = s.sent ∧ (s.eraseDone r b).pending = s.pending := by
  unfold State.eraseDone; dsimp only; split <;> simp

@[simp] theorem State.relockKeepingMode_rest :
    (s.relockKeepingMode).geometry = s.geometry ∧ (s.relockKeepingMode).fuses = s.fuses
      ∧ (s.relockKeepingMode).stored = s.stored ∧ (s.relockKeepingMode).work = s.work
      ∧ (s.relockKeepingMode).boundary = s.boundary ∧ (s.relockKeepingMode).random = s.random
      ∧ (s.relockKeepingMode).transfers = s.transfers ∧ (s.relockKeepingMode).port = s.port
      ∧ (s.relockKeepingMode).revertBackoff = s.revertBackoff
      ∧ (s.relockKeepingMode).derivation = s.derivation ∧ (s.relockKeepingMode).startUp = s.startUp
      ∧ (s.relockKeepingMode).tamper = s.tamper ∧ (s.relockKeepingMode).time = s.time
      ∧ (s.relockKeepingMode).deadlines = s.deadlines ∧ (s.relockKeepingMode).erases = s.erases
      ∧ (s.relockKeepingMode).scrub = s.scrub ∧ (s.relockKeepingMode).define = s.define
      ∧ (s.relockKeepingMode).reverting = s.reverting
      ∧ (s.relockKeepingMode).revertRequest = s.revertRequest ∧ (s.relockKeepingMode).store = s.store
      ∧ (s.relockKeepingMode).holdup = s.holdup ∧ (s.relockKeepingMode).management = s.management
      ∧ (s.relockKeepingMode).alerts = s.alerts ∧ (s.relockKeepingMode).offered = s.offered
      ∧ (s.relockKeepingMode).sent = s.sent ∧ (s.relockKeepingMode).pending = s.pending := by simp [State.relockKeepingMode]

@[simp] theorem State.lockDown_rest :
    (s.lockDown).geometry = s.geometry ∧ (s.lockDown).fuses = s.fuses ∧ (s.lockDown).stored = s.stored
      ∧ (s.lockDown).regions = s.regions ∧ (s.lockDown).boundary = s.boundary ∧ (s.lockDown).keys = s.keys
      ∧ (s.lockDown).random = s.random ∧ (s.lockDown).transfers = s.transfers ∧ (s.lockDown).port = s.port
      ∧ (s.lockDown).credentials = s.credentials ∧ (s.lockDown).revertBackoff = s.revertBackoff
      ∧ (s.lockDown).derivation = s.derivation ∧ (s.lockDown).startUp = s.startUp
      ∧ (s.lockDown).window = s.window ∧ (s.lockDown).tamper = s.tamper ∧ (s.lockDown).time = s.time
      ∧ (s.lockDown).deadlines = s.deadlines ∧ (s.lockDown).response = s.response
      ∧ (s.lockDown).erases = s.erases ∧ (s.lockDown).scrub = s.scrub ∧ (s.lockDown).define = s.define
      ∧ (s.lockDown).reverting = s.reverting ∧ (s.lockDown).revertRequest = s.revertRequest
      ∧ (s.lockDown).store = s.store ∧ (s.lockDown).holdup = s.holdup
      ∧ (s.lockDown).management = s.management ∧ (s.lockDown).alerts = s.alerts
      ∧ (s.lockDown).offered = s.offered ∧ (s.lockDown).sent = s.sent ∧ (s.lockDown).pending = s.pending := by simp [State.lockDown]

@[simp] theorem State.relock_rest :
    (s.relock).geometry = s.geometry ∧ (s.relock).fuses = s.fuses ∧ (s.relock).stored = s.stored
      ∧ (s.relock).boundary = s.boundary ∧ (s.relock).random = s.random ∧ (s.relock).transfers = s.transfers
      ∧ (s.relock).port = s.port ∧ (s.relock).revertBackoff = s.revertBackoff
      ∧ (s.relock).derivation = s.derivation ∧ (s.relock).startUp = s.startUp ∧ (s.relock).tamper = s.tamper
      ∧ (s.relock).time = s.time ∧ (s.relock).deadlines = s.deadlines ∧ (s.relock).erases = s.erases
      ∧ (s.relock).scrub = s.scrub ∧ (s.relock).define = s.define ∧ (s.relock).reverting = s.reverting
      ∧ (s.relock).revertRequest = s.revertRequest ∧ (s.relock).store = s.store
      ∧ (s.relock).holdup = s.holdup ∧ (s.relock).management = s.management ∧ (s.relock).alerts = s.alerts
      ∧ (s.relock).offered = s.offered ∧ (s.relock).sent = s.sent ∧ (s.relock).pending = s.pending := by simp [State.relock]

@[simp] theorem State.relockIfDue_rest :
    (s.relockIfDue).geometry = s.geometry ∧ (s.relockIfDue).fuses = s.fuses
      ∧ (s.relockIfDue).stored = s.stored ∧ (s.relockIfDue).boundary = s.boundary
      ∧ (s.relockIfDue).random = s.random ∧ (s.relockIfDue).transfers = s.transfers
      ∧ (s.relockIfDue).port = s.port ∧ (s.relockIfDue).revertBackoff = s.revertBackoff
      ∧ (s.relockIfDue).derivation = s.derivation ∧ (s.relockIfDue).startUp = s.startUp
      ∧ (s.relockIfDue).tamper = s.tamper ∧ (s.relockIfDue).time = s.time
      ∧ (s.relockIfDue).deadlines = s.deadlines ∧ (s.relockIfDue).erases = s.erases
      ∧ (s.relockIfDue).scrub = s.scrub ∧ (s.relockIfDue).define = s.define
      ∧ (s.relockIfDue).reverting = s.reverting ∧ (s.relockIfDue).revertRequest = s.revertRequest
      ∧ (s.relockIfDue).store = s.store ∧ (s.relockIfDue).holdup = s.holdup
      ∧ (s.relockIfDue).management = s.management ∧ (s.relockIfDue).alerts = s.alerts
      ∧ (s.relockIfDue).offered = s.offered ∧ (s.relockIfDue).sent = s.sent
      ∧ (s.relockIfDue).pending = s.pending := by
  unfold State.relockIfDue; split
  · split <;> simp
  · simp

@[simp] theorem State.setResponsePhase_rest (p : ResponsePhase) :
    (s.setResponsePhase p).geometry = s.geometry ∧ (s.setResponsePhase p).fuses = s.fuses
      ∧ (s.setResponsePhase p).stored = s.stored ∧ (s.setResponsePhase p).work = s.work
      ∧ (s.setResponsePhase p).regions = s.regions ∧ (s.setResponsePhase p).boundary = s.boundary
      ∧ (s.setResponsePhase p).keys = s.keys ∧ (s.setResponsePhase p).random = s.random
      ∧ (s.setResponsePhase p).transfers = s.transfers ∧ (s.setResponsePhase p).port = s.port
      ∧ (s.setResponsePhase p).credentials = s.credentials
      ∧ (s.setResponsePhase p).revertBackoff = s.revertBackoff
      ∧ (s.setResponsePhase p).derivation = s.derivation ∧ (s.setResponsePhase p).startUp = s.startUp
      ∧ (s.setResponsePhase p).window = s.window ∧ (s.setResponsePhase p).tamper = s.tamper
      ∧ (s.setResponsePhase p).time = s.time ∧ (s.setResponsePhase p).deadlines = s.deadlines
      ∧ (s.setResponsePhase p).erases = s.erases ∧ (s.setResponsePhase p).scrub = s.scrub
      ∧ (s.setResponsePhase p).define = s.define ∧ (s.setResponsePhase p).reverting = s.reverting
      ∧ (s.setResponsePhase p).revertRequest = s.revertRequest ∧ (s.setResponsePhase p).store = s.store
      ∧ (s.setResponsePhase p).holdup = s.holdup ∧ (s.setResponsePhase p).management = s.management
      ∧ (s.setResponsePhase p).alerts = s.alerts ∧ (s.setResponsePhase p).offered = s.offered
      ∧ (s.setResponsePhase p).sent = s.sent ∧ (s.setResponsePhase p).pending = s.pending := by simp [State.setResponsePhase]

@[simp] theorem State.record_rest :
    (s.record).geometry = s.geometry ∧ (s.record).fuses = s.fuses ∧ (s.record).stored = s.stored
      ∧ (s.record).work = s.work ∧ (s.record).regions = s.regions ∧ (s.record).boundary = s.boundary
      ∧ (s.record).keys = s.keys ∧ (s.record).random = s.random ∧ (s.record).transfers = s.transfers
      ∧ (s.record).port = s.port ∧ (s.record).credentials = s.credentials
      ∧ (s.record).revertBackoff = s.revertBackoff ∧ (s.record).derivation = s.derivation
      ∧ (s.record).startUp = s.startUp ∧ (s.record).window = s.window ∧ (s.record).tamper = s.tamper
      ∧ (s.record).time = s.time ∧ (s.record).deadlines = s.deadlines ∧ (s.record).erases = s.erases
      ∧ (s.record).scrub = s.scrub ∧ (s.record).define = s.define ∧ (s.record).reverting = s.reverting
      ∧ (s.record).revertRequest = s.revertRequest ∧ (s.record).holdup = s.holdup
      ∧ (s.record).management = s.management ∧ (s.record).alerts = s.alerts ∧ (s.record).offered = s.offered
      ∧ (s.record).sent = s.sent ∧ (s.record).pending = s.pending := by simp [State.record]

@[simp] theorem State.close_rest :
    (s.close).geometry = s.geometry ∧ (s.close).fuses = s.fuses ∧ (s.close).stored = s.stored
      ∧ (s.close).work = s.work ∧ (s.close).regions = s.regions ∧ (s.close).boundary = s.boundary
      ∧ (s.close).keys = s.keys ∧ (s.close).random = s.random ∧ (s.close).transfers = s.transfers
      ∧ (s.close).port = s.port ∧ (s.close).credentials = s.credentials
      ∧ (s.close).revertBackoff = s.revertBackoff ∧ (s.close).derivation = s.derivation
      ∧ (s.close).startUp = s.startUp ∧ (s.close).window = s.window ∧ (s.close).tamper = s.tamper
      ∧ (s.close).time = s.time ∧ (s.close).deadlines = s.deadlines ∧ (s.close).erases = s.erases
      ∧ (s.close).scrub = s.scrub ∧ (s.close).define = s.define ∧ (s.close).reverting = s.reverting
      ∧ (s.close).revertRequest = s.revertRequest ∧ (s.close).holdup = s.holdup
      ∧ (s.close).management = s.management ∧ (s.close).alerts = s.alerts ∧ (s.close).offered = s.offered
      ∧ (s.close).sent = s.sent ∧ (s.close).pending = s.pending := by simp [State.close]

@[simp] theorem State.startResponse_rest (e : PendingTrigger) :
    (s.startResponse e).geometry = s.geometry ∧ (s.startResponse e).fuses = s.fuses
      ∧ (s.startResponse e).stored = s.stored ∧ (s.startResponse e).boundary = s.boundary
      ∧ (s.startResponse e).random = s.random ∧ (s.startResponse e).transfers = s.transfers
      ∧ (s.startResponse e).port = s.port ∧ (s.startResponse e).revertBackoff = s.revertBackoff
      ∧ (s.startResponse e).derivation = s.derivation ∧ (s.startResponse e).startUp = s.startUp
      ∧ (s.startResponse e).tamper = s.tamper ∧ (s.startResponse e).time = s.time
      ∧ (s.startResponse e).deadlines = s.deadlines ∧ (s.startResponse e).erases = s.erases
      ∧ (s.startResponse e).scrub = s.scrub ∧ (s.startResponse e).define = s.define
      ∧ (s.startResponse e).reverting = s.reverting ∧ (s.startResponse e).revertRequest = s.revertRequest
      ∧ (s.startResponse e).holdup = s.holdup ∧ (s.startResponse e).management = s.management
      ∧ (s.startResponse e).offered = s.offered ∧ (s.startResponse e).sent = s.sent
      ∧ (s.startResponse e).pending = s.pending := by
  unfold State.startResponse; dsimp only; split <;> simp

@[simp] theorem State.takeIfFree_rest :
    (s.takeIfFree).geometry = s.geometry ∧ (s.takeIfFree).fuses = s.fuses ∧ (s.takeIfFree).stored = s.stored
      ∧ (s.takeIfFree).boundary = s.boundary ∧ (s.takeIfFree).random = s.random
      ∧ (s.takeIfFree).transfers = s.transfers ∧ (s.takeIfFree).port = s.port
      ∧ (s.takeIfFree).revertBackoff = s.revertBackoff ∧ (s.takeIfFree).derivation = s.derivation
      ∧ (s.takeIfFree).startUp = s.startUp ∧ (s.takeIfFree).tamper = s.tamper ∧ (s.takeIfFree).time = s.time
      ∧ (s.takeIfFree).deadlines = s.deadlines ∧ (s.takeIfFree).erases = s.erases
      ∧ (s.takeIfFree).scrub = s.scrub ∧ (s.takeIfFree).define = s.define
      ∧ (s.takeIfFree).reverting = s.reverting ∧ (s.takeIfFree).revertRequest = s.revertRequest
      ∧ (s.takeIfFree).holdup = s.holdup ∧ (s.takeIfFree).management = s.management
      ∧ (s.takeIfFree).offered = s.offered ∧ (s.takeIfFree).sent = s.sent
      ∧ (s.takeIfFree).pending = s.pending := by
  unfold State.takeIfFree; split
  · split <;> simp
  · simp

@[simp] theorem State.escalate_rest (r : RunningResponse) (l : List PendingTrigger) :
    (s.escalate r l).geometry = s.geometry ∧ (s.escalate r l).fuses = s.fuses
      ∧ (s.escalate r l).stored = s.stored ∧ (s.escalate r l).boundary = s.boundary
      ∧ (s.escalate r l).random = s.random ∧ (s.escalate r l).transfers = s.transfers
      ∧ (s.escalate r l).port = s.port ∧ (s.escalate r l).revertBackoff = s.revertBackoff
      ∧ (s.escalate r l).derivation = s.derivation ∧ (s.escalate r l).startUp = s.startUp
      ∧ (s.escalate r l).tamper = s.tamper ∧ (s.escalate r l).time = s.time
      ∧ (s.escalate r l).deadlines = s.deadlines ∧ (s.escalate r l).erases = s.erases
      ∧ (s.escalate r l).scrub = s.scrub ∧ (s.escalate r l).define = s.define
      ∧ (s.escalate r l).reverting = s.reverting ∧ (s.escalate r l).revertRequest = s.revertRequest
      ∧ (s.escalate r l).holdup = s.holdup ∧ (s.escalate r l).management = s.management
      ∧ (s.escalate r l).alerts = s.alerts ∧ (s.escalate r l).offered = s.offered
      ∧ (s.escalate r l).sent = s.sent ∧ (s.escalate r l).pending = s.pending := by simp [State.escalate]

@[simp] theorem State.markErased_rest (r : RegionIx) :
    (s.markErased r).geometry = s.geometry ∧ (s.markErased r).fuses = s.fuses
      ∧ (s.markErased r).stored = s.stored ∧ (s.markErased r).work = s.work
      ∧ (s.markErased r).regions = s.regions ∧ (s.markErased r).boundary = s.boundary
      ∧ (s.markErased r).keys = s.keys ∧ (s.markErased r).random = s.random
      ∧ (s.markErased r).transfers = s.transfers ∧ (s.markErased r).port = s.port
      ∧ (s.markErased r).credentials = s.credentials ∧ (s.markErased r).revertBackoff = s.revertBackoff
      ∧ (s.markErased r).derivation = s.derivation ∧ (s.markErased r).startUp = s.startUp
      ∧ (s.markErased r).window = s.window ∧ (s.markErased r).tamper = s.tamper
      ∧ (s.markErased r).time = s.time ∧ (s.markErased r).deadlines = s.deadlines
      ∧ (s.markErased r).erases = s.erases ∧ (s.markErased r).scrub = s.scrub
      ∧ (s.markErased r).define = s.define ∧ (s.markErased r).reverting = s.reverting
      ∧ (s.markErased r).revertRequest = s.revertRequest ∧ (s.markErased r).store = s.store
      ∧ (s.markErased r).holdup = s.holdup ∧ (s.markErased r).management = s.management
      ∧ (s.markErased r).alerts = s.alerts ∧ (s.markErased r).offered = s.offered
      ∧ (s.markErased r).sent = s.sent ∧ (s.markErased r).pending = s.pending := by simp [State.markErased]

@[simp] theorem State.handOver_rest (r : RegionIx) (b : Bool) :
    (s.handOver r b).geometry = s.geometry ∧ (s.handOver r b).fuses = s.fuses
      ∧ (s.handOver r b).stored = s.stored ∧ (s.handOver r b).work = s.work
      ∧ (s.handOver r b).boundary = s.boundary ∧ (s.handOver r b).random = s.random
      ∧ (s.handOver r b).transfers = s.transfers ∧ (s.handOver r b).port = s.port
      ∧ (s.handOver r b).credentials = s.credentials ∧ (s.handOver r b).revertBackoff = s.revertBackoff
      ∧ (s.handOver r b).derivation = s.derivation ∧ (s.handOver r b).startUp = s.startUp
      ∧ (s.handOver r b).window = s.window ∧ (s.handOver r b).tamper = s.tamper
      ∧ (s.handOver r b).time = s.time ∧ (s.handOver r b).deadlines = s.deadlines
      ∧ (s.handOver r b).response = s.response ∧ (s.handOver r b).define = s.define
      ∧ (s.handOver r b).reverting = s.reverting ∧ (s.handOver r b).revertRequest = s.revertRequest
      ∧ (s.handOver r b).store = s.store ∧ (s.handOver r b).holdup = s.holdup
      ∧ (s.handOver r b).management = s.management ∧ (s.handOver r b).alerts = s.alerts
      ∧ (s.handOver r b).offered = s.offered ∧ (s.handOver r b).sent = s.sent
      ∧ (s.handOver r b).pending = s.pending := by
  unfold State.handOver; split <;> simp

@[simp] theorem State.boundaryStep_rest (n : Nat) :
    (s.boundaryStep n).geometry = s.geometry ∧ (s.boundaryStep n).fuses = s.fuses
      ∧ (s.boundaryStep n).stored = s.stored ∧ (s.boundaryStep n).boundary = s.boundary
      ∧ (s.boundaryStep n).random = s.random ∧ (s.boundaryStep n).transfers = s.transfers
      ∧ (s.boundaryStep n).port = s.port ∧ (s.boundaryStep n).revertBackoff = s.revertBackoff
      ∧ (s.boundaryStep n).derivation = s.derivation ∧ (s.boundaryStep n).startUp = s.startUp
      ∧ (s.boundaryStep n).tamper = s.tamper ∧ (s.boundaryStep n).time = s.time
      ∧ (s.boundaryStep n).deadlines = s.deadlines ∧ (s.boundaryStep n).define = s.define
      ∧ (s.boundaryStep n).reverting = s.reverting ∧ (s.boundaryStep n).revertRequest = s.revertRequest
      ∧ (s.boundaryStep n).holdup = s.holdup ∧ (s.boundaryStep n).management = s.management
      ∧ (s.boundaryStep n).alerts = s.alerts ∧ (s.boundaryStep n).offered = s.offered
      ∧ (s.boundaryStep n).sent = s.sent ∧ (s.boundaryStep n).pending = s.pending := by
  induction n generalizing s with
  | zero => simp [State.boundaryStep]
  | succ n ih =>
    unfold State.boundaryStep
    split
    · simp
    · dsimp only
      split
      · split
        · simp
        · split
          · simp
          · simp [ih]
      · simp

@[simp] theorem State.stepBoundary_rest :
    (s.stepBoundary).geometry = s.geometry ∧ (s.stepBoundary).fuses = s.fuses
      ∧ (s.stepBoundary).stored = s.stored ∧ (s.stepBoundary).boundary = s.boundary
      ∧ (s.stepBoundary).random = s.random ∧ (s.stepBoundary).transfers = s.transfers
      ∧ (s.stepBoundary).port = s.port ∧ (s.stepBoundary).revertBackoff = s.revertBackoff
      ∧ (s.stepBoundary).derivation = s.derivation ∧ (s.stepBoundary).startUp = s.startUp
      ∧ (s.stepBoundary).tamper = s.tamper ∧ (s.stepBoundary).time = s.time
      ∧ (s.stepBoundary).deadlines = s.deadlines ∧ (s.stepBoundary).define = s.define
      ∧ (s.stepBoundary).reverting = s.reverting ∧ (s.stepBoundary).revertRequest = s.revertRequest
      ∧ (s.stepBoundary).holdup = s.holdup ∧ (s.stepBoundary).management = s.management
      ∧ (s.stepBoundary).alerts = s.alerts ∧ (s.stepBoundary).offered = s.offered
      ∧ (s.stepBoundary).sent = s.sent ∧ (s.stepBoundary).pending = s.pending := by simp [State.stepBoundary]

@[simp] theorem State.passOver_rest (r : RegionIx) :
    (s.passOver r).geometry = s.geometry ∧ (s.passOver r).fuses = s.fuses ∧ (s.passOver r).stored = s.stored
      ∧ (s.passOver r).boundary = s.boundary ∧ (s.passOver r).random = s.random
      ∧ (s.passOver r).transfers = s.transfers ∧ (s.passOver r).port = s.port
      ∧ (s.passOver r).revertBackoff = s.revertBackoff ∧ (s.passOver r).derivation = s.derivation
      ∧ (s.passOver r).startUp = s.startUp ∧ (s.passOver r).tamper = s.tamper ∧ (s.passOver r).time = s.time
      ∧ (s.passOver r).deadlines = s.deadlines ∧ (s.passOver r).define = s.define
      ∧ (s.passOver r).reverting = s.reverting ∧ (s.passOver r).revertRequest = s.revertRequest
      ∧ (s.passOver r).holdup = s.holdup ∧ (s.passOver r).management = s.management
      ∧ (s.passOver r).alerts = s.alerts ∧ (s.passOver r).offered = s.offered ∧ (s.passOver r).sent = s.sent
      ∧ (s.passOver r).pending = s.pending := by simp [State.passOver]

@[simp] theorem State.resume_rest (p : InProgress) :
    (s.resume p).geometry = s.geometry ∧ (s.resume p).fuses = s.fuses ∧ (s.resume p).stored = s.stored
      ∧ (s.resume p).boundary = s.boundary ∧ (s.resume p).random = s.random
      ∧ (s.resume p).transfers = s.transfers ∧ (s.resume p).port = s.port
      ∧ (s.resume p).revertBackoff = s.revertBackoff ∧ (s.resume p).derivation = s.derivation
      ∧ (s.resume p).startUp = s.startUp ∧ (s.resume p).tamper = s.tamper ∧ (s.resume p).time = s.time
      ∧ (s.resume p).deadlines = s.deadlines ∧ (s.resume p).erases = s.erases ∧ (s.resume p).scrub = s.scrub
      ∧ (s.resume p).define = s.define ∧ (s.resume p).reverting = s.reverting
      ∧ (s.resume p).revertRequest = s.revertRequest ∧ (s.resume p).store = s.store
      ∧ (s.resume p).holdup = s.holdup ∧ (s.resume p).management = s.management
      ∧ (s.resume p).offered = s.offered ∧ (s.resume p).sent = s.sent ∧ (s.resume p).pending = s.pending := by
  unfold State.resume; dsimp only; split <;> simp

@[simp] theorem State.releaseController_rest :
    (s.releaseController).geometry = s.geometry ∧ (s.releaseController).fuses = s.fuses
      ∧ (s.releaseController).stored = s.stored ∧ (s.releaseController).boundary = s.boundary
      ∧ (s.releaseController).random = s.random ∧ (s.releaseController).transfers = s.transfers
      ∧ (s.releaseController).port = s.port ∧ (s.releaseController).revertBackoff = s.revertBackoff
      ∧ (s.releaseController).derivation = s.derivation ∧ (s.releaseController).startUp = s.startUp
      ∧ (s.releaseController).tamper = s.tamper ∧ (s.releaseController).time = s.time
      ∧ (s.releaseController).deadlines = s.deadlines ∧ (s.releaseController).define = s.define
      ∧ (s.releaseController).reverting = s.reverting
      ∧ (s.releaseController).revertRequest = s.revertRequest ∧ (s.releaseController).holdup = s.holdup
      ∧ (s.releaseController).management = s.management ∧ (s.releaseController).offered = s.offered
      ∧ (s.releaseController).sent = s.sent ∧ (s.releaseController).pending = s.pending := by
  unfold State.releaseController; dsimp only; split <;> simp

@[simp] theorem State.powerOnRights_rest (r : RegionIx) :
    (s.powerOnRights r).geometry = s.geometry ∧ (s.powerOnRights r).fuses = s.fuses
      ∧ (s.powerOnRights r).stored = s.stored ∧ (s.powerOnRights r).work = s.work
      ∧ (s.powerOnRights r).boundary = s.boundary ∧ (s.powerOnRights r).random = s.random
      ∧ (s.powerOnRights r).transfers = s.transfers ∧ (s.powerOnRights r).port = s.port
      ∧ (s.powerOnRights r).credentials = s.credentials
      ∧ (s.powerOnRights r).revertBackoff = s.revertBackoff ∧ (s.powerOnRights r).derivation = s.derivation
      ∧ (s.powerOnRights r).startUp = s.startUp ∧ (s.powerOnRights r).window = s.window
      ∧ (s.powerOnRights r).tamper = s.tamper ∧ (s.powerOnRights r).time = s.time
      ∧ (s.powerOnRights r).deadlines = s.deadlines ∧ (s.powerOnRights r).response = s.response
      ∧ (s.powerOnRights r).erases = s.erases ∧ (s.powerOnRights r).scrub = s.scrub
      ∧ (s.powerOnRights r).define = s.define ∧ (s.powerOnRights r).reverting = s.reverting
      ∧ (s.powerOnRights r).revertRequest = s.revertRequest ∧ (s.powerOnRights r).store = s.store
      ∧ (s.powerOnRights r).holdup = s.holdup ∧ (s.powerOnRights r).management = s.management
      ∧ (s.powerOnRights r).alerts = s.alerts ∧ (s.powerOnRights r).offered = s.offered
      ∧ (s.powerOnRights r).sent = s.sent ∧ (s.powerOnRights r).pending = s.pending := by
  unfold State.powerOnRights; dsimp only; split
  · split <;> split <;> simp
  · simp

@[simp] theorem State.setPowerOnRights_rest :
    (s.setPowerOnRights).geometry = s.geometry ∧ (s.setPowerOnRights).fuses = s.fuses
      ∧ (s.setPowerOnRights).stored = s.stored ∧ (s.setPowerOnRights).work = s.work
      ∧ (s.setPowerOnRights).boundary = s.boundary ∧ (s.setPowerOnRights).random = s.random
      ∧ (s.setPowerOnRights).transfers = s.transfers ∧ (s.setPowerOnRights).port = s.port
      ∧ (s.setPowerOnRights).credentials = s.credentials
      ∧ (s.setPowerOnRights).revertBackoff = s.revertBackoff
      ∧ (s.setPowerOnRights).derivation = s.derivation ∧ (s.setPowerOnRights).startUp = s.startUp
      ∧ (s.setPowerOnRights).window = s.window ∧ (s.setPowerOnRights).tamper = s.tamper
      ∧ (s.setPowerOnRights).time = s.time ∧ (s.setPowerOnRights).deadlines = s.deadlines
      ∧ (s.setPowerOnRights).response = s.response ∧ (s.setPowerOnRights).erases = s.erases
      ∧ (s.setPowerOnRights).scrub = s.scrub ∧ (s.setPowerOnRights).define = s.define
      ∧ (s.setPowerOnRights).reverting = s.reverting ∧ (s.setPowerOnRights).revertRequest = s.revertRequest
      ∧ (s.setPowerOnRights).store = s.store ∧ (s.setPowerOnRights).holdup = s.holdup
      ∧ (s.setPowerOnRights).management = s.management ∧ (s.setPowerOnRights).alerts = s.alerts
      ∧ (s.setPowerOnRights).offered = s.offered ∧ (s.setPowerOnRights).sent = s.sent
      ∧ (s.setPowerOnRights).pending = s.pending := by
  refine foldl_keeps (fun b : State => b.geometry = s.geometry ∧ b.fuses = s.fuses ∧ b.stored = s.stored ∧
    b.work = s.work ∧ b.boundary = s.boundary ∧ b.random = s.random ∧ b.transfers = s.transfers ∧ b.port =
    s.port ∧ b.credentials = s.credentials ∧ b.revertBackoff = s.revertBackoff ∧ b.derivation = s.derivation
    ∧ b.startUp = s.startUp ∧ b.window = s.window ∧ b.tamper = s.tamper ∧ b.time = s.time ∧ b.deadlines =
    s.deadlines ∧ b.response = s.response ∧ b.erases = s.erases ∧ b.scrub = s.scrub ∧ b.define = s.define ∧
    b.reverting = s.reverting ∧ b.revertRequest = s.revertRequest ∧ b.store = s.store ∧ b.holdup = s.holdup
    ∧ b.management = s.management ∧ b.alerts = s.alerts ∧ b.offered = s.offered ∧ b.sent = s.sent ∧
    b.pending = s.pending) _ ?_ _ s (by simp)
  intro b r hb
  simp only [State.powerOnRights_rest]
  exact hb

@[simp] theorem State.startBackoffs_rest :
    (s.startBackoffs).geometry = s.geometry ∧ (s.startBackoffs).fuses = s.fuses
      ∧ (s.startBackoffs).stored = s.stored ∧ (s.startBackoffs).work = s.work
      ∧ (s.startBackoffs).regions = s.regions ∧ (s.startBackoffs).boundary = s.boundary
      ∧ (s.startBackoffs).keys = s.keys ∧ (s.startBackoffs).random = s.random
      ∧ (s.startBackoffs).transfers = s.transfers ∧ (s.startBackoffs).port = s.port
      ∧ (s.startBackoffs).derivation = s.derivation ∧ (s.startBackoffs).startUp = s.startUp
      ∧ (s.startBackoffs).window = s.window ∧ (s.startBackoffs).tamper = s.tamper
      ∧ (s.startBackoffs).time = s.time ∧ (s.startBackoffs).deadlines = s.deadlines
      ∧ (s.startBackoffs).response = s.response ∧ (s.startBackoffs).erases = s.erases
      ∧ (s.startBackoffs).scrub = s.scrub ∧ (s.startBackoffs).define = s.define
      ∧ (s.startBackoffs).reverting = s.reverting ∧ (s.startBackoffs).revertRequest = s.revertRequest
      ∧ (s.startBackoffs).store = s.store ∧ (s.startBackoffs).holdup = s.holdup
      ∧ (s.startBackoffs).management = s.management ∧ (s.startBackoffs).alerts = s.alerts
      ∧ (s.startBackoffs).offered = s.offered ∧ (s.startBackoffs).sent = s.sent
      ∧ (s.startBackoffs).pending = s.pending := by
  unfold State.startBackoffs; dsimp only
  refine foldl_keeps (fun b : State => b.geometry = s.geometry ∧ b.fuses = s.fuses ∧ b.stored = s.stored ∧
    b.work = s.work ∧ b.regions = s.regions ∧ b.boundary = s.boundary ∧ b.keys = s.keys ∧ b.random =
    s.random ∧ b.transfers = s.transfers ∧ b.port = s.port ∧ b.derivation = s.derivation ∧ b.startUp =
    s.startUp ∧ b.window = s.window ∧ b.tamper = s.tamper ∧ b.time = s.time ∧ b.deadlines = s.deadlines ∧
    b.response = s.response ∧ b.erases = s.erases ∧ b.scrub = s.scrub ∧ b.define = s.define ∧ b.reverting =
    s.reverting ∧ b.revertRequest = s.revertRequest ∧ b.store = s.store ∧ b.holdup = s.holdup ∧ b.management
    = s.management ∧ b.alerts = s.alerts ∧ b.offered = s.offered ∧ b.sent = s.sent ∧ b.pending = s.pending)
    _ ?_ _ _ (by simp)
  intro b c hb
  simp only [State.setBackoff_geometry, State.setBackoff_fuses, State.setBackoff_stored,
    State.setBackoff_work, State.setBackoff_regions, State.setBackoff_boundary, State.setBackoff_keys,
    State.setBackoff_random, State.setBackoff_transfers, State.setBackoff_port, State.setBackoff_derivation,
    State.setBackoff_startUp, State.setBackoff_window, State.setBackoff_tamper, State.setBackoff_time,
    State.setBackoff_deadlines, State.setBackoff_response, State.setBackoff_erases, State.setBackoff_scrub,
    State.setBackoff_define, State.setBackoff_reverting, State.setBackoff_revertRequest,
    State.setBackoff_store, State.setBackoff_holdup, State.setBackoff_management, State.setBackoff_alerts,
    State.setBackoff_offered, State.setBackoff_sent, State.setBackoff_pending]
  exact hb

@[simp] theorem State.showAtPowerOn_rest :
    (s.showAtPowerOn).geometry = s.geometry ∧ (s.showAtPowerOn).fuses = s.fuses
      ∧ (s.showAtPowerOn).stored = s.stored ∧ (s.showAtPowerOn).work = s.work
      ∧ (s.showAtPowerOn).regions = s.regions ∧ (s.showAtPowerOn).boundary = s.boundary
      ∧ (s.showAtPowerOn).keys = s.keys ∧ (s.showAtPowerOn).random = s.random
      ∧ (s.showAtPowerOn).transfers = s.transfers ∧ (s.showAtPowerOn).port = s.port
      ∧ (s.showAtPowerOn).credentials = s.credentials ∧ (s.showAtPowerOn).revertBackoff = s.revertBackoff
      ∧ (s.showAtPowerOn).derivation = s.derivation ∧ (s.showAtPowerOn).startUp = s.startUp
      ∧ (s.showAtPowerOn).tamper = s.tamper ∧ (s.showAtPowerOn).time = s.time
      ∧ (s.showAtPowerOn).deadlines = s.deadlines ∧ (s.showAtPowerOn).response = s.response
      ∧ (s.showAtPowerOn).erases = s.erases ∧ (s.showAtPowerOn).scrub = s.scrub
      ∧ (s.showAtPowerOn).define = s.define ∧ (s.showAtPowerOn).reverting = s.reverting
      ∧ (s.showAtPowerOn).revertRequest = s.revertRequest ∧ (s.showAtPowerOn).store = s.store
      ∧ (s.showAtPowerOn).holdup = s.holdup ∧ (s.showAtPowerOn).management = s.management
      ∧ (s.showAtPowerOn).alerts = s.alerts ∧ (s.showAtPowerOn).offered = s.offered
      ∧ (s.showAtPowerOn).sent = s.sent ∧ (s.showAtPowerOn).pending = s.pending := by simp [State.showAtPowerOn]

@[simp] theorem State.resumeScrub_rest :
    (s.resumeScrub).geometry = s.geometry ∧ (s.resumeScrub).fuses = s.fuses
      ∧ (s.resumeScrub).stored = s.stored ∧ (s.resumeScrub).regions = s.regions
      ∧ (s.resumeScrub).boundary = s.boundary ∧ (s.resumeScrub).random = s.random
      ∧ (s.resumeScrub).transfers = s.transfers ∧ (s.resumeScrub).credentials = s.credentials
      ∧ (s.resumeScrub).revertBackoff = s.revertBackoff ∧ (s.resumeScrub).derivation = s.derivation
      ∧ (s.resumeScrub).startUp = s.startUp ∧ (s.resumeScrub).window = s.window
      ∧ (s.resumeScrub).tamper = s.tamper ∧ (s.resumeScrub).time = s.time
      ∧ (s.resumeScrub).deadlines = s.deadlines ∧ (s.resumeScrub).response = s.response
      ∧ (s.resumeScrub).erases = s.erases ∧ (s.resumeScrub).define = s.define
      ∧ (s.resumeScrub).reverting = s.reverting ∧ (s.resumeScrub).revertRequest = s.revertRequest
      ∧ (s.resumeScrub).holdup = s.holdup ∧ (s.resumeScrub).management = s.management
      ∧ (s.resumeScrub).offered = s.offered ∧ (s.resumeScrub).sent = s.sent
      ∧ (s.resumeScrub).pending = s.pending := by
  unfold State.resumeScrub; split <;> simp

@[simp] theorem State.takeGateMode_rest :
    (s.takeGateMode).geometry = s.geometry ∧ (s.takeGateMode).fuses = s.fuses
      ∧ (s.takeGateMode).stored = s.stored ∧ (s.takeGateMode).work = s.work
      ∧ (s.takeGateMode).regions = s.regions ∧ (s.takeGateMode).boundary = s.boundary
      ∧ (s.takeGateMode).keys = s.keys ∧ (s.takeGateMode).random = s.random
      ∧ (s.takeGateMode).transfers = s.transfers ∧ (s.takeGateMode).port = s.port
      ∧ (s.takeGateMode).credentials = s.credentials ∧ (s.takeGateMode).revertBackoff = s.revertBackoff
      ∧ (s.takeGateMode).derivation = s.derivation ∧ (s.takeGateMode).startUp = s.startUp
      ∧ (s.takeGateMode).window = s.window ∧ (s.takeGateMode).tamper = s.tamper
      ∧ (s.takeGateMode).time = s.time ∧ (s.takeGateMode).deadlines = s.deadlines
      ∧ (s.takeGateMode).response = s.response ∧ (s.takeGateMode).erases = s.erases
      ∧ (s.takeGateMode).scrub = s.scrub ∧ (s.takeGateMode).define = s.define
      ∧ (s.takeGateMode).reverting = s.reverting ∧ (s.takeGateMode).revertRequest = s.revertRequest
      ∧ (s.takeGateMode).store = s.store ∧ (s.takeGateMode).management = s.management
      ∧ (s.takeGateMode).alerts = s.alerts ∧ (s.takeGateMode).offered = s.offered
      ∧ (s.takeGateMode).sent = s.sent ∧ (s.takeGateMode).pending = s.pending := by unfold State.takeGateMode; split <;> simp

@[simp] theorem State.assertReady_rest :
    (s.assertReady).geometry = s.geometry ∧ (s.assertReady).fuses = s.fuses
      ∧ (s.assertReady).stored = s.stored ∧ (s.assertReady).work = s.work
      ∧ (s.assertReady).regions = s.regions ∧ (s.assertReady).boundary = s.boundary
      ∧ (s.assertReady).keys = s.keys ∧ (s.assertReady).random = s.random
      ∧ (s.assertReady).transfers = s.transfers ∧ (s.assertReady).port = s.port
      ∧ (s.assertReady).credentials = s.credentials ∧ (s.assertReady).revertBackoff = s.revertBackoff
      ∧ (s.assertReady).derivation = s.derivation ∧ (s.assertReady).window = s.window
      ∧ (s.assertReady).tamper = s.tamper ∧ (s.assertReady).time = s.time
      ∧ (s.assertReady).deadlines = s.deadlines ∧ (s.assertReady).response = s.response
      ∧ (s.assertReady).erases = s.erases ∧ (s.assertReady).scrub = s.scrub
      ∧ (s.assertReady).define = s.define ∧ (s.assertReady).reverting = s.reverting
      ∧ (s.assertReady).revertRequest = s.revertRequest ∧ (s.assertReady).store = s.store
      ∧ (s.assertReady).holdup = s.holdup ∧ (s.assertReady).management = s.management
      ∧ (s.assertReady).alerts = s.alerts ∧ (s.assertReady).offered = s.offered
      ∧ (s.assertReady).sent = s.sent ∧ (s.assertReady).pending = s.pending := by simp [State.assertReady]

@[simp] theorem State.lastSteps_rest :
    (s.lastSteps).geometry = s.geometry ∧ (s.lastSteps).fuses = s.fuses ∧ (s.lastSteps).stored = s.stored
      ∧ (s.lastSteps).boundary = s.boundary ∧ (s.lastSteps).random = s.random
      ∧ (s.lastSteps).transfers = s.transfers ∧ (s.lastSteps).derivation = s.derivation
      ∧ (s.lastSteps).tamper = s.tamper ∧ (s.lastSteps).time = s.time
      ∧ (s.lastSteps).deadlines = s.deadlines ∧ (s.lastSteps).response = s.response
      ∧ (s.lastSteps).erases = s.erases ∧ (s.lastSteps).define = s.define
      ∧ (s.lastSteps).reverting = s.reverting ∧ (s.lastSteps).revertRequest = s.revertRequest
      ∧ (s.lastSteps).management = s.management ∧ (s.lastSteps).offered = s.offered
      ∧ (s.lastSteps).sent = s.sent ∧ (s.lastSteps).pending = s.pending := by simp [State.lastSteps]

@[simp] theorem State.progress_rest :
    (s.progress).geometry = s.geometry ∧ (s.progress).fuses = s.fuses ∧ (s.progress).stored = s.stored
      ∧ (s.progress).boundary = s.boundary ∧ (s.progress).random = s.random
      ∧ (s.progress).transfers = s.transfers ∧ (s.progress).derivation = s.derivation
      ∧ (s.progress).tamper = s.tamper ∧ (s.progress).time = s.time ∧ (s.progress).deadlines = s.deadlines
      ∧ (s.progress).response = s.response ∧ (s.progress).erases = s.erases ∧ (s.progress).define = s.define
      ∧ (s.progress).reverting = s.reverting ∧ (s.progress).revertRequest = s.revertRequest
      ∧ (s.progress).management = s.management ∧ (s.progress).offered = s.offered
      ∧ (s.progress).sent = s.sent ∧ (s.progress).pending = s.pending := by unfold State.progress; split <;> simp

@[simp] theorem State.settle_rest :
    (s.settle).geometry = s.geometry ∧ (s.settle).fuses = s.fuses ∧ (s.settle).stored = s.stored
      ∧ (s.settle).boundary = s.boundary ∧ (s.settle).derivation = s.derivation
      ∧ (s.settle).tamper = s.tamper ∧ (s.settle).time = s.time ∧ (s.settle).deadlines = s.deadlines
      ∧ (s.settle).define = s.define ∧ (s.settle).reverting = s.reverting
      ∧ (s.settle).revertRequest = s.revertRequest ∧ (s.settle).management = s.management
      ∧ (s.settle).offered = s.offered ∧ (s.settle).pending = s.pending := by simp [State.settle]

@[simp] theorem State.askCharge_rest :
    (s.askCharge).geometry = s.geometry ∧ (s.askCharge).fuses = s.fuses ∧ (s.askCharge).stored = s.stored
      ∧ (s.askCharge).work = s.work ∧ (s.askCharge).regions = s.regions
      ∧ (s.askCharge).boundary = s.boundary ∧ (s.askCharge).keys = s.keys ∧ (s.askCharge).random = s.random
      ∧ (s.askCharge).transfers = s.transfers ∧ (s.askCharge).port = s.port
      ∧ (s.askCharge).credentials = s.credentials ∧ (s.askCharge).revertBackoff = s.revertBackoff
      ∧ (s.askCharge).derivation = s.derivation ∧ (s.askCharge).startUp = s.startUp
      ∧ (s.askCharge).window = s.window ∧ (s.askCharge).tamper = s.tamper ∧ (s.askCharge).time = s.time
      ∧ (s.askCharge).response = s.response ∧ (s.askCharge).erases = s.erases
      ∧ (s.askCharge).scrub = s.scrub ∧ (s.askCharge).define = s.define
      ∧ (s.askCharge).reverting = s.reverting ∧ (s.askCharge).revertRequest = s.revertRequest
      ∧ (s.askCharge).holdup = s.holdup ∧ (s.askCharge).management = s.management
      ∧ (s.askCharge).alerts = s.alerts ∧ (s.askCharge).offered = s.offered ∧ (s.askCharge).sent = s.sent
      ∧ (s.askCharge).pending = s.pending := by
  unfold State.askCharge; split
  · simp
  · split <;> simp

@[simp] theorem State.fireDeadline_rest (n : SourceIx) (v : Nat) :
    (s.fireDeadline n v).geometry = s.geometry ∧ (s.fireDeadline n v).fuses = s.fuses
      ∧ (s.fireDeadline n v).stored = s.stored ∧ (s.fireDeadline n v).work = s.work
      ∧ (s.fireDeadline n v).regions = s.regions ∧ (s.fireDeadline n v).boundary = s.boundary
      ∧ (s.fireDeadline n v).keys = s.keys ∧ (s.fireDeadline n v).random = s.random
      ∧ (s.fireDeadline n v).transfers = s.transfers ∧ (s.fireDeadline n v).port = s.port
      ∧ (s.fireDeadline n v).credentials = s.credentials
      ∧ (s.fireDeadline n v).revertBackoff = s.revertBackoff
      ∧ (s.fireDeadline n v).derivation = s.derivation ∧ (s.fireDeadline n v).startUp = s.startUp
      ∧ (s.fireDeadline n v).window = s.window ∧ (s.fireDeadline n v).tamper = s.tamper
      ∧ (s.fireDeadline n v).time = s.time ∧ (s.fireDeadline n v).deadlines = s.deadlines
      ∧ (s.fireDeadline n v).erases = s.erases ∧ (s.fireDeadline n v).scrub = s.scrub
      ∧ (s.fireDeadline n v).define = s.define ∧ (s.fireDeadline n v).reverting = s.reverting
      ∧ (s.fireDeadline n v).revertRequest = s.revertRequest ∧ (s.fireDeadline n v).store = s.store
      ∧ (s.fireDeadline n v).holdup = s.holdup ∧ (s.fireDeadline n v).management = s.management
      ∧ (s.fireDeadline n v).offered = s.offered ∧ (s.fireDeadline n v).sent = s.sent
      ∧ (s.fireDeadline n v).pending = s.pending := by simp [State.fireDeadline]

@[simp] theorem State.chargeP_rest :
    (s.chargeP).geometry = s.geometry ∧ (s.chargeP).fuses = s.fuses ∧ (s.chargeP).stored = s.stored
      ∧ (s.chargeP).regions = s.regions ∧ (s.chargeP).boundary = s.boundary ∧ (s.chargeP).keys = s.keys
      ∧ (s.chargeP).random = s.random ∧ (s.chargeP).transfers = s.transfers ∧ (s.chargeP).port = s.port
      ∧ (s.chargeP).credentials = s.credentials ∧ (s.chargeP).revertBackoff = s.revertBackoff
      ∧ (s.chargeP).derivation = s.derivation ∧ (s.chargeP).startUp = s.startUp
      ∧ (s.chargeP).window = s.window ∧ (s.chargeP).tamper = s.tamper ∧ (s.chargeP).time = s.time
      ∧ (s.chargeP).deadlines = s.deadlines ∧ (s.chargeP).erases = s.erases ∧ (s.chargeP).scrub = s.scrub
      ∧ (s.chargeP).define = s.define ∧ (s.chargeP).reverting = s.reverting
      ∧ (s.chargeP).revertRequest = s.revertRequest ∧ (s.chargeP).store = s.store
      ∧ (s.chargeP).holdup = s.holdup ∧ (s.chargeP).management = s.management
      ∧ (s.chargeP).offered = s.offered ∧ (s.chargeP).sent = s.sent ∧ (s.chargeP).pending = s.pending := by
  unfold State.chargeP; dsimp only; split <;> simp

@[simp] theorem State.chargeNp_rest :
    (s.chargeNp).geometry = s.geometry ∧ (s.chargeNp).fuses = s.fuses ∧ (s.chargeNp).stored = s.stored
      ∧ (s.chargeNp).regions = s.regions ∧ (s.chargeNp).boundary = s.boundary ∧ (s.chargeNp).keys = s.keys
      ∧ (s.chargeNp).random = s.random ∧ (s.chargeNp).transfers = s.transfers ∧ (s.chargeNp).port = s.port
      ∧ (s.chargeNp).credentials = s.credentials ∧ (s.chargeNp).revertBackoff = s.revertBackoff
      ∧ (s.chargeNp).derivation = s.derivation ∧ (s.chargeNp).startUp = s.startUp
      ∧ (s.chargeNp).window = s.window ∧ (s.chargeNp).tamper = s.tamper ∧ (s.chargeNp).time = s.time
      ∧ (s.chargeNp).deadlines = s.deadlines ∧ (s.chargeNp).erases = s.erases ∧ (s.chargeNp).scrub = s.scrub
      ∧ (s.chargeNp).define = s.define ∧ (s.chargeNp).reverting = s.reverting
      ∧ (s.chargeNp).revertRequest = s.revertRequest ∧ (s.chargeNp).store = s.store
      ∧ (s.chargeNp).holdup = s.holdup ∧ (s.chargeNp).management = s.management
      ∧ (s.chargeNp).offered = s.offered ∧ (s.chargeNp).sent = s.sent ∧ (s.chargeNp).pending = s.pending := by
  unfold State.chargeNp; dsimp only; split <;> simp

@[simp] theorem State.timeFault_rest (v : Nat) :
    (s.timeFault v).geometry = s.geometry ∧ (s.timeFault v).fuses = s.fuses
      ∧ (s.timeFault v).stored = s.stored ∧ (s.timeFault v).work = s.work
      ∧ (s.timeFault v).regions = s.regions ∧ (s.timeFault v).boundary = s.boundary
      ∧ (s.timeFault v).keys = s.keys ∧ (s.timeFault v).random = s.random
      ∧ (s.timeFault v).transfers = s.transfers ∧ (s.timeFault v).port = s.port
      ∧ (s.timeFault v).credentials = s.credentials ∧ (s.timeFault v).revertBackoff = s.revertBackoff
      ∧ (s.timeFault v).derivation = s.derivation ∧ (s.timeFault v).startUp = s.startUp
      ∧ (s.timeFault v).window = s.window ∧ (s.timeFault v).tamper = s.tamper
      ∧ (s.timeFault v).deadlines = s.deadlines ∧ (s.timeFault v).erases = s.erases
      ∧ (s.timeFault v).scrub = s.scrub ∧ (s.timeFault v).define = s.define
      ∧ (s.timeFault v).reverting = s.reverting ∧ (s.timeFault v).revertRequest = s.revertRequest
      ∧ (s.timeFault v).store = s.store ∧ (s.timeFault v).holdup = s.holdup
      ∧ (s.timeFault v).management = s.management ∧ (s.timeFault v).offered = s.offered
      ∧ (s.timeFault v).sent = s.sent ∧ (s.timeFault v).pending = s.pending := by simp [State.timeFault]

@[simp] theorem State.attemptsTrigger_rest (c : CredIx) :
    (s.attemptsTrigger c).geometry = s.geometry ∧ (s.attemptsTrigger c).fuses = s.fuses
      ∧ (s.attemptsTrigger c).stored = s.stored ∧ (s.attemptsTrigger c).work = s.work
      ∧ (s.attemptsTrigger c).regions = s.regions ∧ (s.attemptsTrigger c).boundary = s.boundary
      ∧ (s.attemptsTrigger c).keys = s.keys ∧ (s.attemptsTrigger c).random = s.random
      ∧ (s.attemptsTrigger c).transfers = s.transfers ∧ (s.attemptsTrigger c).port = s.port
      ∧ (s.attemptsTrigger c).credentials = s.credentials
      ∧ (s.attemptsTrigger c).revertBackoff = s.revertBackoff
      ∧ (s.attemptsTrigger c).derivation = s.derivation ∧ (s.attemptsTrigger c).startUp = s.startUp
      ∧ (s.attemptsTrigger c).window = s.window ∧ (s.attemptsTrigger c).tamper = s.tamper
      ∧ (s.attemptsTrigger c).time = s.time ∧ (s.attemptsTrigger c).deadlines = s.deadlines
      ∧ (s.attemptsTrigger c).erases = s.erases ∧ (s.attemptsTrigger c).scrub = s.scrub
      ∧ (s.attemptsTrigger c).define = s.define ∧ (s.attemptsTrigger c).reverting = s.reverting
      ∧ (s.attemptsTrigger c).revertRequest = s.revertRequest ∧ (s.attemptsTrigger c).store = s.store
      ∧ (s.attemptsTrigger c).holdup = s.holdup ∧ (s.attemptsTrigger c).management = s.management
      ∧ (s.attemptsTrigger c).offered = s.offered ∧ (s.attemptsTrigger c).sent = s.sent
      ∧ (s.attemptsTrigger c).pending = s.pending := by simp [State.attemptsTrigger]

@[simp] theorem State.presentFails_rest (p : PresentRequest) (a : Nat) :
    (s.presentFails p a).geometry = s.geometry ∧ (s.presentFails p a).fuses = s.fuses
      ∧ (s.presentFails p a).stored = s.stored ∧ (s.presentFails p a).work = s.work
      ∧ (s.presentFails p a).regions = s.regions ∧ (s.presentFails p a).boundary = s.boundary
      ∧ (s.presentFails p a).keys = s.keys ∧ (s.presentFails p a).random = s.random
      ∧ (s.presentFails p a).transfers = s.transfers ∧ (s.presentFails p a).port = s.port
      ∧ (s.presentFails p a).revertBackoff = s.revertBackoff
      ∧ (s.presentFails p a).derivation = s.derivation ∧ (s.presentFails p a).startUp = s.startUp
      ∧ (s.presentFails p a).window = s.window ∧ (s.presentFails p a).tamper = s.tamper
      ∧ (s.presentFails p a).time = s.time ∧ (s.presentFails p a).deadlines = s.deadlines
      ∧ (s.presentFails p a).erases = s.erases ∧ (s.presentFails p a).scrub = s.scrub
      ∧ (s.presentFails p a).define = s.define ∧ (s.presentFails p a).reverting = s.reverting
      ∧ (s.presentFails p a).revertRequest = s.revertRequest ∧ (s.presentFails p a).store = s.store
      ∧ (s.presentFails p a).holdup = s.holdup ∧ (s.presentFails p a).offered = s.offered
      ∧ (s.presentFails p a).sent = s.sent ∧ (s.presentFails p a).pending = s.pending := by
  unfold State.presentFails; dsimp only; split <;> simp

@[simp] theorem State.openNamed_rest (p : PresentRequest) (k : RightKind) (r : RegionIx) :
    (State.openNamed p k s r).geometry = s.geometry ∧ (State.openNamed p k s r).fuses = s.fuses
      ∧ (State.openNamed p k s r).stored = s.stored ∧ (State.openNamed p k s r).work = s.work
      ∧ (State.openNamed p k s r).boundary = s.boundary ∧ (State.openNamed p k s r).random = s.random
      ∧ (State.openNamed p k s r).transfers = s.transfers ∧ (State.openNamed p k s r).port = s.port
      ∧ (State.openNamed p k s r).credentials = s.credentials
      ∧ (State.openNamed p k s r).revertBackoff = s.revertBackoff
      ∧ (State.openNamed p k s r).derivation = s.derivation ∧ (State.openNamed p k s r).startUp = s.startUp
      ∧ (State.openNamed p k s r).window = s.window ∧ (State.openNamed p k s r).tamper = s.tamper
      ∧ (State.openNamed p k s r).time = s.time ∧ (State.openNamed p k s r).deadlines = s.deadlines
      ∧ (State.openNamed p k s r).response = s.response ∧ (State.openNamed p k s r).erases = s.erases
      ∧ (State.openNamed p k s r).scrub = s.scrub ∧ (State.openNamed p k s r).define = s.define
      ∧ (State.openNamed p k s r).reverting = s.reverting
      ∧ (State.openNamed p k s r).revertRequest = s.revertRequest
      ∧ (State.openNamed p k s r).store = s.store ∧ (State.openNamed p k s r).holdup = s.holdup
      ∧ (State.openNamed p k s r).management = s.management ∧ (State.openNamed p k s r).alerts = s.alerts
      ∧ (State.openNamed p k s r).offered = s.offered ∧ (State.openNamed p k s r).sent = s.sent
      ∧ (State.openNamed p k s r).pending = s.pending := by
  unfold State.openNamed; split <;> simp

@[simp] theorem State.retire_rest :
    (s.retire).geometry = s.geometry ∧ (s.retire).fuses = s.fuses ∧ (s.retire).stored = s.stored
      ∧ (s.retire).work = s.work ∧ (s.retire).regions = s.regions ∧ (s.retire).boundary = s.boundary
      ∧ (s.retire).keys = s.keys ∧ (s.retire).random = s.random ∧ (s.retire).transfers = s.transfers
      ∧ (s.retire).port = s.port ∧ (s.retire).credentials = s.credentials
      ∧ (s.retire).revertBackoff = s.revertBackoff ∧ (s.retire).derivation = s.derivation
      ∧ (s.retire).startUp = s.startUp ∧ (s.retire).tamper = s.tamper ∧ (s.retire).time = s.time
      ∧ (s.retire).deadlines = s.deadlines ∧ (s.retire).response = s.response ∧ (s.retire).erases = s.erases
      ∧ (s.retire).scrub = s.scrub ∧ (s.retire).define = s.define ∧ (s.retire).reverting = s.reverting
      ∧ (s.retire).revertRequest = s.revertRequest ∧ (s.retire).store = s.store
      ∧ (s.retire).holdup = s.holdup ∧ (s.retire).management = s.management ∧ (s.retire).alerts = s.alerts
      ∧ (s.retire).offered = s.offered ∧ (s.retire).sent = s.sent ∧ (s.retire).pending = s.pending := by unfold State.retire; split <;> simp

@[simp] theorem State.lockMask_rest (k : RightKind) (m : BitVec 16) :
    (s.lockMask k m).geometry = s.geometry ∧ (s.lockMask k m).fuses = s.fuses
      ∧ (s.lockMask k m).stored = s.stored ∧ (s.lockMask k m).work = s.work
      ∧ (s.lockMask k m).boundary = s.boundary ∧ (s.lockMask k m).random = s.random
      ∧ (s.lockMask k m).transfers = s.transfers ∧ (s.lockMask k m).port = s.port
      ∧ (s.lockMask k m).credentials = s.credentials ∧ (s.lockMask k m).revertBackoff = s.revertBackoff
      ∧ (s.lockMask k m).derivation = s.derivation ∧ (s.lockMask k m).startUp = s.startUp
      ∧ (s.lockMask k m).window = s.window ∧ (s.lockMask k m).tamper = s.tamper
      ∧ (s.lockMask k m).time = s.time ∧ (s.lockMask k m).deadlines = s.deadlines
      ∧ (s.lockMask k m).response = s.response ∧ (s.lockMask k m).erases = s.erases
      ∧ (s.lockMask k m).scrub = s.scrub ∧ (s.lockMask k m).define = s.define
      ∧ (s.lockMask k m).reverting = s.reverting ∧ (s.lockMask k m).revertRequest = s.revertRequest
      ∧ (s.lockMask k m).store = s.store ∧ (s.lockMask k m).holdup = s.holdup
      ∧ (s.lockMask k m).management = s.management ∧ (s.lockMask k m).alerts = s.alerts
      ∧ (s.lockMask k m).offered = s.offered ∧ (s.lockMask k m).sent = s.sent
      ∧ (s.lockMask k m).pending = s.pending := by
  refine foldl_keeps (fun b : State => b.geometry = s.geometry ∧ b.fuses = s.fuses ∧ b.stored = s.stored ∧
    b.work = s.work ∧ b.boundary = s.boundary ∧ b.random = s.random ∧ b.transfers = s.transfers ∧ b.port =
    s.port ∧ b.credentials = s.credentials ∧ b.revertBackoff = s.revertBackoff ∧ b.derivation = s.derivation
    ∧ b.startUp = s.startUp ∧ b.window = s.window ∧ b.tamper = s.tamper ∧ b.time = s.time ∧ b.deadlines =
    s.deadlines ∧ b.response = s.response ∧ b.erases = s.erases ∧ b.scrub = s.scrub ∧ b.define = s.define ∧
    b.reverting = s.reverting ∧ b.revertRequest = s.revertRequest ∧ b.store = s.store ∧ b.holdup = s.holdup
    ∧ b.management = s.management ∧ b.alerts = s.alerts ∧ b.offered = s.offered ∧ b.sent = s.sent ∧
    b.pending = s.pending) _ ?_ _ s (by simp)
  intro b r hb
  split
  · simpa using hb
  · exact hb

@[simp] theorem State.setArmed_rest (g : Group) (v : Bool) :
    (s.setArmed g v).geometry = s.geometry ∧ (s.setArmed g v).fuses = s.fuses
      ∧ (s.setArmed g v).stored = s.stored ∧ (s.setArmed g v).work = s.work
      ∧ (s.setArmed g v).regions = s.regions ∧ (s.setArmed g v).boundary = s.boundary
      ∧ (s.setArmed g v).keys = s.keys ∧ (s.setArmed g v).random = s.random
      ∧ (s.setArmed g v).transfers = s.transfers ∧ (s.setArmed g v).port = s.port
      ∧ (s.setArmed g v).credentials = s.credentials ∧ (s.setArmed g v).revertBackoff = s.revertBackoff
      ∧ (s.setArmed g v).derivation = s.derivation ∧ (s.setArmed g v).startUp = s.startUp
      ∧ (s.setArmed g v).window = s.window ∧ (s.setArmed g v).time = s.time
      ∧ (s.setArmed g v).deadlines = s.deadlines ∧ (s.setArmed g v).response = s.response
      ∧ (s.setArmed g v).erases = s.erases ∧ (s.setArmed g v).scrub = s.scrub
      ∧ (s.setArmed g v).define = s.define ∧ (s.setArmed g v).reverting = s.reverting
      ∧ (s.setArmed g v).revertRequest = s.revertRequest ∧ (s.setArmed g v).store = s.store
      ∧ (s.setArmed g v).holdup = s.holdup ∧ (s.setArmed g v).management = s.management
      ∧ (s.setArmed g v).alerts = s.alerts ∧ (s.setArmed g v).offered = s.offered
      ∧ (s.setArmed g v).sent = s.sent ∧ (s.setArmed g v).pending = s.pending := by cases g <;> simp [State.setArmed]

@[simp] theorem State.setLine_rest (n : LineIx) (x : LineStatus) :
    (s.setLine n x).geometry = s.geometry ∧ (s.setLine n x).fuses = s.fuses
      ∧ (s.setLine n x).stored = s.stored ∧ (s.setLine n x).work = s.work
      ∧ (s.setLine n x).regions = s.regions ∧ (s.setLine n x).boundary = s.boundary
      ∧ (s.setLine n x).keys = s.keys ∧ (s.setLine n x).random = s.random
      ∧ (s.setLine n x).transfers = s.transfers ∧ (s.setLine n x).port = s.port
      ∧ (s.setLine n x).credentials = s.credentials ∧ (s.setLine n x).revertBackoff = s.revertBackoff
      ∧ (s.setLine n x).derivation = s.derivation ∧ (s.setLine n x).startUp = s.startUp
      ∧ (s.setLine n x).window = s.window ∧ (s.setLine n x).time = s.time
      ∧ (s.setLine n x).deadlines = s.deadlines ∧ (s.setLine n x).response = s.response
      ∧ (s.setLine n x).erases = s.erases ∧ (s.setLine n x).scrub = s.scrub
      ∧ (s.setLine n x).define = s.define ∧ (s.setLine n x).reverting = s.reverting
      ∧ (s.setLine n x).revertRequest = s.revertRequest ∧ (s.setLine n x).store = s.store
      ∧ (s.setLine n x).holdup = s.holdup ∧ (s.setLine n x).management = s.management
      ∧ (s.setLine n x).alerts = s.alerts ∧ (s.setLine n x).offered = s.offered
      ∧ (s.setLine n x).sent = s.sent ∧ (s.setLine n x).pending = s.pending := by simp [State.setLine]

@[simp] theorem State.latch_rest (n : LineIx) :
    (s.latch n).geometry = s.geometry ∧ (s.latch n).fuses = s.fuses ∧ (s.latch n).stored = s.stored
      ∧ (s.latch n).work = s.work ∧ (s.latch n).regions = s.regions ∧ (s.latch n).boundary = s.boundary
      ∧ (s.latch n).keys = s.keys ∧ (s.latch n).random = s.random ∧ (s.latch n).transfers = s.transfers
      ∧ (s.latch n).port = s.port ∧ (s.latch n).credentials = s.credentials
      ∧ (s.latch n).revertBackoff = s.revertBackoff ∧ (s.latch n).derivation = s.derivation
      ∧ (s.latch n).startUp = s.startUp ∧ (s.latch n).window = s.window ∧ (s.latch n).time = s.time
      ∧ (s.latch n).deadlines = s.deadlines ∧ (s.latch n).response = s.response
      ∧ (s.latch n).erases = s.erases ∧ (s.latch n).scrub = s.scrub ∧ (s.latch n).define = s.define
      ∧ (s.latch n).reverting = s.reverting ∧ (s.latch n).revertRequest = s.revertRequest
      ∧ (s.latch n).store = s.store ∧ (s.latch n).holdup = s.holdup ∧ (s.latch n).management = s.management
      ∧ (s.latch n).alerts = s.alerts ∧ (s.latch n).offered = s.offered ∧ (s.latch n).sent = s.sent
      ∧ (s.latch n).pending = s.pending := by simp [State.latch]

@[simp] theorem State.sampleLines_rest (l : BitVec 4) :
    (s.sampleLines l).geometry = s.geometry ∧ (s.sampleLines l).fuses = s.fuses
      ∧ (s.sampleLines l).stored = s.stored ∧ (s.sampleLines l).work = s.work
      ∧ (s.sampleLines l).regions = s.regions ∧ (s.sampleLines l).boundary = s.boundary
      ∧ (s.sampleLines l).keys = s.keys ∧ (s.sampleLines l).random = s.random
      ∧ (s.sampleLines l).transfers = s.transfers ∧ (s.sampleLines l).port = s.port
      ∧ (s.sampleLines l).credentials = s.credentials ∧ (s.sampleLines l).revertBackoff = s.revertBackoff
      ∧ (s.sampleLines l).derivation = s.derivation ∧ (s.sampleLines l).startUp = s.startUp
      ∧ (s.sampleLines l).window = s.window ∧ (s.sampleLines l).time = s.time
      ∧ (s.sampleLines l).deadlines = s.deadlines ∧ (s.sampleLines l).response = s.response
      ∧ (s.sampleLines l).erases = s.erases ∧ (s.sampleLines l).scrub = s.scrub
      ∧ (s.sampleLines l).define = s.define ∧ (s.sampleLines l).reverting = s.reverting
      ∧ (s.sampleLines l).revertRequest = s.revertRequest ∧ (s.sampleLines l).store = s.store
      ∧ (s.sampleLines l).holdup = s.holdup ∧ (s.sampleLines l).management = s.management
      ∧ (s.sampleLines l).alerts = s.alerts ∧ (s.sampleLines l).offered = s.offered
      ∧ (s.sampleLines l).sent = s.sent ∧ (s.sampleLines l).pending = s.pending := by simp [State.sampleLines]

@[simp] theorem State.countMinute_rest :
    (s.countMinute).geometry = s.geometry ∧ (s.countMinute).fuses = s.fuses
      ∧ (s.countMinute).stored = s.stored ∧ (s.countMinute).regions = s.regions
      ∧ (s.countMinute).boundary = s.boundary ∧ (s.countMinute).keys = s.keys
      ∧ (s.countMinute).random = s.random ∧ (s.countMinute).transfers = s.transfers
      ∧ (s.countMinute).port = s.port ∧ (s.countMinute).credentials = s.credentials
      ∧ (s.countMinute).revertBackoff = s.revertBackoff ∧ (s.countMinute).derivation = s.derivation
      ∧ (s.countMinute).startUp = s.startUp ∧ (s.countMinute).window = s.window
      ∧ (s.countMinute).tamper = s.tamper ∧ (s.countMinute).time = s.time
      ∧ (s.countMinute).erases = s.erases ∧ (s.countMinute).scrub = s.scrub
      ∧ (s.countMinute).define = s.define ∧ (s.countMinute).reverting = s.reverting
      ∧ (s.countMinute).revertRequest = s.revertRequest ∧ (s.countMinute).holdup = s.holdup
      ∧ (s.countMinute).management = s.management ∧ (s.countMinute).offered = s.offered
      ∧ (s.countMinute).sent = s.sent ∧ (s.countMinute).pending = s.pending := by
  unfold State.countMinute State.takeQMark; dsimp only
  split
  · split <;> simp
  · simp

@[simp] theorem State.requestWaiting_rest (b : Bool) :
    (s.requestWaiting b).geometry = s.geometry ∧ (s.requestWaiting b).fuses = s.fuses
      ∧ (s.requestWaiting b).stored = s.stored ∧ (s.requestWaiting b).work = s.work
      ∧ (s.requestWaiting b).regions = s.regions ∧ (s.requestWaiting b).boundary = s.boundary
      ∧ (s.requestWaiting b).keys = s.keys ∧ (s.requestWaiting b).transfers = s.transfers
      ∧ (s.requestWaiting b).port = s.port ∧ (s.requestWaiting b).credentials = s.credentials
      ∧ (s.requestWaiting b).revertBackoff = s.revertBackoff
      ∧ (s.requestWaiting b).derivation = s.derivation ∧ (s.requestWaiting b).startUp = s.startUp
      ∧ (s.requestWaiting b).window = s.window ∧ (s.requestWaiting b).tamper = s.tamper
      ∧ (s.requestWaiting b).time = s.time ∧ (s.requestWaiting b).deadlines = s.deadlines
      ∧ (s.requestWaiting b).response = s.response ∧ (s.requestWaiting b).erases = s.erases
      ∧ (s.requestWaiting b).scrub = s.scrub ∧ (s.requestWaiting b).define = s.define
      ∧ (s.requestWaiting b).reverting = s.reverting ∧ (s.requestWaiting b).revertRequest = s.revertRequest
      ∧ (s.requestWaiting b).store = s.store ∧ (s.requestWaiting b).holdup = s.holdup
      ∧ (s.requestWaiting b).management = s.management ∧ (s.requestWaiting b).alerts = s.alerts
      ∧ (s.requestWaiting b).offered = s.offered ∧ (s.requestWaiting b).sent = s.sent
      ∧ (s.requestWaiting b).pending = s.pending := by
  unfold State.requestWaiting; split <;> simp

@[simp] theorem State.emptyPort_rest :
    (s.emptyPort).geometry = s.geometry ∧ (s.emptyPort).fuses = s.fuses ∧ (s.emptyPort).stored = s.stored
      ∧ (s.emptyPort).work = s.work ∧ (s.emptyPort).regions = s.regions
      ∧ (s.emptyPort).boundary = s.boundary ∧ (s.emptyPort).keys = s.keys ∧ (s.emptyPort).random = s.random
      ∧ (s.emptyPort).credentials = s.credentials ∧ (s.emptyPort).revertBackoff = s.revertBackoff
      ∧ (s.emptyPort).derivation = s.derivation ∧ (s.emptyPort).startUp = s.startUp
      ∧ (s.emptyPort).window = s.window ∧ (s.emptyPort).tamper = s.tamper ∧ (s.emptyPort).time = s.time
      ∧ (s.emptyPort).deadlines = s.deadlines ∧ (s.emptyPort).response = s.response
      ∧ (s.emptyPort).erases = s.erases ∧ (s.emptyPort).scrub = s.scrub ∧ (s.emptyPort).define = s.define
      ∧ (s.emptyPort).reverting = s.reverting ∧ (s.emptyPort).revertRequest = s.revertRequest
      ∧ (s.emptyPort).store = s.store ∧ (s.emptyPort).holdup = s.holdup
      ∧ (s.emptyPort).management = s.management ∧ (s.emptyPort).alerts = s.alerts
      ∧ (s.emptyPort).offered = s.offered ∧ (s.emptyPort).pending = s.pending := by simp [State.emptyPort]

@[simp] theorem State.abandonChunks_rest :
    (s.abandonChunks).geometry = s.geometry ∧ (s.abandonChunks).fuses = s.fuses
      ∧ (s.abandonChunks).stored = s.stored ∧ (s.abandonChunks).work = s.work
      ∧ (s.abandonChunks).regions = s.regions ∧ (s.abandonChunks).boundary = s.boundary
      ∧ (s.abandonChunks).keys = s.keys ∧ (s.abandonChunks).random = s.random
      ∧ (s.abandonChunks).transfers = s.transfers ∧ (s.abandonChunks).port = s.port
      ∧ (s.abandonChunks).credentials = s.credentials ∧ (s.abandonChunks).revertBackoff = s.revertBackoff
      ∧ (s.abandonChunks).derivation = s.derivation ∧ (s.abandonChunks).startUp = s.startUp
      ∧ (s.abandonChunks).window = s.window ∧ (s.abandonChunks).tamper = s.tamper
      ∧ (s.abandonChunks).time = s.time ∧ (s.abandonChunks).deadlines = s.deadlines
      ∧ (s.abandonChunks).response = s.response ∧ (s.abandonChunks).erases = s.erases
      ∧ (s.abandonChunks).define = s.define ∧ (s.abandonChunks).reverting = s.reverting
      ∧ (s.abandonChunks).revertRequest = s.revertRequest ∧ (s.abandonChunks).store = s.store
      ∧ (s.abandonChunks).holdup = s.holdup ∧ (s.abandonChunks).management = s.management
      ∧ (s.abandonChunks).alerts = s.alerts ∧ (s.abandonChunks).offered = s.offered
      ∧ (s.abandonChunks).sent = s.sent ∧ (s.abandonChunks).pending = s.pending := by simp [State.abandonChunks]

@[simp] theorem State.zeroAdmitted_rest (r : RegionIx) :
    (s.zeroAdmitted r).geometry = s.geometry ∧ (s.zeroAdmitted r).fuses = s.fuses
      ∧ (s.zeroAdmitted r).stored = s.stored ∧ (s.zeroAdmitted r).work = s.work
      ∧ (s.zeroAdmitted r).boundary = s.boundary ∧ (s.zeroAdmitted r).random = s.random
      ∧ (s.zeroAdmitted r).transfers = s.transfers ∧ (s.zeroAdmitted r).port = s.port
      ∧ (s.zeroAdmitted r).credentials = s.credentials ∧ (s.zeroAdmitted r).revertBackoff = s.revertBackoff
      ∧ (s.zeroAdmitted r).derivation = s.derivation ∧ (s.zeroAdmitted r).startUp = s.startUp
      ∧ (s.zeroAdmitted r).window = s.window ∧ (s.zeroAdmitted r).tamper = s.tamper
      ∧ (s.zeroAdmitted r).time = s.time ∧ (s.zeroAdmitted r).deadlines = s.deadlines
      ∧ (s.zeroAdmitted r).response = s.response ∧ (s.zeroAdmitted r).erases = s.erases
      ∧ (s.zeroAdmitted r).scrub = s.scrub ∧ (s.zeroAdmitted r).define = s.define
      ∧ (s.zeroAdmitted r).reverting = s.reverting ∧ (s.zeroAdmitted r).revertRequest = s.revertRequest
      ∧ (s.zeroAdmitted r).store = s.store ∧ (s.zeroAdmitted r).holdup = s.holdup
      ∧ (s.zeroAdmitted r).management = s.management ∧ (s.zeroAdmitted r).alerts = s.alerts
      ∧ (s.zeroAdmitted r).offered = s.offered ∧ (s.zeroAdmitted r).sent = s.sent
      ∧ (s.zeroAdmitted r).pending = s.pending := by
  unfold State.zeroAdmitted; split <;> simp

@[simp] theorem State.resetChannel_rest :
    (s.resetChannel).geometry = s.geometry ∧ (s.resetChannel).fuses = s.fuses
      ∧ (s.resetChannel).stored = s.stored ∧ (s.resetChannel).work = s.work
      ∧ (s.resetChannel).regions = s.regions ∧ (s.resetChannel).boundary = s.boundary
      ∧ (s.resetChannel).keys = s.keys ∧ (s.resetChannel).random = s.random
      ∧ (s.resetChannel).transfers = s.transfers ∧ (s.resetChannel).port = s.port
      ∧ (s.resetChannel).credentials = s.credentials ∧ (s.resetChannel).revertBackoff = s.revertBackoff
      ∧ (s.resetChannel).derivation = s.derivation ∧ (s.resetChannel).startUp = s.startUp
      ∧ (s.resetChannel).window = s.window ∧ (s.resetChannel).tamper = s.tamper
      ∧ (s.resetChannel).time = s.time ∧ (s.resetChannel).deadlines = s.deadlines
      ∧ (s.resetChannel).response = s.response ∧ (s.resetChannel).erases = s.erases
      ∧ (s.resetChannel).scrub = s.scrub ∧ (s.resetChannel).define = s.define
      ∧ (s.resetChannel).reverting = s.reverting ∧ (s.resetChannel).revertRequest = s.revertRequest
      ∧ (s.resetChannel).store = s.store ∧ (s.resetChannel).holdup = s.holdup
      ∧ (s.resetChannel).alerts = s.alerts ∧ (s.resetChannel).offered = s.offered
      ∧ (s.resetChannel).sent = s.sent ∧ (s.resetChannel).pending = s.pending := by simp [State.resetChannel]

@[simp] theorem State.dropWaitingSalts_rest :
    (s.dropWaitingSalts).geometry = s.geometry ∧ (s.dropWaitingSalts).fuses = s.fuses
      ∧ (s.dropWaitingSalts).stored = s.stored ∧ (s.dropWaitingSalts).work = s.work
      ∧ (s.dropWaitingSalts).regions = s.regions ∧ (s.dropWaitingSalts).boundary = s.boundary
      ∧ (s.dropWaitingSalts).keys = s.keys ∧ (s.dropWaitingSalts).transfers = s.transfers
      ∧ (s.dropWaitingSalts).port = s.port ∧ (s.dropWaitingSalts).credentials = s.credentials
      ∧ (s.dropWaitingSalts).revertBackoff = s.revertBackoff
      ∧ (s.dropWaitingSalts).derivation = s.derivation ∧ (s.dropWaitingSalts).startUp = s.startUp
      ∧ (s.dropWaitingSalts).window = s.window ∧ (s.dropWaitingSalts).tamper = s.tamper
      ∧ (s.dropWaitingSalts).time = s.time ∧ (s.dropWaitingSalts).deadlines = s.deadlines
      ∧ (s.dropWaitingSalts).response = s.response ∧ (s.dropWaitingSalts).erases = s.erases
      ∧ (s.dropWaitingSalts).scrub = s.scrub ∧ (s.dropWaitingSalts).define = s.define
      ∧ (s.dropWaitingSalts).reverting = s.reverting ∧ (s.dropWaitingSalts).revertRequest = s.revertRequest
      ∧ (s.dropWaitingSalts).store = s.store ∧ (s.dropWaitingSalts).holdup = s.holdup
      ∧ (s.dropWaitingSalts).management = s.management ∧ (s.dropWaitingSalts).alerts = s.alerts
      ∧ (s.dropWaitingSalts).offered = s.offered ∧ (s.dropWaitingSalts).sent = s.sent
      ∧ (s.dropWaitingSalts).pending = s.pending := by simp [State.dropWaitingSalts]

@[simp] theorem State.stopDerivation_rest :
    (s.stopDerivation).geometry = s.geometry ∧ (s.stopDerivation).fuses = s.fuses
      ∧ (s.stopDerivation).stored = s.stored ∧ (s.stopDerivation).work = s.work
      ∧ (s.stopDerivation).regions = s.regions ∧ (s.stopDerivation).boundary = s.boundary
      ∧ (s.stopDerivation).keys = s.keys ∧ (s.stopDerivation).random = s.random
      ∧ (s.stopDerivation).transfers = s.transfers ∧ (s.stopDerivation).port = s.port
      ∧ (s.stopDerivation).revertBackoff = s.revertBackoff ∧ (s.stopDerivation).startUp = s.startUp
      ∧ (s.stopDerivation).window = s.window ∧ (s.stopDerivation).tamper = s.tamper
      ∧ (s.stopDerivation).time = s.time ∧ (s.stopDerivation).deadlines = s.deadlines
      ∧ (s.stopDerivation).erases = s.erases ∧ (s.stopDerivation).scrub = s.scrub
      ∧ (s.stopDerivation).define = s.define ∧ (s.stopDerivation).reverting = s.reverting
      ∧ (s.stopDerivation).revertRequest = s.revertRequest ∧ (s.stopDerivation).store = s.store
      ∧ (s.stopDerivation).holdup = s.holdup ∧ (s.stopDerivation).offered = s.offered
      ∧ (s.stopDerivation).sent = s.sent ∧ (s.stopDerivation).pending = s.pending := by
  unfold State.stopDerivation; split
  · simp
  · dsimp only; split <;> simp

end Sys2Proof.Machine
end

