-- ==== Sys2Proof/Laws/Commit.lean ====
section
/-! SUPPORT. The answers to a commit unit that is alone in the queue, in a state where nothing else is due:
what COMMIT_WRITE_END leaves is what the unit's requester does with the answer. -/

namespace Sys2Proof.Machine

variable {s : State}

/-- The state in which the requester of a unit that was alone in the queue takes the done answer. -/
def State.written (s : State) (image : Records) : State :=
  { s with sent := [], stored := image, store := ⟨[], none, false, []⟩ }

theorem State.submitDeferred_none (q : Requester) (h : s.store.deferred = []) : s.submitDeferred q = s := by
  simp [State.submitDeferred, h, State.submitDeferredUpTo]

theorem State.serveStore_empty (h : s.store.queue = []) : s.serveStore = s :=
  State.serveStore_of_still (.inl h)

/-- Nothing is due and nothing waits in the store: the event ends where it is. -/
theorem State.settle_of_calm_empty (h : s.Calm) (q : s.store.queue = []) : s.settle = s := by
  rw [State.settle_of_calm h, State.serveStore_empty q]

theorem exec_commitWriteEnd {u : CommitUnit} {image : Records} (hq : s.store.queue = [u])
    (hd : s.store.deferred = []) (hw : s.store.writing = some image)
    (hs : (State.unitDone u (s.written image)).store = ⟨[], none, false, []⟩)
    (hc : (State.unitDone u (s.written image)).Calm) :
    exec .commitWriteEnd s = .next (State.unitDone u (s.written image)) := by
  have hp : ({ s.quiet.popHead with stored := image } : State) = s.written image := by
    simp [State.popHead, State.written, hq, hd]
  have : exec .commitWriteEnd s = .next s.quiet.writeEnds := rfl
  rw [this, State.writeEnds]
  simp only [State.quiet_store, hq, hw, State.answerDone]
  rw [hp, State.submitDeferred_none _ (by rw [hs]), State.settle_of_calm_empty hc (by rw [hs])]

end Sys2Proof.Machine
end

