-- ==== Sys2Proof/Laws/Requests.lean ====
section
/-! SUPPORT. A management request in its taking event: once, what every request row does at the channel,
so that a statement about one of them is a statement about its owning block's handling alone. -/

namespace Sys2Proof.Machine

variable {s : State}

/-- The row of a request kind offers the request to the channel. -/
theorem exec_request {i : Instr} {k : Byte} (hk : kindCode i = some k) (s : State) :
    exec i s = .next (s.quiet.request i) := by
  cases i <;> first | (simp [kindCode] at hk; done) | rfl

/-- Before port ready the request remains with the front-end. -/
theorem exec_request_waits {i : Instr} {k : Byte} (hk : kindCode i = some k)
    (h : s.startUp.portReady = false) :
    exec i s = .next { s with sent := [], offered := s.offered ++ [i] } := by
  rw [exec_request hk]; simp [State.request, h, State.quiet]

theorem takeRequest_request {i : Instr} {k : Byte} (hk : kindCode i = some k) (s : State) :
    s.takeRequest i = s.offerRequest i := by
  cases i <;> first | (simp [kindCode] at hk; done) | rfl

/-- While the slot is WORKING the request is discarded. -/
theorem exec_request_discarded {i : Instr} {k : Byte} (hk : kindCode i = some k)
    (h : s.startUp.portReady = true) (w : s.management.slot = .working) :
    exec i s = .next { s with sent := [] } := by
  rw [exec_request hk, State.request]
  simp [h, takeRequest_request hk, State.offerRequest, w, State.quiet]

theorem exec_request_offered {i : Instr} {k : Byte} (hk : kindCode i = some k)
    (h : s.startUp.portReady = true) (w : s.management.slot ≠ .working) :
    exec i s = .next (s.quiet.takeMessage k (if messageFits i then some i else none)) := by
  rw [exec_request hk, State.request]
  simp [h, takeRequest_request hk, State.offerRequest, w, hk]

theorem authority_quiet (s : State) (i : Instr) : s.quiet.authority i = s.authority i := rfl

/-- A request that passes R174 is handed to its owning block, its slot WORKING. -/
theorem exec_request_handed {i : Instr} {k : Byte} (hk : kindCode i = some k) (hf : messageFits i = true)
    (h : s.TakesRequests) (ha : s.authority i = true) :
    exec i s = .next (handRequest s.nextRequest i s.working) := by
  rw [exec_request_offered hk h.1 h.2.1]
  simp [State.takeMessage, State.requestRefusal, h.2.2, hf, authority_quiet, ha]
  rfl

/-- A request without the authority R80 asks for is answered NOT-PRESENTED. -/
theorem exec_request_refused {i : Instr} {k : Byte} (hk : kindCode i = some k) (hf : messageFits i = true)
    (h : s.TakesRequests) (ha : s.authority i = false) :
    exec i s = .next (s.answered k .notPresented []) := by
  rw [exec_request_offered hk h.1 h.2.1]
  simp [State.takeMessage, State.requestRefusal, h.2.2, hf, authority_quiet, ha]
  simp [State.reply, State.beginRequest, State.answered, State.quiet]

/-- A request the owning block answers at once. -/
theorem State.reply_working (k : Byte) (c : ResultCode) (b : List Byte) :
    s.working.reply s.nextRequest k c b = s.answered k c b := by
  simp [State.reply, State.working, State.answered, State.nextRequest]

end Sys2Proof.Machine
end

