-- ==== Sys2Proof/Laws/Status.lean ====
section
/-! SUPPORT. The bytes of a status report: the model's fields and region summaries are the ones that the
statements spell out (R176, R182), material loads when it unwraps (R53), and what a unit writes does not depend on what the part has sent. -/

namespace Sys2Proof.Machine

/-- A field of k bytes is the number's bytes, the least significant first. -/
theorem le_eq_littleEndian (k v : Nat) : le k v = littleEndian k v := by
  induction k generalizing v with
  | zero => rfl
  | succ k ih =>
    simp [le, littleEndian, ih, List.range_succ_eq_map, Function.comp_def, Nat.pow_succ',
      Nat.div_div_eq_div_mul]

/-- A field of one byte. -/
theorem littleEndian_one (v : Nat) : littleEndian 1 v = [BitVec.ofNat 8 v] := by
  simp [littleEndian, List.range_succ_eq_map]

/-- A mask is sent as the number it spells. -/
theorem bytes16_eq_littleEndian (w : BitVec 16) : bytes16 w = littleEndian 2 w.toNat := by
  simp [bytes16, littleEndian, List.range_succ_eq_map]
  constructor
  · apply BitVec.eq_of_toNat_eq
    simp
  · apply BitVec.eq_of_toNat_eq
    simp [Nat.shiftRight_eq_div_pow]

/-- Eight flags packed are the flags' byte. -/
theorem packByte_eq_flagsByte : ∀ a b c d e f g h : Bool,
    packByte a b c d e f g h = flagsByte [a, b, c, d, e, f, g, h] := by decide

/-- Clear flags at the top of a set's byte leave it as it is. -/
theorem flagsByte_four : ∀ a b c d : Bool,
    flagsByte [a, b, c, d, false, false, false, false] = flagsByte [a, b, c, d] := by decide

/-- A region summary is the 22 bytes of R182. -/
theorem State.regionSummary_eq (s : State) (r : RegionIx) : s.regionSummary r = s.summary r := by
  unfold State.regionSummary State.summary regionSetByte
  simp only [le_eq_littleEndian, packByte_eq_flagsByte, flagsByte_four, littleEndian_one]
  cases s.work.regions[r].enabled <;> cases s.work.regions[r].extent <;> simp

/-- A region mask that may be absent is sent as its number, or 0. -/
theorem bytes16_getD (m : Option (BitVec 16)) : bytes16 (m.getD 0) = littleEndian 2 (m.elim 0 BitVec.toNat) := by
  cases m <;> simp [bytes16_eq_littleEndian]

/-- An alert record is the 16 bytes of R182, one field after another. -/
theorem alertBytes_eq (a : Alert) : alertBytes a =
    [alertKindByte a.kind, severityByte a.severity, a.source.elim 0xFF fun n => BitVec.ofNat 8 n.val,
      flagsByte [a.mask.isSome, a.value.isSome]]
    ++ littleEndian 2 (a.mask.elim 0 BitVec.toNat) ++ littleEndian 4 (a.value.getD 0) ++ littleEndian 4 a.stamp
    ++ [BitVec.ofNat 8 a.repeats, 0] := by
  have flags : ∀ b c : Bool, packByte b c false false false false false false = flagsByte [b, c] := by decide
  unfold alertBytes
  rw [flags, bytes16_getD, le_eq_littleEndian, le_eq_littleEndian]
  cases a.source <;> rfl

theorem alertBytes_length (a : Alert) : (alertBytes a).length = 16 := rfl

/-- Material loads exactly if unwrapping it gives a key (R53). -/
theorem State.unwrapped_isSome_iff (s : State) (r : RegionIx) :
    (s.unwrapped r).isSome = true ↔ s.MaterialLoads r := by
  have checked {α β : Type} (o : Option α) (p : α → Prop) [DecidablePred p] (f : α → β) :
      (o.bind fun m => if p m then some (f m) else none).isSome = true ↔ ∃ m, o = some m ∧ p m := by
    cases o <;> simp
  have h := checked s.work.keys[r].material (fun m => m.integrity = s.fuses.rootKey)
    (fun m => (⟨s.work.keys[r].generation, m.material⟩ : LoadedKey))
  unfold State.MaterialLoads
  rw [← h]
  unfold State.unwrapped
  cases s.work.keys[r].material <;> rfl

/-- What a unit writes does not depend on what the part has sent in the event. -/
@[simp] theorem State.image_quiet (s : State) (u : CommitUnit) : s.quiet.image u = s.image u := by
  cases u <;> rfl

/-- What a unit writes does not depend on the hold-up monitor. -/
@[simp] theorem State.image_holdup (s : State) (u : CommitUnit) (h : HoldupMonitor) :
    State.image { s with holdup := h } u = s.image u := by
  cases u <;> rfl

end Sys2Proof.Machine
end

