-- ==== Sys2Proof/Laws/Triggers.lean ====
section
/-! SUPPORT. The pending set: what entering a trigger does to it (R135), which entry a free controller takes
(R136), and what the entries absorbed at a step boundary make of the running record (R142). -/

namespace Sys2Proof.Machine

/-! ### Entering a trigger (R135) -/

/-- A merge, field by field. -/
theorem PendingTrigger.merge_eq (e : PendingTrigger) (level : Level) (severity : Severity) (mask : BitVec 16) :
    e.merge level severity mask = ⟨e.source, if e.level.rank < level.rank then level else e.level,
      if e.severity = .high ∨ severity = .high then .high else .low, e.mask ||| mask,
      min 255 (e.repeats + 1)⟩ := by
  unfold PendingTrigger.merge Severity.join Level.max saturate
  cases e.severity <;> cases severity <;> simp

/-- A trigger at level NONE is dropped. -/
theorem enterTrigger_none (n : SourceIx) (severity : Severity) (mask : BitVec 16) (set : List PendingTrigger) :
    enterTrigger n .none severity mask set = set := by
  simp [enterTrigger]

/-- A trigger of a source without an entry makes a new one. -/
theorem enterTrigger_new {n : SourceIx} {level : Level} {set : List PendingTrigger} (h : level ≠ .none)
    (hn : ∀ x ∈ set, x.source ≠ n) (severity : Severity) (mask : BitVec 16) :
    enterTrigger n level severity mask set = set ++ [⟨n, level, severity, mask, 0⟩] := by
  have : (set.any fun e => e.source == n) = false := by simpa using hn
  simp [enterTrigger, h, this]

/-- Entries of other sources are not touched by a merge. -/
theorem map_merge_of_other {n : SourceIx} {set : List PendingTrigger} (hn : ∀ x ∈ set, x.source ≠ n)
    (f : PendingTrigger → PendingTrigger) : (set.map fun e => if e.source = n then f e else e) = set :=
  (List.map_congr_left fun e he => if_neg (hn e he)).trans (List.map_id _)

/-- A trigger of a source with an entry merges into it and leaves the others. -/
theorem enterTrigger_merge {level : Level} {before after : List PendingTrigger} {e : PendingTrigger}
    (h : level ≠ .none) (hb : ∀ x ∈ before, x.source ≠ e.source) (ha : ∀ x ∈ after, x.source ≠ e.source)
    (severity : Severity) (mask : BitVec 16) :
    enterTrigger e.source level severity mask (before ++ e :: after)
      = before ++ e.merge level severity mask :: after := by
  have : ((before ++ e :: after).any fun x => x.source == e.source) = true := by simp
  simp only [enterTrigger, h, if_false, this, if_true, List.map_append, List.map_cons,
    map_merge_of_other hb, map_merge_of_other ha]

/-- The sources of the set once a trigger is entered: as they were, or with a new one at the end. -/
theorem sources_enterTrigger (n : SourceIx) (level : Level) (severity : Severity) (mask : BitVec 16)
    (set : List PendingTrigger) : (enterTrigger n level severity mask set).map PendingTrigger.source
      = set.map PendingTrigger.source
    ∨ n ∉ set.map PendingTrigger.source
      ∧ (enterTrigger n level severity mask set).map PendingTrigger.source
        = set.map PendingTrigger.source ++ [n] := by
  unfold enterTrigger
  split
  · exact .inl rfl
  · split
    · refine .inl ?_
      rw [List.map_map]
      refine List.map_congr_left fun e _ => ?_
      simp only [Function.comp_apply]
      split <;> rfl
    · rename_i h
      exact .inr ⟨by simpa using h, by simp⟩

/-! ### The entry a free controller takes (R136) -/

/-- The search for the lowest source, from any entry on. -/
theorem foldl_lowest {e : PendingTrigger} {f : Option PendingTrigger → PendingTrigger → Option PendingTrigger}
    (first : ∀ x, f none x = some x)
    (lower : ∀ y x, f (some y) x = if x.source < y.source then some x else some y) (l : List PendingTrigger) (hl : ∀ x ∈ l, e.source < x.source) :
    l.foldl f (some e) = some e := by
  induction l with
  | nil => rfl
  | cons x l ih =>
    have hx : ¬ x.source < e.source := not_lt_of_gt (hl x (by simp))
    rw [List.foldl_cons, lower, if_neg hx]
    exact ih fun y hy => hl y (by simp [hy])

/-- What the search has found among entries that all come after `e` comes after `e`. -/
theorem foldl_above {e : PendingTrigger} {f : Option PendingTrigger → PendingTrigger → Option PendingTrigger}
    (first : ∀ x, f none x = some x)
    (lower : ∀ y x, f (some y) x = if x.source < y.source then some x else some y) (l : List PendingTrigger) (hl : ∀ x ∈ l, e.source < x.source)
    (b : Option PendingTrigger) (hb : ∀ y ∈ b, e.source < y.source) :
    ∀ y ∈ l.foldl f b, e.source < y.source := by
  induction l generalizing b with
  | nil => exact hb
  | cons x l ih =>
    refine ih (fun y hy => hl y (by simp [hy])) (f b x) fun y hy => ?_
    have hx := hl x (by simp)
    cases b with
    | none => simp [first] at hy; exact hy ▸ hx
    | some z =>
      rw [lower] at hy
      split at hy <;> simp at hy
      · exact hy ▸ hx
      · exact hy ▸ hb z rfl

/-- Of a set whose other entries have higher sources, the search finds that one entry. -/
theorem foldl_lowest_mid {e : PendingTrigger} {f : Option PendingTrigger → PendingTrigger → Option PendingTrigger}
    (first : ∀ x, f none x = some x)
    (lower : ∀ y x, f (some y) x = if x.source < y.source then some x else some y) (before after : List PendingTrigger) (hb : ∀ x ∈ before, e.source < x.source)
    (ha : ∀ x ∈ after, e.source < x.source) : (before ++ e :: after).foldl f none = some e := by
  rw [List.foldl_append, List.foldl_cons]
  have above := foldl_above (e := e) first lower before hb none (by simp)
  have : f (before.foldl f none) e = some e := by
    cases hy : before.foldl f none with
    | none => exact first e
    | some y => rw [lower, if_pos (above y hy)]
  rw [this]
  exact foldl_lowest first lower after ha

/-- The entry taken is the one that comes before all others: HIGH before LOW, then the lowest source. -/
theorem nextTrigger_eq {e : PendingTrigger} {before after : List PendingTrigger}
    (h : ∀ x ∈ before ++ after, e.severity = .high ∧ x.severity = .low
      ∨ e.severity = x.severity ∧ e.source < x.source) :
    nextTrigger (before ++ e :: after) = some e := by
  have hb : ∀ x ∈ before, _ := fun x hx => h x (List.mem_append_left _ hx)
  have ha : ∀ x ∈ after, _ := fun x hx => h x (List.mem_append_right _ hx)
  unfold nextTrigger
  dsimp only
  cases he : e.severity with
  | high =>
    have above {l : List PendingTrigger} (hl : ∀ x ∈ l, e.severity = .high ∧ x.severity = .low
        ∨ e.severity = x.severity ∧ e.source < x.source) :
        ∀ x ∈ l.filter fun y => y.severity == .high, e.source < x.source := by
      intro x hx
      obtain ⟨hm, hs⟩ := List.mem_filter.mp hx
      rcases hl x hm with ⟨-, h2⟩ | ⟨-, h2⟩
      · simp [h2] at hs
      · exact h2
    rw [List.filter_append, List.filter_cons_of_pos (by simp [he]),
      foldl_lowest_mid ?_ ?_ _ _ (above hb) (above ha)] <;> intros <;> rfl
  | low =>
    have low {l : List PendingTrigger} (hl : ∀ x ∈ l, e.severity = .high ∧ x.severity = .low
        ∨ e.severity = x.severity ∧ e.source < x.source) :
        ∀ x ∈ l, x.severity = .low ∧ e.source < x.source := by
      intro x hx
      rcases hl x hx with ⟨h1, -⟩ | ⟨h1, h2⟩
      · rw [he] at h1; cases h1
      · exact ⟨by rw [← h1, he], h2⟩
    have none : (before ++ e :: after).filter (fun y => y.severity == .high) = [] := by
      rw [List.filter_eq_nil_iff]
      intro x hx
      rcases List.mem_append.mp hx with hx | hx
      · simp [(low hb x hx).1]
      · rcases List.mem_cons.mp hx with rfl | hx
        · simp [he]
        · simp [(low ha x hx).1]
    rw [none]
    exact foldl_lowest_mid (fun _ => rfl) (fun _ _ => rfl) _ _ (fun x hx => (low hb x hx).2)
      fun x hx => (low ha x hx).2

/-! ### Entries absorbed at a step boundary (R142) -/

variable {s : State}

theorem getLsbD_bit (n : SourceIx) (k : Nat) : (bit n.val).getLsbD k = true ↔ n.val = k := by
  have hn := n.isLt
  simp only [bit, BitVec.getLsbD_shiftLeft, BitVec.getLsbD_one]
  simp
  omega

theorem Level.rank_max (a b : Level) : (a.max b).rank = Nat.max a.rank b.rank := by
  cases a <;> cases b <;> rfl

/-- The sources joined: those of the response and of every entry. -/
theorem State.foldl_join_sources (l : List PendingTrigger) (r : RunningResponse) (k : Nat) :
    (l.foldl s.join r).sources.getLsbD k = true
      ↔ r.sources.getLsbD k = true ∨ ∃ e ∈ l, e.source.val = k := by
  induction l generalizing r with
  | nil => simp
  | cons e l ih =>
    rw [List.foldl_cons, ih]
    simp [State.join, BitVec.getLsbD_or, getLsbD_bit, or_assoc]

/-- The mask joined: that of the response and every entry's contribution. -/
theorem State.foldl_join_mask (l : List PendingTrigger) (r : RunningResponse) (k : Nat) :
    (l.foldl s.join r).mask.getLsbD k = true
      ↔ r.mask.getLsbD k = true ∨ ∃ e ∈ l, (s.contribution e).getLsbD k = true := by
  induction l generalizing r with
  | nil => simp
  | cons e l ih =>
    rw [List.foldl_cons, ih]
    simp [State.join, BitVec.getLsbD_or, or_assoc]

/-- A relock is due if it was or if an entry makes it so. -/
theorem State.foldl_join_relockDue (l : List PendingTrigger) (r : RunningResponse) :
    (l.foldl s.join r).relockDue = true ↔ r.relockDue = true ∨ ∃ e ∈ l, e.relocks = true := by
  induction l generalizing r with
  | nil => simp
  | cons e l ih =>
    rw [List.foldl_cons, ih]
    simp [State.join, or_assoc]

/-- The repeat count joined, where the sum does not matter beyond 255. -/
theorem State.foldl_join_repeats {l : List PendingTrigger} (h : l ≠ []) (r : RunningResponse) :
    (l.foldl s.join r).repeats = min 255 (r.repeats + (l.map PendingTrigger.repeats).sum) := by
  induction l generalizing r with
  | nil => exact absurd rfl h
  | cons e l ih =>
    rw [List.foldl_cons]
    by_cases hl : l = []
    · subst hl; simp [State.join]
    · rw [ih hl]
      simp only [State.join, List.map_cons, List.sum_cons]
      omega

/-- The level joined is no lower than the response's and every entry's, and is one of them. -/
theorem State.foldl_join_level (l : List PendingTrigger) (r : RunningResponse) :
    r.level.rank ≤ (l.foldl s.join r).level.rank ∧ (∀ e ∈ l, e.level.rank ≤ (l.foldl s.join r).level.rank)
      ∧ ((l.foldl s.join r).level = r.level ∨ ∃ e ∈ l, (l.foldl s.join r).level = e.level) := by
  induction l generalizing r with
  | nil => simp
  | cons e l ih =>
    rw [List.foldl_cons]
    obtain ⟨h1, h2, h3⟩ := ih (s.join r e)
    have hj : (s.join r e).level = r.level.max e.level := rfl
    have hr : Nat.max r.level.rank e.level.rank ≤ (l.foldl s.join (s.join r e)).level.rank := by
      rw [← Level.rank_max, ← hj]; exact h1
    refine ⟨le_trans (Nat.le_max_left _ _) hr, fun x hx => ?_, ?_⟩
    · rcases List.mem_cons.mp hx with rfl | hx
      · exact le_trans (Nat.le_max_right _ _) hr
      · exact h2 x hx
    · rcases h3 with h3 | ⟨x, hx, h3⟩
      · rw [h3, hj, Level.max]
        split
        · exact .inr ⟨e, by simp, rfl⟩
        · exact .inl rfl
      · exact .inr ⟨x, by simp [hx], h3⟩

/-- What else absorbed entries leave and make: severity HIGH, and everything but the joined fields as it was. -/
theorem State.foldl_join_frame {l : List PendingTrigger} (h : l ≠ []) (r : RunningResponse) :
    l.foldl s.join r = { r with
      sources := (l.foldl s.join r).sources, level := (l.foldl s.join r).level, severity := .high
      relockDue := (l.foldl s.join r).relockDue, mask := (l.foldl s.join r).mask
      repeats := (l.foldl s.join r).repeats } := by
  induction l generalizing r with
  | nil => exact absurd rfl h
  | cons e l ih =>
    rw [List.foldl_cons]
    by_cases hl : l = []
    · subst hl; rfl
    · have := ih hl (s.join r e)
      generalize l.foldl s.join (s.join r e) = x at this ⊢
      rw [this]
      rfl

end Sys2Proof.Machine
end

