-- ==== Sys2Proof/Tests/Slice0.lean ====
section
/-! SUPPORT. Tests of single commands on small states (expected values worked out from the spec's rules),
the ill-formed operands that WellFormed refuses, and for every statement with hypotheses a state and
operands that meet them. -/

namespace Sys2Proof.Tests

-- One theorem at a time: checked side by side, the many small ones take a thread each.
set_option Elab.async false

open Sys2Proof.Machine

/-! ### Small states -/

/-- A part that has finished its start-up sequence in mode FACTORY. -/
def running : State := { State.reset with startUp := ⟨true, true, .running⟩ }

/-- The same in another mode, with credential 0's flag clear. -/
def inMode (m : Mode) : State := { running with work := { running.work with mode := m } }

/-- With a region record and rights. -/
def withRegion (r : RegionIx) (x : RegionRecord) (y : RegionStatus) (s : State) : State :=
  { s with
    work := { s.work with regions := s.work.regions.set r x }
    regions := s.regions.set r y }

/-- Region 0's record, with its conceal and absorb flags. -/
def region0 (conceal absorb : Bool) : RegionRecord :=
  { factoryRegion true with conceal := conceal, absorb := absorb }

/-- An enabled region 1 on LBAs 100 to 199. -/
def region1 : RegionRecord := { factoryRegion true with extent := some ⟨100, 100⟩ }

/-- Region 0 with both rights OPEN and its key loaded. -/
def opened : State :=
  { withRegion 0 (region0 false false) ⟨.opened, .opened, false, 0⟩ running with
    keys := running.keys.set 0 ⟨1, some ⟨1, 0⟩⟩ }

/-- Region 1 defined beside region 0. -/
def twoRegions : State :=
  { withRegion 1 region1 ⟨.locked, .locked, false, 0⟩ running with boundary := [100] }

/-- A media operation of operation number 9. -/
def operation (o : Occupant) (kind : MediaKind) (seconds : Nat) : SlotRecord :=
  ⟨o, kind, some ⟨0, 1⟩, 9, seconds, []⟩

/-- Every media operation slot BUSY. -/
def full (s : State) : State :=
  { s with port := { s.port with
      slots := Vector.replicate 16 (some (operation (.segment 5 0) .read 30)) } }

def secretOf : Verifier := ⟨0, ⟨0, []⟩, 4⟩

/-- A credential set with a counter. -/
def withCredential (c : CredIx) (counter : Nat) (s : State) : State :=
  { s with work := { s.work with credentials :=
      (s.work.credentials.set c ⟨some secretOf, counter, 5, []⟩) } }

/-- The part while the write of the only unit of the queue runs, for management request 0. -/
def writing (u : CommitUnit) (s : State) : State :=
  { s with
    store := ⟨[u], some s.stored, false, []⟩
    management := ⟨.working, none, some 0, 1⟩ }

/-- The part while the only unit of the queue waits for a conversion. -/
def waiting (u : CommitUnit) (low : Nat) (s : State) : State :=
  { s with
    store := ⟨[u], none, true, []⟩
    holdup := ⟨true, 0, low, low != 0, false⟩
    management := ⟨.working, none, some 0, 1⟩ }

/-- A trigger of TIME-FAULT at the given level. -/
def trigger (level : Level) : PendingTrigger := ⟨srcTimeFault, level, .low, 0, 0⟩

/-- The response controller released and free. -/
def free (s : State) : State := { s with response := { s.response with released := true } }

/-- A response that runs. -/
def response : RunningResponse :=
  ⟨bit 7, .erase, .low, false, true, 1, 1, none, .closing, 0⟩

/-- Whether a command answers a next state of which `p` holds. -/
def gives (c : Instr) (s : State) (p : State → Bool) : Bool :=
  match exec c s with
  | .next t => p t
  | .fault .. => false
  | .refused .. => false

/-! ### WellFormed refuses each ill-formed operand -/

theorem test_write_data_short : (Instr.write 0 0 2 [[0]]).wellFormed = false := by decide
theorem test_write_block_of_two_units : (Instr.write 0 0 1 [[0, 0]]).wellFormed = false := by decide
theorem test_write_mixed_block_sizes :
    (Instr.write 0 0 2 [[0], List.replicate 8 0]).wellFormed = false := by decide
theorem test_write_fits : (Instr.write 0 0 2 [[0], [1]]).wellFormed = true := by decide
theorem test_media_block_empty : (Instr.mediaData 0 0 []).wellFormed = false := by decide
theorem test_voltage_above_range : (Instr.conversionEnd 3300000001).wellFormed = false := by decide
theorem test_voltage_at_top : (Instr.conversionEnd 3300000000).wellFormed = true := by decide
theorem test_present_secret_of_65 :
    (Instr.present 0 0 0 0 (List.replicate 65 0)).wellFormed = false := by decide
theorem test_set_secret_of_65 : (Instr.setSecret 0 4 (List.replicate 65 0)).wellFormed = false := by decide
theorem test_label_of_65 : (Instr.setLabel (List.replicate 65 0)).wellFormed = false := by decide
theorem test_revert_code_of_33 : (Instr.revert 0 (List.replicate 33 0)).wellFormed = false := by decide

/-! ### Hypotheses of the statements about the machine as a whole -/

theorem witness_idle : State.reset.pending = [] := by decide

/-- A step with a command at the front, from a state that keeps the alert law with its line asserted. -/
theorem witness_alert_law : ∃ s : State, s.AlertLaw ∧ s.alerts.attention = true ∧ ∃ t, step s = .next t :=
  ⟨{ running with
      alerts := ⟨[⟨.scrubFault, .high, none, none, none, 3, 0⟩], none, false, 1, true⟩
      pending := [.fetchAlerts none] },
    by unfold State.AlertLaw; decide, by decide, _, rfl⟩

theorem witness_commit_law : ∃ s : State, s.CommitLaw ∧ s.store.queue ≠ [] ∧ ∃ t, step s = .next t :=
  ⟨{ running with store := ⟨[.deadlineCharge], none, true, []⟩, pending := [.setScrubShare 3] },
    by unfold State.CommitLaw; decide, by decide, _, rfl⟩

theorem witness_tag_law : ∃ s : State, s.TagLaw ∧ ∃ t, step s = .next t :=
  ⟨{ running with pending := [.flush 63] }, by unfold State.TagLaw; decide, _, rfl⟩

theorem witness_key_law : ∃ s : State, s.KeyLaw ∧ s.keys[(0 : RegionIx)].loaded.isSome = true
    ∧ ∃ t, step s = .next t :=
  ⟨{ opened with pending := [.lock 1 1 0] }, by unfold State.KeyLaw; decide, by decide, _, rfl⟩

theorem witness_generation_law : ∃ s : State, s.GenerationLaw ∧ ∃ t, step s = .next t := by
  refine ⟨{ running with pending := [.defineRegion 1 1 100 100 0 0 0 0] }, ?_, _, rfl⟩
  intro r
  refine ⟨?_, ?_, ?_, ?_, ?_⟩
  · revert r; decide
  · revert r; decide
  · revert r; decide
  · intro image h; cases h
  · intro g use h
    rcases h with h | h <;> cases h

theorem witness_attempt_law : ∃ s : State, s.AttemptLaw ∧ ∃ t, step s = .next t := by
  refine ⟨{ running with pending := [.present 0 0 0 0 [7]] }, ⟨?_, ?_, ?_⟩, _, rfl⟩
  · unfold Records.AttemptsWithin; decide
  · unfold Records.AttemptsWithin; decide
  · intro image h; cases h

theorem witness_lockdown : ∃ s t : State, s.work.mode = .lockdown ∧ step s = .next t
    ∧ t.work.mode = .lockdown ∧ t.regions[(0 : RegionIx)].right .read = .opened := by
  refine ⟨{ opened with
      work := { opened.work with mode := .lockdown }
      pending := [.present 1 1 1 0 [7]] }, _, by decide, rfl, by decide, by decide⟩

/-! ### Power, start-up, transfer admission -/

theorem witness_store_read : ∀ early ∈ [EarlyCrystal.nothing, .running, .late],
    let s : State := { State.reset with time := ⟨.awaiting, 0, early⟩ }
    s.startUp = ⟨true, false, .reading⟩ ∧ s.response.released = false ∧ s.response.triggers = []
    ∧ s.erases = [] ∧ s.scrub.phase = .idle ∧ s.scrub.formed = [] ∧ s.port.queue = []
    ∧ s.time.early = early ∧ s.deadlines.chargeHeld = false := by decide

theorem witness_tag_check : running.startUp.portReady = true ∧ requestTag (.flush 64) = some 64
    ∧ 63 < (64 : BitVec 8).toNat
    ∧ (let s : State := { running with transfers := [⟨63, .flush, 0, 0, [], 0, .good, 0, []⟩] }
       s.startUp.portReady = true ∧ requestTag (.flush 63) = some 63 ∧ (63 : BitVec 8).toNat ≤ 63
       ∧ ∃ t ∈ s.transfers, t.tag = (63 : BitVec 8).toNat) := by decide

theorem witness_range_check :
    (running.startUp.portReady = true ∧ running.TagFree 63) ∧ running.geometry.capacity = 65536
    ∧ blockFields (.read 63 0 0) = some (.read, 63, 0, 0, [])
    ∧ blockFields (.discard 63 0 65537) = some (.discard, 63, 0, 65537, [])
    ∧ blockFields (.read 63 65536 1) = some (.read, 63, 65536, 1, [])
    ∧ blockFields (.read 63 1 65536) = some (.read, 63, 1, 65536, []) := by
  refine ⟨⟨rfl, ?_⟩, rfl, rfl, rfl, rfl, rfl⟩
  unfold State.TagFree; decide

theorem witness_refused_transfer : ∃ x : Segment,
    running.startUp.portReady = true
    ∧ blockFields (.read 0 0 1) = some (.read, 0, 0, 1, []) ∧ running.TagFree 0 ∧ running.RangeFits 0 1
    ∧ running.plan .read (0 + 1) 1 0 = [x] ∧ x.disposition = .refuse .locked := by
  refine ⟨_, by decide, rfl, ?_, ?_, rfl, rfl⟩
  · unfold State.TagFree; decide
  · unfold State.RangeFits; decide

/-- An opened region 0: the one segment of a transfer over the whole part is CIPHER, so bound. -/
theorem witness_admitted_bound : ∃ x : Segment, (full opened).freeSlot = none
    ∧ (full opened).scrub.phase ≠ .walking ∧ (full opened).TagFree 63
    ∧ (full opened).RangeFits 0 65536
    ∧ (full opened).plan .write (0 + 65536) 65536 0 = [x] ∧ x.disposition = .cipher := by
  refine ⟨_, by decide, by decide, ?_, ?_, rfl, rfl⟩
  · unfold State.TagFree; decide
  · unfold State.RangeFits; decide

/-- A locked region 0 that conceals and absorbs: nothing of a transfer goes to the media. -/
theorem witness_admitted_served :
    let s := full (withRegion 0 (region0 true true) ⟨.locked, .locked, false, 0⟩ running)
    ∃ x y : Segment, s.freeSlot = none ∧ s.scrub.phase ≠ .walking ∧ s.TagFree 0 ∧ s.RangeFits 65535 1
      ∧ s.plan .read (65535 + 1) 1 65535 = [x] ∧ x.disposition = .zero
      ∧ s.plan .write (65535 + 1) 1 65535 = [y] ∧ y.disposition = .absorb := by
  refine ⟨_, _, by decide, by decide, ?_, ?_, rfl, rfl, rfl, rfl⟩
  · unfold State.TagFree; decide
  · unfold State.RangeFits; decide

theorem witness_flush : (full running).startUp.portReady = true ∧ (full running).TagFree 63
    ∧ (full running).freeSlot = none ∧ (full running).scrub.phase ≠ .walking := by
  unfold State.TagFree; decide

theorem witness_plan_boundary : twoRegions.boundary = boundaryOf twoRegions.work.regions := by decide

/-- Segments of every owner stand in one plan: the shown window, region 0, region 1. -/
theorem witness_plan_owners :
    let s : State := { twoRegions with
      work := { twoRegions.work with window := ⟨true, 50, 10⟩ }, window := ⟨.shown, false⟩ }
    (s.plan .read (0 + 65536) 65536 0).map (fun x => (x.first, x.count, x.owner))
      = [(0, 50, some .window), (50, 50, some (.region 0)), (100, 100, some (.region 1)),
          (200, 65336, some (.region 0))] := by decide

theorem witness_plan_bounds : twoRegions.BoundsLaw ∧ twoRegions.RangeFits 0 65536 := by
  have other : ∀ r : RegionIx, r ≠ 0 → r ≠ 1 → twoRegions.work.regions[r].enabled = false := by decide
  have outside : ∀ (r : RegionIx) (p : Nat), r ≠ 0 → r ≠ 1 →
      twoRegions.work.regions[r].contains p = false := by
    intro r p h0 h1
    unfold RegionRecord.contains
    rw [other r h0 h1]
  refine ⟨⟨by decide, ?_, ?_⟩, by unfold State.RangeFits; decide⟩
  · intro r h0 h
    by_cases h1 : r = 1
    · subst h1
      exact ⟨⟨100, 100⟩, by decide⟩
    · rw [other r h0 h1] at h
      cases h
  · intro q r p hq hr hqr h
    by_cases h1 : q = 1
    · exact outside r p hr fun e => hqr (h1.trans e.symm)
    · rw [outside q p hq h1] at h
      cases h

/-! ### Hypotheses of the statements about the media port -/

/-- A part with one host segment waiting under tag 5, of the given kind and disposition; `listed` says
whether a scrub is listed. -/
def queued (kind : TransferKind) (d : Disposition) (listed : Bool) (acc : Nat) : State :=
  { running with
    work := { running.work with scrubList := if listed then [⟨1, 100⟩] else [] }
    transfers := [⟨5, kind, 8, 1, [⟨8, 1, some (.region 0), d, 1, 1, .waiting, .good⟩], 1, .good, 0, [[0]]⟩]
    port := { running.port with queue := [(5, 0)], acc := acc } }

/-- The oldest segment is granted slot 0, for every kind and disposition the statement names, and on both
sides of the accumulator's turn at 16 with the factory share of 4. -/
theorem witness_segment_issue : ∀ x ∈ ([(.read, .cipher, false, 0), (.write, .cipher, true, 11),
      (.discard, .cipher, true, 12), (.read, .image, true, 15), (.write, .imageWrite, false, 0),
      (.discard, .imageWrite, true, 0), (.flush, .plain, true, 12)] :
      List (TransferKind × Disposition × Bool × Nat)),
    let s := queued x.1 x.2.1 x.2.2.1 x.2.2.2
    s.nextGrant = .host 0 ∧ s.port.queue = [(5, 0)] ∧ s.work.scrubShare = 4
      ∧ ∃ t ∈ s.transfers, s.transfer 5 = some t ∧ t.kind = x.1
        ∧ ∃ g ∈ t.segments, t.segments[0]? = some g ∧ g.disposition = x.2.1 := by decide +kernel

/-- A part whose scrub engine offers a chunk. -/
def offering (credit : Nat) (s : State) : State :=
  { s with
    scrub := { s.scrub with phase := .walking, formed := [⟨⟨1, 100, 64, 2⟩, .offered⟩] }
    port := { s.port with credit := credit } }

theorem witness_chunk_issue : (offering 1 running).nextGrant = .credited 0 ⟨1, 100, 64, 2⟩
    ∧ (offering 0 running).nextGrant = .chunk 0 ⟨1, 100, 64, 2⟩ := by decide

/-- Each case of the arbiter: all slots BUSY; an offer with credit, even before a queued segment; a queued
segment where the credit is 0 or nothing is offered; the offer alone; nothing. -/
theorem witness_arbiter : (∀ i : SlotIx, (full running).port.slots[i].isSome = true)
    ∧ running.port.slots[(0 : SlotIx)] = none
    ∧ (offering 1 (queued .flush .plain false 0)).offer = some ⟨1, 100, 64, 2⟩
    ∧ (offering 0 (queued .flush .plain false 0)).port.queue ≠ []
    ∧ (queued .flush .plain false 0).offer = none
    ∧ (offering 0 running).port.queue = [] ∧ running.offer = none := by decide

/-- An accumulator at 15, a credit of 4, a share of 15. -/
theorem witness_arbiter_counts : ∃ p : MediaPort, (15 : Nat) ≤ 15 ∧ p.acc ≤ 15 ∧ p.credit ≤ 4
    ∧ p.acc = 15 ∧ p.credit = 4 :=
  ⟨{ running.port with acc := 15, credit := 4 }, by decide⟩

/-- A part with one media operation, number 9, in slot 3, for a segment of tag 5. -/
def atMedia (kind : MediaKind) (d : Disposition) (seconds : Nat) : State :=
  { running with
    transfers := [⟨5, .read, 8, 1, [⟨8, 1, some (.region 0), d, 1, 1, .atMedia, .good⟩], 1, .good, 0, []⟩]
    port := { running.port with slots :=
      (running.port.slots.set 3 (some (operation (.segment 5 0) kind seconds))) } }

theorem witness_media_ignored : { running with startUp := ⟨false, false, .running⟩ }.startUp.powerGood = false
    ∧ (∀ i : SlotIx, running.port.slots[i] = none)
    ∧ (atMedia .write .cipher 30).slotOf 9 = some 3
    ∧ (operation (.segment 5 0) .write 30).kind ≠ .read
    ∧ (operation (.segment 5 0) .read 30).range.elim 0 (·.length) ≤ (1 : BitVec 17).toNat := by decide

theorem witness_media_data : ∀ d ∈ [Disposition.cipher, Disposition.image],
    let s := atMedia .read d 30
    s.startUp.powerGood = true ∧ s.slotOf 9 = some 3
      ∧ s.port.slots[(3 : SlotIx)] = some (operation (.segment 5 0) .read 30)
      ∧ (∃ t ∈ s.transfers, s.transfer 5 = some t
          ∧ ∃ g ∈ t.segments, t.segments[0]? = some g ∧ g.disposition = d ∧ g.owner = some (.region 0))
      ∧ (0 : BitVec 17).toNat < 1 := by decide

theorem witness_segment_ends : let s := atMedia .read .cipher 1
    s.startUp.powerGood = true ∧ s.ResponseStill ∧ s.erases = [] ∧ s.startUp.phase ≠ .resuming
    ∧ s.work.scrubList = [] ∧ s.port.queue = [] ∧ s.offer = none ∧ s.StoreStill ∧ s.slotOf 9 = some 3
    ∧ s.port.slots[(3 : SlotIx)] = some (operation (.segment 5 0) .read 1)
    ∧ (operation (.segment 5 0) .read 1).seconds ≤ 1
    ∧ ∃ t ∈ s.transfers, s.transfer 5 = some t ∧ (t.segments[0]?).isSome = true := by
  unfold State.ResponseStill State.StoreStill; decide +kernel

theorem witness_merge : (⟨0, 1, none, .cipher, 1, 0, .atMedia, .good⟩ : Segment).first
    ≠ (⟨1, 1, none, .cipher, 1, 0, .atMedia, .good⟩ : Segment).first := by decide

theorem witness_link_reset : let s := atMedia .read .cipher 30
    s.ResponseStill ∧ s.erases = [] ∧ s.startUp.phase ≠ .resuming ∧ s.work.scrubList = []
    ∧ s.offer = none ∧ s.scrub.formed = [] ∧ s.StoreStill ∧ s.derivation = none := by
  unfold State.ResponseStill State.StoreStill; decide

/-! ### Hypotheses of the statements about time and tamper lines -/

theorem running_still : running.Still := by
  unfold State.Still State.ResponseStill State.MediaStill State.StoreStill; decide

/-- A second before the minute ends, a slot with two seconds left. -/
theorem witness_second_tick : let s : State :=
      { atMedia .read .cipher 2 with deadlines := { running.deadlines with seconds := 58 } }
    s.Still ∧ s.ticking = true ∧ s.deadlines.seconds < 59
    ∧ ∀ (i : SlotIx) (x : SlotRecord), s.port.slots[i] = some x → 1 < x.seconds := by
  refine ⟨?_, by decide, by decide, ?_⟩
  · unfold State.Still State.ResponseStill State.MediaStill State.StoreStill; decide
  · have h : ∀ i : SlotIx, (atMedia .read .cipher 2).port.slots[i].all (fun x => 1 < x.seconds) = true := by
      decide
    intro i x e
    have := h i
    rw [show (atMedia .read .cipher 2).port.slots[i] = some x from e] at this
    simpa using this

/-- The last second of a minute, thirteen of fifteen marks counted, back-offs at 1 and at 0. -/
theorem witness_counts_end : let s : State := { running with
      deadlines := { running.deadlines with seconds := 59, marks := 13 }
      credentials := running.credentials.set 1 ⟨false, 1⟩, revertBackoff := 1 }
    s.Still ∧ s.ticking = true ∧ 59 ≤ s.deadlines.seconds ∧ s.deadlines.marks + 1 < s.work.deadlines.q
    ∧ s.credentials[(1 : CredIx)].backoff ≤ 1 ∧ s.revertBackoff ≤ 1 := by
  refine ⟨?_, by decide⟩
  unfold State.Still State.ResponseStill State.MediaStill State.StoreStill; decide

/-- The mark that reaches Q, with a scrub unit at the head of the queue. -/
theorem witness_q_mark : let s : State := { running with
      deadlines := { running.deadlines with marks := 14 }
      store := ⟨[.checkpoint], none, true, []⟩ }
    s.Still ∧ s.responseFree = false ∧ s.ticking = true ∧ s.work.deadlines.q ≤ s.deadlines.marks + 1
    ∧ s.deadlines.chargeHeld = false ∧ s.holds .timeBase = false ∧ s.store.queue ≠ [] := by
  refine ⟨?_, by decide⟩
  unfold State.Still State.ResponseStill State.MediaStill State.StoreStill; decide

theorem witness_sample : running.Still ∧ running.responseFree = false
    ∧ running.startUp.phase = .running := ⟨running_still, by decide, by decide⟩

/-- Line 0 enabled, RISING, idle low; `run` samples at the given level. -/
def lineAt (armed level : Bool) (run : Nat) : State :=
  { running with
    work := { running.work with lines := running.work.lines.set 0 ⟨true, .rising, false, 2⟩ }
    tamper := { running.tamper with
      lines := running.tamper.lines.set 0 ⟨false, level, run⟩, armedA := armed } }

theorem witness_tamper_event : (lineAt true true 2).Still ∧ (lineAt true true 2).responseFree = false
    ∧ (lineAt true true 2).tamper.armed .a = true ∧ (lineAt true true 2).eventLines .a ≠ []
    ∧ (lineAt false false 2).tamper.armed .a = false ∧ (lineAt false false 2).atRest .a = true := by
  refine ⟨?_, by decide⟩
  unfold State.Still State.ResponseStill State.MediaStill State.StoreStill; decide

/-- The part in each time source. -/
def timed (x : TimeSource) : State := { running with time := ⟨x, 0, .nothing⟩ }

theorem witness_time_source : ∀ x ∈ [TimeSource.awaiting, TimeSource.slow, TimeSource.faulted],
    (timed x).ticking = true ∧ (timed x).time.source = x ∧ (timed x).responseFree = false
      ∧ (timed x).deadlines.seconds < 59 ∧ ∀ i : SlotIx, (timed x).port.slots[i] = none := by decide

theorem witness_time_source_still : (timed .slow).Still ∧ (timed .awaiting).Still ∧ (timed .faulted).Still := by
  unfold State.Still State.ResponseStill State.MediaStill State.StoreStill; decide

/-- Before step 2, with each thing seen of the crystal. -/
theorem witness_early_crystal : ∀ early ∈ [EarlyCrystal.nothing, .running, .late],
    let s : State := { State.reset with time := ⟨.awaiting, 0, early⟩ }
    s.startUp.phase = .reading ∧ s.time.early = early ∧ s.Still := by
  unfold State.Still State.ResponseStill State.MediaStill State.StoreStill; decide

/-! ### Hypotheses of the statements about draws, derivations and the store -/

def enabling : DefineRequest := ⟨0, 1, .enabling ⟨some ⟨100, 100⟩, .locked, .locked, false, false⟩⟩

theorem witness_draws :
    let salt : Draw := .salt ⟨0, 1, [7], 4, false⟩
    let s : State := { running with random := ⟨true, [salt], []⟩ }
    let u : State := { running with random := ⟨true, [.key 1 2 .enabling], []⟩, define := some enabling }
    (s.Still ∧ u.Still) ∧ s.offered = [] ∧ s.random.ready = true ∧ s.random.waiting = []
    ∧ s.random.queue = [salt]
    ∧ u.offered = [] ∧ u.random.ready = true ∧ u.random.waiting = []
    ∧ u.random.queue = [.key 1 2 .enabling] ∧ u.define = some enabling
    ∧ u.work.keys[(1 : RegionIx)].generation < 2 ∧ u.holds .management = false
    ∧ running.random.ready = false := by
  refine ⟨?_, by decide⟩
  unfold State.Still State.ResponseStill State.MediaStill State.StoreStill; decide

/-- Both outcomes of the comparison: a credential that holds the digest of its secret, and one that holds
another; a right secret also on the last attempt. -/
theorem witness_derivation (wrong : Digest) (h : Config.derive 0 4 [7] ≠ wrong) (a : Nat)
    (ha : a = 1 ∨ a = 5) :
    let d : Derivation := ⟨0, 4, [7], .present ⟨0, 1, 0, 0, false⟩ a⟩
    let s (v : Digest) : State := { running with
      work := { running.work with credentials := running.work.credentials.set 1 ⟨some ⟨0, v, 4⟩, a, 5, []⟩ }
      derivation := some d, management := ⟨.working, none, some 0, 1⟩ }
    (s (Config.derive 0 4 [7])).Still ∧ (s wrong).Still
    ∧ (∀ v, (s v).derivation = some d
        ∧ (s v).work.credentials[(1 : CredIx)].secret = some ⟨0, v, 4⟩
        ∧ (a = 1 ∧ a ≠ (s v).work.credentials[(1 : CredIx)].limit ∨ a = (s v).work.credentials[(1 : CredIx)].limit)
        ∧ (s v).holds .credential = false
        ∧ (s v).management.current = some 0)
    ∧ Config.derive d.salt d.cost d.secret ≠ wrong := by
  have still (v : Digest) : { running with
      work := { running.work with credentials := running.work.credentials.set 1 ⟨some ⟨0, v, 4⟩, a, 5, []⟩ }
      derivation := some ⟨0, 4, [7], .present ⟨0, 1, 0, 0, false⟩ a⟩
      management := ⟨.working, none, some 0, 1⟩ }.Still :=
    running_still
  refine ⟨still _, still _, fun v => ⟨rfl, rfl, ?_, rfl, rfl⟩, h⟩
  rcases ha with rfl | rfl
  · exact .inl ⟨rfl, (by decide : 1 ≠ 5)⟩
  · exact .inr rfl

theorem witness_conversion : let s : State := { running with holdup := ⟨true, 0, 0, false, false⟩ }
    s.holdup.converting = true ∧ s.store.headWaiting = false ∧ s.startUp.powerGood = true := by decide

/-- At the factory threshold of 160 (2.0625 V) and one code below it, with six and with seven low codes. -/
theorem witness_gate : ∀ low ∈ [0, 6], let s := waiting .deadlineCharge low running
    s.holdup.converting = true ∧ s.store.headWaiting = true ∧ s.startUp.powerGood = true
    ∧ s.store.queue = [.deadlineCharge] ∧ s.holdup.lowCount < 7
    ∧ s.work.holdup.threshold ≤ min 255 ((512 * 2056054688 + 3300000000) / 6600000000)
    ∧ min 255 ((512 * 2056054687 + 3300000000) / 6600000000) < s.work.holdup.threshold := by decide

theorem witness_unsafe : let s := waiting (.scrubShare 0 4) 7 running
    s.Calm ∧ s.holdup.converting = true ∧ s.store.headWaiting = true ∧ s.startUp.powerGood = true
    ∧ s.store.queue = [.scrubShare 0 4] ∧ s.store.deferred = [] ∧ s.holdup.lowCount = 7
    ∧ s.holdup.episodeLow = true ∧ s.management.current = some 0 := by
  refine ⟨?_, by decide⟩
  unfold State.Calm State.ResponseStill; decide

theorem witness_deferred : let s : State := { running with
      store := ⟨[.checkpoint], none, true, [.responseEnd]⟩ }
    s.Still ∧ s.holds CommitUnit.responseEnd.requester = false ∧ s.store.deferred = [.responseEnd] := by
  refine ⟨?_, by decide⟩
  unfold State.Still State.ResponseStill State.MediaStill State.StoreStill; decide

/-- A charge that waits inside the credential engine and meets checks 4 and 5 as it enters: chargeable, at its
limit, backing off; and a requester that holds a unit still. -/
theorem witness_deferred_charge :
    let held (counter backoff : Nat) (q : List CommitUnit) : State := { withCredential 1 counter running with
      credentials := running.credentials.set 1 ⟨false, backoff⟩
      store := ⟨q, none, true, [.charge ⟨0, 1, 0, 0, false⟩ [7], .deadlineCharge]⟩
      management := ⟨.working, none, some 0, 1⟩ }
    (∀ x ∈ ([(4, 0), (5, 0), (4, 64)] : List (Nat × Nat)), let s := held x.1 x.2 [.checkpoint]
      s.Still ∧ s.holds .credential = false
      ∧ s.store.deferred = .charge ⟨0, 1, 0, 0, false⟩ [7] :: [.deadlineCharge]
      ∧ s.management.current = some 0 ∧ CommitUnit.deadlineCharge.requester ≠ .credential
      ∧ s.credentials[(1 : CredIx)].backoff = x.2 ∧ s.work.credentials[(1 : CredIx)].counter = x.1
      ∧ s.work.credentials[(1 : CredIx)].limit = 5)
    ∧ (held 4 0 [.refund ⟨9, 1, 0, 0, false⟩]).Still
    ∧ (held 4 0 [.refund ⟨9, 1, 0, 0, false⟩]).holds .credential = true := by
  unfold State.Still State.ResponseStill State.MediaStill State.StoreStill
  decide +kernel

/-- The charge of a detached PRESENT is done while another one waits behind it: of the same credential, which
then backs off, of one at its limit, and of one that may be charged. -/
theorem witness_charge_behind : ∀ x ∈ ([(1, 0), (2, 5), (2, 4)] : List (CredIx × Nat)),
    let ahead : PresentRequest := ⟨7, 1, 0, 0, false⟩
    let p : PresentRequest := ⟨0, x.1, 0, 0, false⟩
    let image : Records := { running.stored with
      credentials := running.stored.credentials.set 1 ⟨some secretOf, 4, 5, []⟩ }
    let s : State := { withCredential 2 x.2 running with
      store := ⟨[.charge ahead [7]], some image, false, [.charge p [8]]⟩
      management := ⟨.working, none, some 0, 1⟩ }
    s.Calm ∧ s.store.writing = some image ∧ s.management.current = some p.id ∧ ahead.id ≠ p.id
    ∧ 0 < image.credentials[(1 : CredIx)].counter
    ∧ image.credentials[(1 : CredIx)].counter < image.credentials[(1 : CredIx)].limit := by
  unfold State.Calm State.ResponseStill
  decide +kernel

theorem witness_present_units :
    let p : PresentRequest := ⟨0, 1, 0, 0, false⟩
    let s := withCredential 1 1 (writing (.charge p [7]) running)
    let u := withCredential 1 1 (writing (.refund p) (inMode .lockdown))
    (s.Calm ∧ u.Calm)
    ∧ s.store.deferred = [] ∧ s.store.writing = some s.stored ∧ s.management.current = some 0
    ∧ s.store.queue = [.charge p [7]]
    ∧ u.store.queue = [.refund p] ∧ u.work.mode = .lockdown ∧ p.credential ≠ 0 := by
  refine ⟨?_, by decide +kernel⟩
  unfold State.Calm State.ResponseStill; decide

/-- A stored image in which credential 1 is present, as the charge answered done finds it. -/
theorem witness_charge_image : ∃ image : Records,
    image.credentials[(1 : CredIx)].secret = some secretOf :=
  ⟨(withCredential 1 1 running).work, by decide⟩

theorem witness_off_gate : let s : State := { withCredential 1 4 running with
      work := { (withCredential 1 4 running).work with holdup := ⟨.off, 160, .us24⟩ }
      store := ⟨[.charge ⟨0, 1, 0, 0, false⟩ [7]], none, true, []⟩ }
    s.store.queue = [.charge ⟨0, 1, 0, 0, false⟩ [7]] ∧ s.store.writing = none
    ∧ s.startUp.powerGood = true ∧ s.work.holdup.gate = .off
    ∧ s.work.credentials[(1 : CredIx)].counter < s.work.credentials[(1 : CredIx)].limit := by decide

/-- The hypotheses on the part that the statements of units answered done share, for any unit. -/
theorem witness_unit_done (u : CommitUnit) : let s := writing u running
    s.Calm ∧ s.store.queue = [u] ∧ s.store.deferred = [] ∧ s.store.writing = some s.stored
    ∧ s.management.current = some 0 := by
  refine ⟨?_, rfl, rfl, rfl, rfl⟩
  have : running.Calm := by unfold State.Calm State.ResponseStill; decide
  exact this

/-! ### Hypotheses of the statements about responses, erasure and scrub -/

theorem witness_key_destroyed : let s : State := { running with erases := [⟨0, .response, true, .begun⟩] }
    s.ResponseStill ∧ s.startUp.phase ≠ .resuming ∧ s.walkDue = false ∧ s.MediaStill ∧ s.StoreStill
    ∧ s.scrubHead ≠ some 0 ∧ s.erases = [⟨0, .response, true, .begun⟩]
    ∧ s.regions[(0 : RegionIx)].admitted = 0 ∧ s.keys[(0 : RegionIx)].highestDrawn ≠ lastGeneration
    ∧ s.random.queue = [] := by
  unfold State.ResponseStill State.MediaStill State.StoreStill; decide

/-- A trigger at each level, and an erase order at each of its levels. -/
theorem witness_response_take :
    ∀ e ∈ [trigger .alert, trigger .relock, trigger .erase, trigger .scrub,
      ⟨srcOrder, .erase, .high, 1, 0⟩, ⟨srcOrder, .scrub, .high, 1, 0⟩],
    let s : State := { free running with
      response := { (free running).response with triggers := [e] }
      store := ⟨[.checkpoint], none, true, []⟩ }
    s.responseFree = true ∧ s.response.triggers = [e] ∧ s.erases = []
    ∧ s.startUp.phase = .running ∧ s.work.scrubList = [] ∧ s.nextGrant = .nothing
    ∧ (s.store.queue = [] ∨ s.store.writing.isSome = true ∨ s.store.headWaiting = true
        ∨ s.startUp.powerGood = false)
    ∧ s.store.queue ≠ [] ∧ s.holds .response = false
    ∧ (e.source ≠ srcOrder ∨ Level.relock.rank ≤ e.level.rank) := by decide

/-- Several entries to take from: a HIGH one with the highest source among LOW ones, and one of the lowest source
among three HIGH. -/
theorem witness_competing_triggers :
    let e (n : SourceIx) (v : Severity) : PendingTrigger := ⟨n, .erase, v, 0, 2⟩
    let first (x : PendingTrigger) (others : List PendingTrigger) : Prop := ∀ y ∈ others, y.source ≠ x.source
      ∧ (x.severity = .high ∧ y.severity = .low ∨ x.severity = y.severity ∧ x.source < y.source)
    first (e 8 .high) [e 1 .low, e 0 .low] ∧ first (e 2 .high) [e 7 .high, e 3 .high, e 1 .low]
    ∧ first (e 0 .low) [e 8 .low] := by decide

theorem witness_response_ends : let s : State := { writing .responseEnd (free running) with
      response := { (free running).response with running := some response } }
    s.response.running = some response ∧ s.response.triggers = [] ∧ s.erases = []
    ∧ s.startUp.phase ≠ .resuming ∧ s.work.scrubList = [] ∧ s.nextGrant = .nothing
    ∧ s.store.queue = [.responseEnd] ∧ s.store.deferred = [] ∧ s.store.writing = some s.stored := by
  decide +kernel

/-- Region 1 at the head of the scrub list, with key material to load. -/
theorem witness_walk : let s : State := { twoRegions with
      work := { twoRegions.work with
        scrubList := [⟨1, 100⟩]
        regions := twoRegions.work.regions.set 1 { region1 with condition := .scrubQueued }
        keys := twoRegions.work.keys.set 1 ⟨2, some ⟨3, 0⟩⟩ }
      scrub := { twoRegions.scrub with issue := some 100 }
      port := (full twoRegions).port }
    (s.ResponseStill ∧ s.StoreStill) ∧ s.erases = [] ∧ s.walkDue = true ∧ s.scrubHead = some 1
    ∧ s.scrub.formed = [] ∧ s.scrub.issue = some 100 ∧ s.nextChunk 1 100 = some (100, 164)
    ∧ (s.loadKey 1).keys[(1 : RegionIx)].loaded.isSome = true ∧ s.freeSlot = none := by
  refine ⟨?_, by decide +kernel⟩
  unfold State.ResponseStill State.StoreStill; decide

/-! ### Hypotheses of the statements about the management channel -/

theorem witness_message : ∃ m : List Byte, (Instr.setLabel (List.replicate 64 1)).wellFormed = true
    ∧ writeMessage (.setLabel (List.replicate 64 1)) = some m := ⟨_, by decide, rfl⟩

theorem witness_manage_send : running.startUp.portReady = true ∧ running.TagFree 63
    ∧ running.management.slot ≠ .working
    ∧ { running with management := ⟨.working, none, some 0, 1⟩ }.management.slot = .working
    ∧ ([1, 2, 3] : List Byte).length < 4 ∧ 1028 < (List.replicate 1029 (0 : Byte)).length
    ∧ readMessage [1, 0, 1, 0] = none ∧ writeMessage .statusQuery = some [1, 0, 0, 0]
    ∧ Instr.statusQuery.wellFormed = true := by
  refine ⟨by decide, ?_, by decide, rfl, by decide, ?_, by decide, by decide, rfl⟩
  · unfold State.TagFree; decide
  · rw [List.length_replicate]; decide

theorem witness_manage_fetch : (running.startUp.portReady = true ∧ running.TagFree 0)
    ∧ running.management.slot = .idle
    ∧ { running with management := ⟨.working, none, some 0, 1⟩ }.management.slot = .working
    ∧ (let s := { running with management := ⟨.replyReady, some ⟨1, .done, [0]⟩, none, 1⟩ }
       s.management.slot = .replyReady ∧ s.management.buffer = some ⟨1, .done, [0]⟩) := by
  refine ⟨⟨by decide, ?_⟩, by decide⟩
  unfold State.TagFree; decide

theorem running_takes : running.TakesAdministrator := by
  unfold State.TakesAdministrator State.TakesRequests; decide

/-- The states in which a request waits, is discarded, or is refused. -/
theorem witness_requests_refused : (kindCode .beginLoad = some 0x14 ∧ Instr.beginLoad.wellFormed = true)
    ∧ State.reset.startUp.portReady = false
    ∧ { running with management := ⟨.working, none, some 0, 1⟩ }.management.slot = .working
    ∧ { running with reverting := true }.reverting = true
    ∧ (inMode .armed).TakesRequests ∧ (inMode .armed).administrator = false
    ∧ kindCode (.setSecret 1 4 [7]) = some 0x04 ∧ kindCode .retireWindow = some 0x17
    ∧ (∀ c : CredIx, (inMode .armed).credentials[c].presented = false)
    ∧ (let s := { inMode .armed with credentials := running.credentials.set 2 ⟨true, 0⟩ }
       s.TakesRequests ∧ s.administrator = false ∧ s.anyPresented = true
       ∧ (∀ c : CredIx, c.val = (1 : BitVec 8).toNat → s.credentials[c].presented = false)
       ∧ ∀ c : CredIx, c.val ≠ (8 : BitVec 8).toNat) := by
  unfold State.TakesRequests
  decide

/-- With no flag set and with one, outside and during a revert operation. -/
theorem witness_status : ∀ reverting ∈ [false, true],
    let s : State := { running with reverting := reverting }
    s.startUp.portReady = true ∧ s.management.slot ≠ .working ∧ s.reverting = reverting
    ∧ s.anyPresented = false
    ∧ { s with credentials := running.credentials.set 1 ⟨true, 0⟩ }.anyPresented = true := by decide

theorem witness_requests_at_once : running.TakesAdministrator ∧ running.window = ⟨.off, false⟩
    ∧ { running with window := ⟨.shown, true⟩ }.window.changePending = true
    ∧ ∀ x ∈ [WindowState.shown, WindowState.retired, WindowState.loading],
        let s := { running with window := ⟨x, false⟩, credentials := running.credentials.set 1 ⟨true, 0⟩ }
        (s.TakesAdministrator ∧ s.window.state = x)
          ∧ s.window.state ≠ .off ∧ s.window.changePending = false ∧ s.anyPresented = true := by
  refine ⟨running_takes, by decide, rfl, fun x hx => ⟨⟨running_takes, rfl⟩, ?_⟩⟩
  revert x
  decide

/-- Settings at the ends of their ranges. -/
theorem witness_settings : running.TakesAdministrator ∧ running.holds .management = false
    ∧ running.window.changePending = false ∧ running.window.state ≠ .loading
    ∧ ({ running with window := ⟨.loading, false⟩ }.TakesAdministrator
      ∧ { running with window := ⟨.loading, false⟩ }.window.state = .loading)
    ∧ (65536 : BitVec 32).toNat ≤ min 65536 running.geometry.capacity
    ∧ running.deadlines.changePending = false ∧ (254 : BitVec 8).toNat ≤ 254
    ∧ running.work.deviceRatchets.fixedDeadlines = false ∧ running.response.changePending = false
    ∧ running.work.deviceRatchets.fixedResponses = false ∧ running.tamper.changePending = false
    ∧ running.work.deviceRatchets.fixedTamper = false ∧ running.holdup.changePending = false
    ∧ (8 : BitVec 8).toNat = (8 : SourceIx).val ∧ levelByte .scrub = 4 ∧ severityByte .high = 1
    ∧ (3 : BitVec 8).toNat = (3 : LineIx).val ∧ polarityByte .both = 2 ∧ gateByte .continuous = 2
    ∧ conversionByte .us96 = 3 :=
  ⟨running_takes, by decide, by decide, by decide, ⟨running_takes, rfl⟩, by decide⟩

/-- Each change pending, and operands one past the ends of their ranges. -/
theorem witness_settings_refused : let s : State := { running with
      window := ⟨.shown, true⟩, tamper := { running.tamper with changePending := true }
      deadlines := { running.deadlines with changePending := true }
      response := { running.response with changePending := true }
      holdup := { running.holdup with changePending := true } }
    s.TakesAdministrator ∧ s.window.changePending = true ∧ s.tamper.changePending = true
    ∧ s.deadlines.changePending = true ∧ s.response.changePending = true ∧ s.holdup.changePending = true
    ∧ running.window.state ≠ .loading ∧ running.window.changePending = false
    ∧ min 65536 running.geometry.capacity < (65537 : BitVec 32).toNat
    ∧ 64 < (List.replicate 65 (1 : Byte)).length ∧ 3 < (4 : BitVec 8).toNat ∧ 2 < (3 : BitVec 8).toNat
    ∧ 254 < (255 : BitVec 8).toNat ∧ 8 < (9 : BitVec 8).toNat ∧ 4 < (5 : BitVec 8).toNat
    ∧ 1 < (2 : BitVec 8).toNat := by
  refine ⟨?_, by decide⟩
  unfold State.TakesAdministrator State.TakesRequests
  decide

/-- Every device ratchet set, deadlines on, line 0 enabled. -/
theorem witness_device_ratchets : let s : State := { lineAt false false 0 with
      work := { (lineAt false false 0).work with
        deviceRatchets := ⟨true, true, true⟩, deadlines := ⟨0, 0, 15, 60, 10⟩ } }
    s.TakesAdministrator ∧ s.deadlines.changePending = false
    ∧ s.work.deviceRatchets.fixedDeadlines = true ∧ s.work.deadlines.dp ≠ 0
    ∧ s.work.deadlines.dp < max 30 (61 : BitVec 16).toNat ∧ s.work.deadlines.dn < (11 : BitVec 8).toNat
    ∧ s.work.deadlines.q < max 5 (min 60 (16 : BitVec 8).toNat)
    ∧ Level.none.rank < (s.entryOf 8).level.rank ∧ (s.entryOf 1).severity = .high
    ∧ s.work.lines[(0 : LineIx)].enabled = true ∧ Polarity.falling ≠ s.work.lines[(0 : LineIx)].polarity
    ∧ s.work.lines[(0 : LineIx)].debounce < max 2 (3 : BitVec 8).toNat := by
  refine ⟨?_, by decide⟩
  unfold State.TakesAdministrator State.TakesRequests; decide

/-- The states of R82's checks in turn: absent, present in LOCKDOWN, exhausted, backing off, chargeable. -/
theorem witness_present : (running.TakesRequests ∧ ∀ n, (withCredential 1 n running).TakesRequests
      ∧ (withCredential 1 n (inMode .lockdown)).TakesRequests)
    ∧ running.work.credentials[(1 : CredIx)].secret = none
    ∧ (withCredential 1 4 running).work.credentials[(1 : CredIx)].secret.isSome = true
    ∧ (withCredential 1 4 (inMode .lockdown)).work.mode = .lockdown
    ∧ (withCredential 1 5 running).work.credentials[(1 : CredIx)].counter
        = (withCredential 1 5 running).work.credentials[(1 : CredIx)].limit
    ∧ (withCredential 1 4 running).work.credentials[(1 : CredIx)].counter
        ≠ (withCredential 1 4 running).work.credentials[(1 : CredIx)].limit
    ∧ 0 < { withCredential 1 4 running with
        credentials := running.credentials.set 1 ⟨false, 64⟩ }.credentials[(1 : CredIx)].backoff
    ∧ running.credentials[(1 : CredIx)].backoff = 0 ∧ running.holds .credential = false
    ∧ ([7] : List Byte).length ≤ 64 ∧ 7 < (8 : BitVec 8).toNat
    ∧ 64 < (List.replicate 65 (7 : Byte)).length := by
  have lockdown : (inMode .lockdown).TakesRequests := by unfold State.TakesRequests; decide
  exact ⟨⟨running_takes.1, fun _ => ⟨running_takes.1, lockdown⟩⟩, by decide⟩

/-- A PRESENT whose charge waits behind another unit of the credential engine. -/
theorem witness_present_waits : let s : State := { withCredential 1 4 running with
      store := ⟨[.refund ⟨9, 1, 0, 0, false⟩], none, true, []⟩ }
    s.TakesRequests ∧ s.StoreStill ∧ s.holds .credential = true
    ∧ s.work.credentials[(1 : CredIx)].counter ≠ s.work.credentials[(1 : CredIx)].limit
    ∧ s.credentials[(1 : CredIx)].backoff = 0 := by
  unfold State.TakesRequests State.StoreStill
  decide +kernel

theorem witness_credential_requests : let s := withCredential 1 4 running
    s.TakesAdministrator ∧ s.random.queue = [] ∧ s.work.credentials[(1 : CredIx)].secret.isSome = true
    ∧ s.holds .management = false ∧ s.work.credentials[(1 : CredIx)].grants = []
    ∧ s.work.regions[(0 : RegionIx)].enabled = true
    ∧ s.work.regions[(0 : RegionIx)].ratchets.fixedGrants = false
    ∧ GrantRights.both ≠ grantFor 0 s.work.credentials[(1 : CredIx)].grants
    ∧ (List.replicate 32 (0 : Byte)).length = 32 ∧ s.define = none ∧ s.response.running = none
    ∧ s.revertBackoff = 0 ∧ s.holds .credential = false := by
  refine ⟨?_, by decide⟩
  unfold State.TakesAdministrator State.TakesRequests; decide

/-- Region 1 enabled on 100 to 199 and region 2 not: bounds that end at 65,536 or begin at 65,537, that
meet LBA 199, and that begin at 200. -/
theorem witness_regions : let s := twoRegions
    s.TakesAdministrator ∧ s.define = none ∧ s.response.running = none ∧ s.work.scrubList = []
    ∧ s.geometry.capacity < (65536 : BitVec 48).toNat + (1 : BitVec 48).toNat
    ∧ (∃ x ∈ s.work.regions[(1 : RegionIx)].extent, (199 : BitVec 48).toNat < x.start + x.length
        ∧ x.start < (199 : BitVec 48).toNat + (1 : BitVec 48).toNat)
    ∧ (∀ q : RegionIx, ∀ x ∈ s.work.regions[q].extent, x.start + x.length ≤ (200 : BitVec 48).toNat)
    ∧ s.work.regions[(1 : RegionIx)].enabled = true ∧ s.work.regions[(2 : RegionIx)].enabled = false
    ∧ s.work.regions[(2 : RegionIx)].ratchets = ⟨false, false, false, false⟩
    ∧ s.keys[(2 : RegionIx)].highestDrawn ≠ lastGeneration ∧ s.random.queue = []
    ∧ s.holds .management = false ∧ (2 : BitVec 16).getLsbD 0 = false
    ∧ (∀ q : RegionIx, (2 : BitVec 16).getLsbD q.val = true → s.work.regions[q].enabled = true)
    ∧ s.work.regions[(1 : RegionIx)].ratchets.union ⟨true, false, false, false⟩
        ≠ s.work.regions[(1 : RegionIx)].ratchets := by
  refine ⟨?_, by decide⟩
  unfold State.TakesAdministrator State.TakesRequests; decide

theorem witness_erase_order : running.TakesAdministrator ∧ running.Still ∧ running.responseFree = false
    ∧ (∀ r : RegionIx, (1 : BitVec 16).getLsbD r.val = true → running.work.regions[r].enabled = true)
    ∧ (2 : BitVec 16).getLsbD (1 : RegionIx).val = true
    ∧ running.work.regions[(1 : RegionIx)].enabled = false :=
  ⟨running_takes, running_still, by decide⟩

/-! ### Hypotheses of the further clauses: admission, samples, credentials

That key material loads is shown as `unwrapped` giving a key, which Laws/Status proves to be the same. -/

/-- Region 1 enabled in both copies: the law of the bounds with what keeps it. -/
theorem witness_region_law : ∃ s : State, s.RegionLaw ∧ s.work.regions[(1 : RegionIx)].enabled = true
    ∧ ∃ t, step s = .next t := by
  refine ⟨{ twoRegions with stored := twoRegions.work, pending := [.lock 1 1 0] },
    ⟨witness_plan_bounds.1, fun _ _ => ⟨rfl, rfl⟩, ⟨?_, ?_, ?_, ?_⟩, ?_⟩, by decide, _, rfl⟩
  · intro d f h
    cases h
  · decide
  · intro d h
    cases h
  · intro r g h
    cases h
  · intro image h
    cases h

/-- A read of two segments of which the second has failed, and one of which none has ended. -/
theorem witness_merged : ∃ t : Transfer, t.MergedRight ∧ t.merged ≠ .good
    ∧ (∃ x ∈ t.segments, t.segments[0]? = some x ∧ x.state ≠ .done)
    ∧ (let s := atMedia .read .cipher 1
       ∃ u ∈ s.transfers, s.transfer 5 = some u ∧ u.MergedRight ∧ u.kind = .read ∧ u.outstanding ≤ 1
         ∧ ∃ g ∈ u.segments, u.segments[0]? = some g ∧ g.state ≠ .done) := by
  refine ⟨⟨5, .read, 0, 2, [⟨0, 1, none, .cipher, 1, 0, .atMedia, .good⟩,
    ⟨1, 1, none, .image, 1, 0, .done, .mediaTimeout⟩], 1, .mediaTimeout, 1, []⟩, ?_, by decide, by decide, ?_⟩
  · unfold Transfer.MergedRight; decide
  · unfold Transfer.MergedRight; decide

/-- The one block of a WRITE segment stands in the transfer's data. -/
theorem witness_segment_data : ∀ d ∈ [Disposition.cipher, Disposition.imageWrite],
    ∃ t ∈ (queued .write d false 0).transfers, ∃ x ∈ t.segments, x.disposition = d
      ∧ x.owner = some (.region 0) ∧ 0 < x.count ∧ t.data[x.first - t.start + 0]? = some [0] := by
  decide +kernel

/-- Step 5 with line 0 enabled, RISING and idle low, at idle and, its source at level NONE, away from it. -/
theorem witness_first_sample :
    let s (level : Level) : State := { lineAt false false 0 with
      startUp := ⟨true, false, .sampling⟩
      work := { (lineAt false false 0).work with
        responseTable := running.work.responseTable.set 2 ⟨level, .low⟩ } }
    let away (level : Level) (levels : BitVec 4) (n : LineIx) : Bool :=
      (s level).work.lines[n].enabled && levels.getLsbD n.val != (s level).work.lines[n].idle
    ∀ x ∈ ([(.none, 1), (.alert, 0)] : List (Level × BitVec 4)),
      ((s x.1).startUp = ⟨true, false, .sampling⟩ ∧ (s x.1).work.inProgress = none
        ∧ (s x.1).response.triggers = [] ∧ (s x.1).response.running = none
        ∧ (s x.1).response.answerDue = false ∧ (s x.1).reverting = false ∧ (s x.1).erases = []
        ∧ (s x.1).work.scrubList = [] ∧ (s x.1).nextGrant = .nothing ∧ (s x.1).offered = []
        ∧ (s x.1).store.queue = [] ∧ ∀ r : RegionIx, (s x.1).keys[r].loaded = none)
      ∧ (∀ n : LineIx, away x.1 x.2 n = true →
          ((s x.1).entryOf (groupSource (groupOf n))).level = .none)
      ∧ (away x.1 x.2 0 = decide (x.2 = 1)) ∧ ∀ n : LineIx, n ≠ 0 → away x.1 x.2 n = false := by
  decide +kernel

/-- A PRESENT's derivation whose charge reached the limit of 5, while a response runs, and a SET-SECRET's. -/
theorem witness_derivation_ends (wrong : Digest) (h : Config.derive 0 4 [7] ≠ wrong) :
    let d : Derivation := ⟨0, 4, [7], .present ⟨0, 1, 0, 0, false⟩ 5⟩
    let q : SecretRequest := ⟨0, 1, [7], 4, false⟩
    let s : State := { running with
      work := { running.work with
        credentials := running.work.credentials.set 1 ⟨some ⟨0, wrong, 4⟩, 5, 5, []⟩ }
      derivation := some d, management := ⟨.working, none, some 0, 1⟩ }
    let u : State := { running with derivation := some ⟨0, 4, [7], .secret q⟩ }
    (s.Still ∧ u.Still) ∧ s.responseFree = false ∧ s.derivation = some d
    ∧ s.work.credentials[(1 : CredIx)].secret = some ⟨0, wrong, 4⟩
    ∧ 5 = s.work.credentials[(1 : CredIx)].limit ∧ s.management.current = some 0
    ∧ Config.derive d.salt d.cost d.secret ≠ wrong
    ∧ u.derivation = some ⟨0, 4, [7], .secret q⟩ ∧ u.holds .management = false :=
  ⟨⟨running_still, running_still⟩, rfl, rfl, rfl, rfl, rfl, h, rfl, rfl⟩

/-- Refunds that open: credential 0 in LOCKDOWN, and a user in ARMED whose grants reach region 0. -/
theorem witness_refund_opens : ∀ x ∈ ([(0, .lockdown), (1, .armed)] : List (CredIx × Mode)),
    let p : PresentRequest := ⟨0, x.1, 1, 1, true⟩
    let s := writing (.refund p) { inMode x.2 with window := ⟨.shown, false⟩ }
    let image : Records := { s.stored with
      credentials := s.stored.credentials.set x.1 ⟨some secretOf, 0, 5, [⟨0, .both⟩]⟩ }
    let s' := { s with store := ⟨[.refund p], some image, false, []⟩ }
    (s'.Calm ∧ s'.Writes (.refund p) image) ∧ s'.management.current = some p.id
    ∧ image.credentials[p.credential].counter = 0 ∧ (p.credential = 0 ∨ s'.work.mode ≠ .lockdown)
    ∧ s'.work.regions[(0 : RegionIx)].enabled = true ∧ s'.work.regions[(0 : RegionIx)].condition = .normal
    ∧ s'.regions[(0 : RegionIx)].eraseHold = false ∧ (s'.unwrapped 0).isSome = true := by
  unfold State.Calm State.ResponseStill State.Writes
  decide +kernel

/-- Any unit whose write runs with the stored records, for the request with the slot. -/
theorem witness_writes (u : CommitUnit) : (writing u running).Calm
    ∧ (writing u running).Writes u (writing u running).stored
    ∧ (writing u running).management.current = some 0 := by
  have h : running.Calm := by unfold State.Calm State.ResponseStill; decide
  exact ⟨h, ⟨rfl, rfl, rfl⟩, rfl⟩

/-- The two codes of a revert charge; the revert unit done, with nothing listed, and at its eighth low code
with the crypto-erase of region 0 complete. -/
theorem witness_revert : ([1] : List Byte) ≠ running.fuses.revertCode
    ∧ (let s := writing (.revert 0 false) running
       s.startUp.phase ≠ .resuming ∧ s.nextGrant = .nothing ∧ s.Writes (.revert 0 false) s.stored
       ∧ s.management.current = some 0 ∧ s.stored.scrubList = [])
    ∧ (let s : State := { waiting (.revert 0 false) 7 running with
         reverting := true, revertRequest := some (0, false)
         erases := [⟨0, .revert, false, .committing⟩] }
       s.startUp.phase ≠ .resuming ∧ s.nextGrant = .nothing ∧ s.work.scrubList = []
       ∧ s.response.triggers = [] ∧ (∀ e ∈ s.erases, e.party = .revert)
       ∧ s.MeetsEighthLow (.revert 0 false) 0 ∧ s.management.current = some 0) := by
  unfold State.Writes State.MeetsEighthLow
  decide +kernel

/-! ### Hypotheses of the further clauses: erasure and responses -/

/-- The draw of a response's crypto-erase, one generation above the working one, and its unit written with
nothing listed. -/
theorem witness_key_drawn :
    let s : State := { running with
      random := ⟨true, [.key 0 2 (.erase .response)], []⟩, erases := [⟨0, .response, true, .destroyed 2⟩] }
    let u : State := { running with erases := [⟨0, .response, true, .committing⟩] }
    s.Still ∧ s.offered = [] ∧ s.random.ready = true ∧ s.random.waiting = []
    ∧ s.random.queue = [.key 0 2 (.erase .response)] ∧ s.erases = [⟨0, .response, true, .destroyed 2⟩]
    ∧ s.work.keys[(0 : RegionIx)].generation < 2 ∧ s.holds .response = false
    ∧ u.erases = [⟨0, .response, true, .committing⟩]
    ∧ ∀ e ∈ u.work.scrubList ++ u.stored.scrubList, e.region ≠ 0 := by
  unfold State.Still State.ResponseStill State.MediaStill State.StoreStill
  decide +kernel

/-- A revert's and a response's crypto-erase of region 0 that wait for the same drain. -/
def erasedTwice : State := { running with
  erases := [⟨0, .revert, false, .begun⟩, ⟨0, .response, false, .begun⟩], reverting := true }

theorem witness_destroyed_together : erasedTwice.ResponseStill ∧ erasedTwice.startUp.phase ≠ .resuming
    ∧ erasedTwice.regions[(0 : RegionIx)].admitted = 0 ∧ erasedTwice.scrub.commitHeld ≠ .finish
    ∧ ∃ e ∈ erasedTwice.erases, e.region = 0 ∧ e.stage = .begun := by
  unfold State.ResponseStill
  decide +kernel

/-- A draw left behind by an erase that a REVERT has ended, beside a later erase that awaits another one. -/
theorem witness_draw_discarded : let s : State := { running with
      random := ⟨true, [.key 0 2 (.erase .response)], []⟩, erases := [⟨0, .response, false, .destroyed 3⟩] }
    s.Still ∧ s.offered = [] ∧ s.random.ready = true ∧ s.random.waiting = []
    ∧ s.random.queue = [.key 0 2 (.erase .response)]
    ∧ ∀ e ∈ s.erases, e.region = 0 → e.party = .response → e.stage ≠ .destroyed 2 := by
  unfold State.Still State.ResponseStill State.MediaStill State.StoreStill
  decide +kernel

/-- The revert unit written, with units of the running response behind it. -/
theorem witness_revert_behind : let base := writing (.revert 0 false) running
    let s : State := { base with
      store := { base.store with queue := [.revert 0 false, .responseEnd], deferred := [.countReset] } }
    s.startUp.phase ≠ .resuming ∧ s.store.queue = .revert 0 false :: [.responseEnd]
    ∧ s.store.writing = some s.stored := by
  decide +kernel

/-- The last crypto-erase of a response, its unit written. -/
theorem witness_key_done :
    let R : RunningResponse := { response with erased := 0, current := some 0, phase := .erasing }
    let s : State := { writing (.keyDestruction 0) (free running) with
      erases := [⟨0, .response, false, .committing⟩]
      response := { (free running).response with running := some R } }
    s.startUp.phase ≠ .resuming ∧ s.nextGrant = .nothing ∧ s.work.scrubList = [] ∧ s.response.triggers = []
    ∧ s.response.countResetDue = false ∧ s.erases = [⟨0, .response, false, .committing⟩]
    ∧ s.response.running = some R ∧ R.mask &&& ~~~(R.erased ||| bit 0) = 0
    ∧ s.Writes (.keyDestruction 0) s.stored := by
  unfold State.Writes
  decide +kernel

/-- The response-begin unit written: at RELOCK, at ERASE with region 0 to erase and undrained, at ERASE with
all erased, and with a HIGH trigger above its level. -/
theorem witness_begin_done :
    let s (R : RunningResponse) (triggers : List PendingTrigger) : State :=
      { writing .responseBegin (free running) with
        response := { (free running).response with running := some R, triggers := triggers }
        regions := running.regions.set 0 ⟨.locked, .locked, false, 1⟩ }
    let relock : RunningResponse := { response with level := .relock, erased := 0, phase := .recording }
    let erase : RunningResponse := { response with erased := 0, phase := .recording }
    let low : PendingTrigger := ⟨srcPowered, .scrub, .low, 0, 0⟩
    let high (n : SourceIx) : PendingTrigger := ⟨n, .scrub, .high, 0, 255⟩
    let absorbed (R : RunningResponse) (l : List PendingTrigger) : List PendingTrigger :=
      l.filter fun e => e.severity == .high && decide (R.level.rank < e.level.rank)
    (∀ R ∈ [relock, erase, response], ∀ l ∈ [[], [low], [high srcTimeFault, low, high srcOrder]],
      (s R l).startUp.phase ≠ .resuming ∧ (s R l).nextGrant = .nothing ∧ (s R l).work.scrubList = []
      ∧ (s R l).erases = [] ∧ (s R l).define = none ∧ (s R l).response.countResetDue = false
      ∧ (s R l).response.running = some R ∧ (s R l).Writes .responseBegin (s R l).stored
      ∧ (s R l).response.triggers = l
      ∧ absorbed R l = if l.length < 2 then [] else [high srcTimeFault, high srcOrder])
    ∧ relock.level.rank < Level.erase.rank ∧ response.mask &&& ~~~response.erased = 0
    ∧ Level.erase.rank ≤ erase.level.rank ∧ erase.mask.getLsbD 0 = true ∧ erase.erased.getLsbD 0 = false
    ∧ (∀ p : RegionIx, ¬ p < 0) ∧ (s erase []).work.regions[(0 : RegionIx)].enabled = true
    ∧ (s erase []).regions[(0 : RegionIx)].admitted ≠ 0 := by
  unfold State.Writes
  decide +kernel

/-- A stored in-progress record at step 6: at RELOCK, and at ERASE with region 0 to erase. -/
theorem witness_resumption : ∀ l ∈ [Level.relock, Level.erase],
    let p : InProgress := ⟨bit 7, l, 1, 0, true⟩
    let s : State := { running with
      startUp := ⟨true, false, .sampling⟩, work := { running.work with inProgress := some p } }
    s.startUp = ⟨true, false, .sampling⟩ ∧ s.work.inProgress = some p ∧ s.response.triggers = []
    ∧ s.response.running = none ∧ s.reverting = false ∧ s.erases = [] ∧ s.define = none
    ∧ s.work.scrubList = [] ∧ s.nextGrant = .nothing ∧ s.offered = [] ∧ s.store.queue = []
    ∧ s.store.deferred = [] ∧ s.random.queue = [] ∧ (∀ n : LineIx, s.work.lines[n].enabled = false)
    ∧ (p.level.rank < Level.erase.rank ∨ Level.erase.rank ≤ p.level.rank)
    ∧ p.mask.getLsbD 0 = true ∧ p.erased.getLsbD 0 = false ∧ (∀ r : RegionIx, ¬ r < 0)
    ∧ s.work.regions[(0 : RegionIx)].enabled = true ∧ s.regions[(0 : RegionIx)].admitted = 0
    ∧ s.keys[(0 : RegionIx)].highestDrawn ≠ lastGeneration := by
  decide +kernel

/-! ### Hypotheses of the further clauses: regions -/

/-- A disabling of region 1, drained and not. -/
theorem witness_disabling : ∀ n ∈ [0, 1],
    let s : State := { twoRegions with regions := twoRegions.regions.set 1 ⟨.opened, .locked, false, n⟩ }
    (s.TakesAdministrator ∧ s.Calm ∧ s.StoreStill) ∧ s.store.deferred = [] ∧ s.holds .management = false
    ∧ s.define = none ∧ s.response.running = none ∧ s.work.regions[(1 : RegionIx)].enabled = true
    ∧ s.work.regions[(1 : RegionIx)].ratchets.fixedBounds = false
    ∧ s.keys[(1 : RegionIx)].highestDrawn ≠ lastGeneration ∧ s.regions[(1 : RegionIx)].admitted = n := by
  unfold State.TakesAdministrator State.TakesRequests State.Calm State.ResponseStill State.StoreStill
  decide +kernel

/-- The region-definition unit of each kind, written and at its eighth low code. -/
theorem witness_region_defined : ∀ kind ∈ [DefineKind.enabling ⟨some ⟨100, 100⟩, .locked, .locked, false, false⟩,
      .change ⟨some ⟨100, 50⟩, .locked, .locked, false, false⟩, .disabling],
    let d : DefineRequest := ⟨0, 1, kind⟩
    let begun (s : State) : State := { s with
      define := some d
      erases := if kind = .disabling then [⟨1, .disabling, false, .committing⟩] else [] }
    (∀ s ∈ [begun (writing (.regionDefinition d) twoRegions),
        begun (waiting (.regionDefinition d) 7 twoRegions)],
      s.ResponseStill ∧ s.startUp.phase ≠ .resuming ∧ s.work.scrubList = [] ∧ s.nextGrant = .nothing
      ∧ s.define = some d ∧ s.management.current = some d.id
      ∧ s.erases = (if d.kind = .disabling then [⟨d.region, .disabling, false, .committing⟩] else []))
    ∧ (begun (writing (.regionDefinition d) twoRegions)).Writes (.regionDefinition d) running.stored
    ∧ (begun (waiting (.regionDefinition d) 7 twoRegions)).MeetsEighthLow (.regionDefinition d) 0
    ∧ twoRegions.work.regions[(1 : RegionIx)].condition ≠ .scrubbing := by
  unfold State.ResponseStill State.Writes State.MeetsEighthLow
  decide +kernel

/-! ### Hypotheses of the further clauses: the scrub engine -/

/-- Region 1 at the head of the scrub list with its cursor at 100, and key material to load. -/
def listed (phase : ScrubPhase) (issue : Option Nat) (formed : List FormedChunk) (commit : ScrubCommit) : State :=
  { twoRegions with
    work := { twoRegions.work with
      scrubList := [⟨1, 100⟩]
      regions := twoRegions.work.regions.set 1 { region1 with condition := .scrubQueued }
      keys := twoRegions.work.keys.set 1 ⟨2, some ⟨3, 0⟩⟩ }
    stored := { twoRegions.stored with scrubList := [⟨1, 100⟩] }
    keys := if phase = .walking ∨ phase = .finishing then twoRegions.keys.set 1 ⟨1, some ⟨1, 3⟩⟩
      else twoRegions.keys
    scrub := ⟨phase, 1, issue, formed, commit, 100, []⟩ }

/-- The chunk of a walk of region 1 up to its end, of one of region 0 up to the boundary of region 1 and across
that region, and none at the end of either. -/
theorem witness_next_chunk : let s := twoRegions
    (1 : RegionIx) ≠ 0 ∧ s.work.regions[(1 : RegionIx)].extent = some ⟨100, 100⟩
    ∧ s.nextChunk 1 164 = some (164, 200) ∧ s.nextChunk 1 200 = none
    ∧ s.boundary = boundaryOf s.work.regions ∧ s.nextChunk 0 0 = some (0, 64)
    ∧ s.nextChunk 0 64 = some (64, 100) ∧ s.nextChunk 0 100 = some (200, 264)
    ∧ s.nextChunk 0 65536 = none := by
  decide +kernel

/-- A chunk of region 1 of the given generation at the media, in slot 3 under operation number 9. -/
def chunkAt (generation : Nat) : Chunk := ⟨1, 100, 64, generation⟩

def withChunk (c : Chunk) (s : State) : State :=
  { s with port := { s.port with
      slots := s.port.slots.set 3 (some ⟨.chunk c, .write, some ⟨100, 64⟩, 9, 30, []⟩) } }

/-- The three holds of a head, and none of them with material that is missing. -/
theorem witness_holds :
    let hold : State := { listed .held (some 100) [] .none with
      regions := twoRegions.regions.set 1 ⟨.locked, .locked, true, 0⟩ }
    let stale := listed .held (some 100) [⟨chunkAt 2, .atMedia⟩] .none
    let define : State := { listed .held (some 100) [] .none with define := some ⟨0, 2, .disabling⟩ }
    let lost : State := { listed .held (some 100) [] .none with work := { running.work with scrubList := [⟨1, 100⟩] } }
    (∀ s ∈ [hold, stale, define], s.Still ∧ s.scrubHead = some 1)
    ∧ hold.regions[(1 : RegionIx)].eraseHold = true
    ∧ (∃ f ∈ stale.scrub.formed, f.place = .atMedia
        ∧ f.chunk.generation ≠ stale.stored.keys[(1 : RegionIx)].generation)
    ∧ define.defineHolds = true
    ∧ lost.ResponseStill ∧ lost.erases = [] ∧ lost.walkDue = true ∧ lost.StoreStill
    ∧ lost.scrubHead = some 1 ∧ lost.scrub.formed = [] ∧ lost.scrub.commitHeld = .none
    ∧ lost.holds .scrub = false ∧ lost.keys[(1 : RegionIx)].loaded = none
    ∧ lost.work.keys[(1 : RegionIx)].material = none ∧ lost.port.queue = [] := by
  unfold State.Still State.ResponseStill State.MediaStill State.StoreStill
  decide +kernel

/-- A response that comes to erase the walking head, an admitted segment of which is still at the media. -/
theorem witness_hold_set :
    let R : RunningResponse := { response with mask := 2, erased := 0, phase := .recording }
    let s : State := { writing .responseBegin (listed .walking (some 164) [⟨chunkAt 1, .offered⟩] .none) with
      response := { (free running).response with running := some R }
      regions := twoRegions.regions.set 1 ⟨.locked, .locked, false, 1⟩ }
    s.startUp.phase ≠ .resuming ∧ s.scrubHead = some 1 ∧ s.scrub.phase = .walking ∧ s.erases = []
    ∧ s.define = none ∧ s.response.triggers = [] ∧ s.response.countResetDue = false
    ∧ s.response.running = some R ∧ Level.erase.rank ≤ R.level.rank ∧ R.mask.getLsbD 1 = true
    ∧ R.erased.getLsbD 1 = false
    ∧ (∀ p : RegionIx, p < 1 → R.mask.getLsbD p.val = true → R.erased.getLsbD p.val = true)
    ∧ s.work.regions[(1 : RegionIx)].enabled = true ∧ s.regions[(1 : RegionIx)].admitted ≠ 0
    ∧ s.port.queue = [] ∧ s.Writes .responseBegin s.stored := by
  unfold State.Writes
  decide +kernel

/-- Ends of a chunk: stale beside a held head, stale as the head's last hold, and of the walk, with another
at the media, with a move of 4,096 blocks and with the walk at its end. -/
theorem witness_chunk_ends :
    let c := chunkAt 1
    let other : FormedChunk := ⟨⟨1, 4196, 64, 1⟩, .atMedia⟩
    let held : State := { withChunk (chunkAt 2) (listed .held (some 100) [⟨chunkAt 2, .atMedia⟩] .none) with
      regions := twoRegions.regions.set 1 ⟨.locked, .locked, true, 0⟩ }
    let last := withChunk (chunkAt 2) (listed .held (some 100) [⟨chunkAt 2, .atMedia⟩] .none)
    let moves := withChunk c (listed .walking none [⟨c, .atMedia⟩, other] .none)
    let ends := withChunk c (listed .walking none [⟨c, .atMedia⟩] .none)
    (∀ s ∈ [held, last, moves, ends], s.startUp.powerGood = true ∧ s.slotOf 9 = some 3 ∧ s.ResponseStill
      ∧ (∀ r, s.destructionsDue r = []) ∧ s.startUp.phase = .running ∧ s.port.queue = []
      ∧ s.offer = none ∧ s.StoreStill
      ∧ (s.scrub.phase = .walking → s.scrub.issue = none ∧ ∀ f ∈ s.scrub.formed, f.place = .atMedia))
    ∧ held.stored.keys[(1 : RegionIx)].generation ≠ (chunkAt 2).generation
    ∧ held.regions[(1 : RegionIx)].eraseHold = true
    ∧ (last.scrubHead = some 1 ∧ last.scrub.phase = .held ∧ last.regions[(1 : RegionIx)].eraseHold = false
      ∧ last.define = none ∧ last.scrub.issue = some 100 ∧ (last.nextChunk 1 100).isSome = true
      ∧ (last.loadKey 1).keys[(1 : RegionIx)].loaded.isSome = true)
    ∧ (∀ s ∈ [moves, ends], s.work.scrubList = [⟨1, 100⟩] ∧ s.holds .scrub = false
      ∧ s.stored.keys[(1 : RegionIx)].generation = c.generation ∧ s.scrub.commitHeld = .none
      ∧ s.scrub.phase = .walking ∧ s.regions[(1 : RegionIx)].eraseHold = false)
    ∧ (moves.scrub.formed.filter fun f => f.chunk != c) = [other]
    ∧ 4096 ≤ other.chunk.first - moves.scrub.checkpoint
    ∧ (ends.scrub.formed.filter fun f => f.chunk != c) = []
    ∧ 200 - ends.scrub.checkpoint < 4096 := by
  unfold State.ResponseStill State.StoreStill
  decide +kernel

/-- Checkpoints answered, with a chunk at the media and with the walk at its end. -/
theorem witness_checkpoint : ∀ formed ∈ [[], [(⟨chunkAt 1, .atMedia⟩ : FormedChunk)]],
    let s := listed .walking none formed .checkpoint
    let u := writing .checkpoint s
    let v := waiting .checkpoint 7 s
    (∀ s ∈ [u, v], s.ResponseStill ∧ (∀ r, s.destructionsDue r = []) ∧ s.startUp.phase ≠ .resuming
      ∧ s.nextGrant = .nothing ∧ s.scrubHead = some 1 ∧ s.scrub.phase = .walking
      ∧ s.scrub.commitHeld = .checkpoint ∧ s.regions[(1 : RegionIx)].eraseHold = false
      ∧ s.scrub.issue = none ∧ ∀ f ∈ s.scrub.formed, f.place = .atMedia)
    ∧ u.Writes .checkpoint u.stored ∧ u.stored.scrubList = [⟨1, 100⟩] ∧ u.work.scrubList = [⟨1, 100⟩]
    ∧ v.MeetsEighthLow .checkpoint 0 := by
  unfold State.ResponseStill State.Writes State.MeetsEighthLow
  decide +kernel

/-- Finish units answered, with the list then empty and with region 0 next. -/
theorem witness_finish : ∀ rest ∈ [[], [(⟨0, 0⟩ : ScrubEntry)]],
    let s : State := { listed .finishing none [] .finish with
      work := { (listed .finishing none [] .finish).work with scrubList := ⟨1, 100⟩ :: rest } }
    let u := writing .finish s
    let v := waiting .finish 7 s
    (∀ s ∈ [u, v], s.ResponseStill ∧ s.erases = [] ∧ s.startUp.phase = .running ∧ s.nextGrant = .nothing
      ∧ s.port.queue = [] ∧ s.work.scrubList = ⟨1, 100⟩ :: rest ∧ s.scrub.phase = .finishing
      ∧ s.scrub.commitHeld = .finish ∧ s.scrub.formed = [] ∧ s.scrubHead = some 1)
    ∧ u.Writes .finish u.stored ∧ v.MeetsEighthLow .finish 0
    ∧ u.regions[(0 : RegionIx)].eraseHold = false ∧ u.define = none ∧ (u.nextChunk 0 0).isSome = true
    ∧ (u.unwrapped 0).isSome = true := by
  unfold State.ResponseStill State.Writes State.MeetsEighthLow
  decide +kernel

/-- A stored scrub list at step 10. -/
theorem witness_scrub_resumed : let s : State := { listed .idle none [] .none with
      startUp := ⟨true, false, .sampling⟩ }
    s.startUp = ⟨true, false, .sampling⟩ ∧ s.work.inProgress = none ∧ s.response.triggers = []
    ∧ s.response.running = none ∧ s.response.answerDue = false ∧ s.reverting = false ∧ s.erases = []
    ∧ s.define = none ∧ s.offered = [] ∧ s.store.queue = [] ∧ s.port.queue = []
    ∧ (∀ n : LineIx, s.work.lines[n].enabled = false) ∧ s.work.scrubList = [⟨1, 100⟩]
    ∧ s.scrub.phase = .idle ∧ s.scrub.formed = [] ∧ s.regions[(1 : RegionIx)].eraseHold = false
    ∧ s.work.regions[(1 : RegionIx)].condition = .scrubQueued ∧ (s.nextChunk 1 100).isSome = true
    ∧ s.keys[(1 : RegionIx)].loaded = none ∧ (s.unwrapped 1).isSome = true := by
  decide +kernel

/-! ### Hypotheses of the further clauses: link reset, REVERT and crypto-erases -/

/-- Derivations of credential 1 that a link reset stops: with the charge below the limit of 5, at it while a
response runs, and at it with a free controller and its source at NONE and at ALERT. The head is held, with a
chunk of its walk and a stale one at the media. -/
theorem witness_link_reset_derivation :
    ∀ x ∈ ([(4, false, .alert), (5, false, .alert), (5, true, .none), (5, true, .alert)] :
      List (Nat × Bool × Level)),
    let base := listed .held (some 200) [⟨chunkAt 1, .atMedia⟩, ⟨⟨1, 164, 36, 2⟩, .atMedia⟩] .none
    let s : State := { base with
      regions := base.regions.set 1 ⟨.locked, .locked, true, 0⟩
      response := { base.response with released := x.2.1 }
      derivation := some ⟨0, 4, [7], .present ⟨0, 1, 0, 0, false⟩ x.1⟩
      work := { base.work with
        credentials := base.work.credentials.set 1 ⟨some secretOf, x.1, 5, []⟩
        responseTable := base.work.responseTable.set 1 ⟨x.2.2, .low⟩ } }
    (s.ResponseStill ∧ (∀ e ∈ s.erases, e.stage ≠ .begun) ∧ s.startUp.phase ≠ .resuming
      ∧ s.scrub.phase ≠ .walking ∧ s.offer = none ∧ s.StoreStill ∧ s.scrubHead = some 1
      ∧ s.regions[(1 : RegionIx)].eraseHold = true)
    ∧ s.stored.keys[(1 : RegionIx)].generation = (chunkAt 1).generation
    ∧ s.derivation = some ⟨0, 4, [7], .present ⟨0, 1, 0, 0, false⟩ x.1⟩ ∧ 0 < x.1
    ∧ s.work.credentials[(1 : CredIx)].limit = 5 ∧ s.responseFree = x.2.1 ∧ (s.entryOf 2).level = x.2.2 := by
  unfold State.ResponseStill State.StoreStill
  decide +kernel

/-- A link reset while WALKING: with an offer, and with the lowest of two chunks waiting for reissue. -/
theorem witness_link_reset_walk : ∀ place ∈ [ChunkPlace.offered, .reissue],
    let s := listed .walking (some 200) [⟨chunkAt 1, place⟩, ⟨⟨1, 164, 36, 1⟩, .atMedia⟩] .none
    s.ResponseStill ∧ s.erases = [] ∧ s.startUp.phase ≠ .resuming ∧ s.derivation = none ∧ s.StoreStill
    ∧ s.scrubHead = some 1 ∧ s.scrub.phase = .walking ∧ s.keys[(1 : RegionIx)].loaded.isSome = true
    ∧ (∃ f ∈ s.scrub.formed, f.chunk = chunkAt 1 ∧ f.place ≠ .atMedia)
    ∧ s.offer = (if place = .offered then some (chunkAt 1) else none)
    ∧ ∀ f ∈ s.scrub.formed, f.chunk = chunkAt 1 ∨ (chunkAt 1).first < f.chunk.first := by
  unfold State.ResponseStill State.StoreStill
  decide +kernel

/-- A held head whose only hold is a stale chunk at the media. -/
theorem witness_link_reset_release :
    let s := withChunk (chunkAt 2) (listed .held (some 100) [⟨chunkAt 2, .atMedia⟩] .none)
    (s.ResponseStill ∧ s.StoreStill) ∧ (∀ e ∈ s.erases, e.stage ≠ .begun) ∧ s.startUp.phase = .running
    ∧ s.derivation = none ∧ s.scrubHead = some 1 ∧ s.scrub.phase = .held
    ∧ s.regions[(1 : RegionIx)].eraseHold = false ∧ s.define = none
    ∧ (∀ f ∈ s.scrub.formed, f.place = .atMedia
        ∧ s.stored.keys[f.chunk.region].generation ≠ f.chunk.generation)
    ∧ s.scrub.issue = some 100 ∧ (s.nextChunk 1 100).isSome = true ∧ (s.unwrapped 1).isSome = true := by
  unfold State.ResponseStill State.StoreStill
  decide +kernel

/-- The charge of a detached PRESENT answered done, below the limit and at it. -/
theorem witness_detached_charge : ∀ x ∈ ([(4, false, .alert), (5, false, .alert), (5, true, .none)] :
      List (Nat × Bool × Level)),
    let u := CommitUnit.charge ⟨7, 1, 0, 0, false⟩ [7]
    let base : State := { running with
      response := { running.response with released := x.2.1 }
      work := { running.work with responseTable := running.work.responseTable.set 1 ⟨x.2.2, .low⟩ } }
    let image : Records := { base.stored with
      credentials := base.stored.credentials.set 1 ⟨some secretOf, x.1, 5, []⟩ }
    let s : State := { base with
      store := ⟨[u], some image, false, []⟩, management := ⟨.working, none, some 0, 1⟩ }
    s.Calm ∧ s.Writes u image ∧ s.management.current ≠ some 7 ∧ 0 < x.1
    ∧ image.credentials[(1 : CredIx)].counter = x.1 ∧ image.credentials[(1 : CredIx)].limit = 5
    ∧ s.responseFree = x.2.1 ∧ (s.entryOf 2).level = x.2.2 := by
  unfold State.Calm State.ResponseStill State.Writes
  decide +kernel

/-- The revert unit with the scrub option written: a chunk of region 1 still at the media, and none. -/
theorem witness_revert_scrub : ∀ formed ∈ [[], [(⟨chunkAt 2, .atMedia⟩ : FormedChunk)]],
    let image : Records := { State.reset.stored with scrubList := [⟨0, 0⟩] }
    let s : State := { running with
      store := ⟨[.revert 0 true], some image, false, []⟩, management := ⟨.working, none, some 0, 1⟩
      reverting := true, scrub := { running.scrub with formed := formed } }
    s.startUp.phase = .running ∧ s.nextGrant = .nothing ∧ s.Writes (.revert 0 true) image
    ∧ s.management.current = some 0 ∧ image.scrubList = [⟨0, 0⟩] ∧ s.define = none
    ∧ (s.scrub.formed.filter fun f => f.place == .atMedia) = formed ∧ (chunkAt 2).region ≠ 0
    ∧ 0 < s.geometry.capacity ∧ (∀ r : RegionIx, r ≠ 0 → image.regions[r].enabled = false)
    ∧ (∃ m ∈ image.keys[(0 : RegionIx)].material, m.integrity = s.fuses.rootKey)
    ∧ s.keys[(0 : RegionIx)].loaded = none := by
  unfold State.Writes
  decide +kernel

/-- The last crypto-erase of a response answered done. It holds: of the listed head with a stale chunk at the
media, of region 0 behind a walking head (new and listed) and behind a finishing one, of region 0 as the
first of the list with an old chunk at the media. It starts: with the list empty, and of the head. -/
theorem witness_erase_done_listed :
    let R (r : RegionIx) : RunningResponse :=
      { response with mask := bit r.val, erased := 0, current := some r, phase := .erasing }
    let erased (r : RegionIx) (scrub : Bool) (s : State) : State := { writing (.keyDestruction r) (full s) with
      erases := [⟨r, .response, scrub, .committing⟩]
      response := { (free running).response with running := some (R r) } }
    let walking := listed .walking (some 164) [⟨chunkAt 1, .offered⟩] .none
    let headHeld := erased 1 false (listed .held (some 200) [⟨chunkAt 2, .atMedia⟩] .none)
    let behind := erased 0 true walking
    let again := erased 0 false { walking with work := { walking.work with scrubList := [⟨1, 100⟩, ⟨0, 7⟩] } }
    let finishing := erased 0 true (listed .finishing none [] .finish)
    let first := erased 0 true { running with scrub := { running.scrub with formed := [⟨chunkAt 2, .atMedia⟩] } }
    let starts := erased 0 true running
    let headStarts := erased 1 false (listed .held (some 164) [⟨chunkAt 1, .reissue⟩] .none)
    (∀ x ∈ ([(1, headHeld), (0, behind), (0, again), (0, finishing), (0, first), (0, starts),
        (1, headStarts)] : List (RegionIx × State)),
      x.2.startUp.phase = .running ∧ x.2.nextGrant = .nothing ∧ x.2.response.triggers = []
      ∧ x.2.response.countResetDue = false ∧ x.2.define = none
      ∧ (∃ e ∈ x.2.erases, x.2.erases = [⟨x.1, .response, e.scrub, .committing⟩])
      ∧ (∃ R ∈ x.2.response.running, R.mask &&& ~~~(R.erased ||| bit x.1.val) = 0)
      ∧ x.2.Writes (.keyDestruction x.1) x.2.stored)
    ∧ (headHeld.scrubHead = some 1
      ∧ headHeld.stored.keys[(1 : RegionIx)].generation ≠ (chunkAt 2).generation)
    ∧ (∀ s ∈ [behind, again], s.scrubHead = some 1 ∧ s.scrub.phase = .walking ∧ s.offer.isSome = true
      ∧ s.keys[(1 : RegionIx)].loaded.isSome = true)
    ∧ (∃ e ∈ again.work.scrubList, e.region = 0)
    ∧ (finishing.scrubHead = some 1 ∧ finishing.scrub.phase = .finishing)
    ∧ (first.work.scrubList = [] ∧ ∃ f ∈ first.scrub.formed, f.place = .atMedia ∧ f.chunk.region ≠ 0)
    ∧ (starts.work.scrubList = [] ∧ starts.scrub.formed = [] ∧ (starts.unwrapped 0).isSome = true
      ∧ (starts.nextChunk 0 0).isSome = true)
    ∧ headStarts.scrubHead = some 1 ∧ (∀ f ∈ headStarts.scrub.formed, f.place ≠ .atMedia)
    ∧ (headStarts.unwrapped 1).isSome = true ∧ (headStarts.nextChunk 1 100).isSome = true := by
  unfold State.Writes
  decide +kernel

/-! ### Hypotheses of the further clauses: contents of units and unsafe answers -/

/-- A credential with grants in order, and a response that runs while its units are written. -/
theorem witness_images :
    let s : State := { running with
      work := { running.work with
        credentials := running.work.credentials.set 1 ⟨some secretOf, 2, 5, [⟨0, .read⟩, ⟨3, .both⟩]⟩ }
      response := { running.response with running := some response } }
    (s.work.credentials[(1 : CredIx)].grants.Pairwise fun a b => a.region < b.region)
    ∧ s.work.credentials[(1 : CredIx)].counter < s.work.credentials[(1 : CredIx)].limit
    ∧ s.response.running = some response
    ∧ ∀ r : RegionIx, s.work.regions[r].condition ≠ .scrubbing := by
  decide +kernel

/-- Any unit that is alone in the store at its eighth low code, for the request with the slot. -/
theorem witness_unsafe_unit (u : CommitUnit) : (waiting u 7 running).Calm
    ∧ (waiting u 7 running).MeetsEighthLow u 0 ∧ (waiting u 7 running).management.current = some 0 := by
  have h : running.Calm := by unfold State.Calm State.ResponseStill; decide
  have low : min 255 ((512 * (0 : BitVec 32).toNat + 3300000000) / 6600000000)
      < running.work.holdup.threshold := by decide
  exact ⟨h, ⟨rfl, rfl, rfl, rfl, rfl, rfl, rfl, low⟩, rfl⟩

/-- The units of a running response at their eighth low code, with a count reset due and without. -/
theorem witness_response_unsafe :
    ∀ u ∈ [CommitUnit.responseBegin, .keyDestruction 0, .responseEnd, .countReset], ∀ due ∈ [false, true],
    let s : State := { waiting u 7 running with
      erases := if u = .keyDestruction 0 then [⟨0, .response, true, .committing⟩] else []
      response := { running.response with running := some response, countResetDue := due } }
    s.Still ∧ s.MeetsEighthLow u 0 ∧ s.response.running.isSome = true
    ∧ s.response.countResetDue = due := by
  unfold State.Still State.ResponseStill State.MediaStill State.StoreStill State.MeetsEighthLow
  decide +kernel

/-- A resumed response that awaits the key of its first erase, before port ready, with a request waiting. -/
theorem witness_resumed_draw : let s : State := { running with
      startUp := ⟨true, false, .resuming⟩, offered := [.flush 0]
      response := { (free running).response with running := some response, answerDue := true }
      random := ⟨true, [.key 0 2 (.erase .response)], []⟩
      erases := [⟨0, .response, false, .destroyed 2⟩] }
    s.startUp = ⟨true, false, .resuming⟩ ∧ s.response.answerDue = true ∧ s.response.running.isSome = true
    ∧ s.random.ready = true ∧ s.random.queue = [.key 0 2 (.erase .response)] ∧ s.random.waiting = []
    ∧ s.erases = [⟨0, .response, false, .destroyed 2⟩] ∧ s.work.scrubList = [] ∧ s.nextGrant = .nothing
    ∧ s.holds .response = false ∧ s.work.keys[(0 : RegionIx)].generation < 2 := by
  decide +kernel

/-- Requests of every form, before port ready and after it. -/
theorem witness_requests_offered : State.reset.startUp.portReady = false ∧ running.startUp.portReady = true
    ∧ (requestTag (.read 0 0 1)).isSome = true ∧ (requestTag (.manageFetch 63)).isSome = true
    ∧ (kindCode (.statusQuery)).isSome = true
    ∧ (∃ tag, Instr.requestOfUnknownKind 9 = .requestOfUnknownKind tag) :=
  ⟨by decide, by decide, by decide, by decide, by decide, _, rfl⟩

/-! ### Hypotheses of the further clauses: requests -/

/-- The administrator's authority in a state that differs from `running` in what the request looks at. -/
theorem takes_administrator (s : State) (ready : s.startUp.portReady = true) (slot : s.management.slot = .idle)
    (reverting : s.reverting = false) (mode : s.work.mode = .factory) : s.TakesAdministrator := by
  refine ⟨⟨ready, ?_, reverting⟩, ?_⟩
  · rw [slot]; decide
  · simp [State.administrator, mode]

/-- Requests without the administrator's authority: a REVERT, and a SET-SECRET under the target's own flag. -/
theorem witness_no_administrator : let s : State := { withCredential 1 0 (inMode .armed) with
      credentials := running.credentials.set 1 ⟨true, 0⟩ }
    s.TakesRequests ∧ s.administrator = false ∧ s.credentials[(1 : CredIx)].presented = true
    ∧ s.random.queue = [] ∧ s.define = none ∧ s.response.running = none ∧ s.revertBackoff = 0
    ∧ s.holds .credential = false ∧ (List.replicate 32 (0 : Byte)).length = 32 := by
  unfold State.TakesRequests
  decide +kernel

/-- The checks of the credential requests: an index of 8, a region of 16 and rights of 4; a REVERT beside a
DEFINE-REGION, beside a response and backing off; a user not present; grants on a region with FIXED-GRANTS,
on one without, and on a region not enabled; the rights already held. -/
theorem witness_credential_checks :
    let grants : List GrantEntry := [⟨0, .both⟩]
    let s (fixed : Bool) : State := { running with work := { running.work with
      credentials := running.work.credentials.set 1 ⟨some secretOf, 0, 5, grants⟩
      regions := running.work.regions.set 0 { region0 false false with
        ratchets := ⟨false, fixed, false, false⟩ } } }
    (7 < (8 : BitVec 8).toNat ∧ 15 < (16 : BitVec 8).toNat ∧ 3 < (4 : BitVec 8).toNat)
    ∧ { running with define := some enabling }.define ≠ none
    ∧ { running with response := { running.response with running := some response } }.response.running ≠ none
    ∧ 0 < { running with revertBackoff := 64 }.revertBackoff
    ∧ ((s true).TakesAdministrator ∧ (s false).TakesAdministrator)
    ∧ (s true).work.credentials[(2 : CredIx)].secret = none
    ∧ (s true).work.credentials[(1 : CredIx)].secret.isSome = true
    ∧ (∀ fixed ∈ [true, false], ∃ g ∈ (s fixed).work.credentials[(1 : CredIx)].grants,
        (s fixed).work.regions[g.region].ratchets.fixedGrants = fixed)
    ∧ (s true).work.regions[(1 : RegionIx)].enabled = false
    ∧ (GrantRights.both = grantFor 0 grants ∧ GrantRights.read ≠ grantFor 0 grants)
    ∧ (s false).holds .management = false := by
  refine ⟨by decide, by decide, by decide, by decide, ?_, by decide +kernel⟩
  constructor <;> exact takes_administrator _ rfl rfl rfl rfl

/-- Requests that only tighten, or change nothing, under every device ratchet. -/
theorem witness_tightening : let s : State := { lineAt false false 0 with
      work := { (lineAt false false 0).work with
        deviceRatchets := ⟨true, true, true⟩, deadlines := ⟨0, 0, 15, 60, 10⟩ } }
    s.TakesAdministrator ∧ s.holds .management = false ∧ s.deadlines.changePending = false
    ∧ s.response.changePending = false ∧ s.tamper.changePending = false
    ∧ ¬ ((s.work.deadlines.dp ≠ 0 ∧ ((60 : BitVec 16) = 0 ∨ s.work.deadlines.dp < max 30 (60 : BitVec 16).toNat))
        ∨ (s.work.deadlines.dn ≠ 0 ∧ ((9 : BitVec 8) = 0 ∨ s.work.deadlines.dn < (9 : BitVec 8).toNat))
        ∨ s.work.deadlines.q < max 5 (min 60 (15 : BitVec 8).toNat))
    ∧ ¬ (Level.scrub.rank < (s.entryOf 8).level.rank ∨ ((s.entryOf 8).severity = .high ∧ Severity.high = .low))
    ∧ ¬ (s.work.lines[(0 : LineIx)].enabled = true ∧ ((1 : BitVec 8) = 0
        ∨ Polarity.rising ≠ s.work.lines[(0 : LineIx)].polarity
        ∨ s.work.lines[(0 : LineIx)].debounce < max 2 (2 : BitVec 8).toNat))
    ∧ s.work.lines[(1 : LineIx)].enabled = false := by
  refine ⟨takes_administrator _ rfl rfl rfl rfl, by decide +kernel⟩

/-- The checks of DEFINE-REGION in turn: one in progress, a response, a scrub list, a region that a disabling
leaves as it is; FIXED-BOUNDS against a disabling and against other bounds, FIXED-FLAGS against a cleared flag,
and neither against the same bounds with its flags kept; a spent slot. -/
theorem witness_define_checks :
    let ratcheted : State := withRegion 1 { region1 with
      conceal := true, absorb := true, ratchets := ⟨true, false, true, false⟩ }
      ⟨.locked, .locked, false, 0⟩ twoRegions
    let busy : State := { twoRegions with define := some enabling }
    let active : State := { twoRegions with response := { running.response with running := some response } }
    let scrubbing := listed .held (some 100) [] .none
    let spent : State := { twoRegions with keys := twoRegions.keys.set 2 ⟨lastGeneration, none⟩ }
    let x := ratcheted.work.regions[(1 : RegionIx)]
    (∀ s ∈ [ratcheted, busy, active, scrubbing, spent], s.startUp.portReady = true
      ∧ s.management.slot = .idle ∧ s.reverting = false ∧ s.work.mode = .factory)
    ∧ 15 < (16 : BitVec 8).toNat
    ∧ busy.define ≠ none ∧ active.response.running ≠ none ∧ scrubbing.work.scrubList ≠ []
    ∧ (twoRegions.work.regions[(2 : RegionIx)].enabled = false ∧ x.enabled = true)
    ∧ (x.ratchets.fixedBounds = true ∧ some (⟨100, 99⟩ : Extent) ≠ x.extent
      ∧ some (⟨100, 100⟩ : Extent) = x.extent)
    ∧ (x.ratchets.fixedFlags = true ∧ x.conceal = true ∧ x.absorb = true)
    ∧ (ratcheted.holds .management = false ∧ ratcheted.define = none ∧ ratcheted.response.running = none
      ∧ ratcheted.work.scrubList = [])
    ∧ (∀ q : RegionIx, q ≠ 0 → q ≠ 1 → ratcheted.work.regions[q].enabled = false)
    ∧ spent.keys[(2 : RegionIx)].highestDrawn = lastGeneration := by
  decide +kernel

/-- The checks of RATCHET in turn: unknown sets, FIXED-BOUNDS on region 0, region ratchets for no region, beside
a disabling, a region not enabled, ratchets already set, and a device ratchet alone. -/
theorem witness_ratchet_checks :
    let set : RegionRatchets := ⟨true, false, false, false⟩
    let held : State := withRegion 1 { region1 with ratchets := set } ⟨.locked, .locked, false, 0⟩ twoRegions
    let disabling : State := { twoRegions with define := some ⟨0, 2, .disabling⟩ }
    (held.TakesAdministrator ∧ disabling.TakesAdministrator) ∧ held.holds .management = false
    ∧ (15 < (16 : BitVec 8).toNat ∧ 7 < (8 : BitVec 8).toNat)
    ∧ (set.fixedBounds = true ∧ (3 : BitVec 16).getLsbD 0 = true)
    ∧ (set ≠ ⟨false, false, false, false⟩ ∧ (2 : BitVec 16) ≠ 0 ∧ (2 : BitVec 16).getLsbD 0 = false)
    ∧ (∃ d ∈ disabling.define, d.kind = .disabling)
    ∧ ((4 : BitVec 16).getLsbD (2 : RegionIx).val = true ∧ held.work.regions[(2 : RegionIx)].enabled = false)
    ∧ (∀ r : RegionIx, (2 : BitVec 16).getLsbD r.val = true → held.work.regions[r].enabled = true
      ∧ held.work.regions[r].ratchets.union set = held.work.regions[r].ratchets)
    ∧ held.work.deviceRatchets.union ⟨false, false, false⟩ = held.work.deviceRatchets
    ∧ held.work.deviceRatchets.union ⟨true, false, false⟩ ≠ held.work.deviceRatchets := by
  refine ⟨?_, by decide +kernel⟩
  constructor <;> exact takes_administrator _ rfl rfl rfl rfl

/-! ### Hypotheses of the further clauses: walks that end unwritten -/

/-- A head whose key cannot be loaded, with a chunk of its walk at the media and one waiting for reissue, with
no unit held and with a checkpoint outstanding. -/
theorem witness_walk_unwritten : ∀ commit ∈ [ScrubCommit.none, .checkpoint],
    let base := listed .held (some 200) [⟨chunkAt 1, .atMedia⟩, ⟨⟨1, 164, 36, 1⟩, .reissue⟩] commit
    let s : State := { base with
      work := { base.work with keys := running.work.keys }
      store := if commit = .none then base.store else ⟨[.checkpoint], none, true, []⟩ }
    s.ResponseStill ∧ s.erases = [] ∧ s.walkDue = true ∧ s.StoreStill ∧ s.scrubHead = some 1
    ∧ s.keys[(1 : RegionIx)].loaded = none ∧ s.work.keys[(1 : RegionIx)].material = none
    ∧ s.port.queue = [] ∧ s.scrub.commitHeld = commit ∧ (commit = .none → s.holds .scrub = false) := by
  unfold State.ResponseStill State.StoreStill
  decide +kernel

/-- A chunk of the head's walk that ends while the finish unit is out, with the key loaded. -/
theorem witness_chunk_ends_finishing :
    let c := chunkAt 1
    let s := withChunk c { listed .finishing none [⟨c, .atMedia⟩] .finish with
      store := ⟨[.finish], none, true, []⟩ }
    s.startUp.powerGood = true ∧ s.slotOf 9 = some 3 ∧ s.ResponseStill
    ∧ (∀ r, s.destructionsDue r = []) ∧ s.startUp.phase ≠ .resuming ∧ s.port.queue = [] ∧ s.offer = none
    ∧ s.StoreStill ∧ s.scrub.phase = .finishing ∧ s.scrub.commitHeld ≠ .none
    ∧ s.work.scrubList = [⟨1, 100⟩] ∧ s.stored.keys[(1 : RegionIx)].generation = c.generation
    ∧ (s.scrub.formed.filter fun f => f.chunk != c) = [] := by
  unfold State.ResponseStill State.StoreStill
  decide +kernel

/-- A checkpoint answered while the walk has ended unwritten with a chunk still at the media. -/
theorem witness_checkpoint_unwritten :
    let base := listed .walking none [⟨chunkAt 1, .atMedia⟩] .checkpoint
    let s : State := writing .checkpoint { base with keys := running.keys }
    s.ResponseStill ∧ (∀ r, s.destructionsDue r = []) ∧ s.startUp.phase ≠ .resuming ∧ s.nextGrant = .nothing
    ∧ s.scrubHead = some 1 ∧ s.scrub.phase = .walking ∧ s.scrub.commitHeld = .checkpoint
    ∧ s.regions[(1 : RegionIx)].eraseHold = false ∧ s.scrub.issue = none
    ∧ (∀ f ∈ s.scrub.formed, f.place = .atMedia) ∧ s.scrub.formed ≠ []
    ∧ s.keys[(1 : RegionIx)].loaded = none ∧ s.Writes .checkpoint s.stored := by
  unfold State.ResponseStill State.Writes
  decide +kernel

/-- A finish unit written while a chunk of the region is still at the media, with region 0 next. -/
theorem witness_finish_held :
    let base := listed .finishing none [⟨chunkAt 1, .atMedia⟩] .finish
    let s := writing .finish { base with work := { base.work with scrubList := [⟨1, 100⟩, ⟨0, 0⟩] } }
    s.ResponseStill ∧ s.erases = [] ∧ s.startUp.phase = .running ∧ s.nextGrant = .nothing ∧ s.port.queue = []
    ∧ s.work.scrubList = [⟨1, 100⟩, ⟨0, 0⟩] ∧ s.scrub.phase = .finishing ∧ s.scrub.commitHeld = .finish
    ∧ (∀ f ∈ s.scrub.formed, f.place = .atMedia) ∧ s.Writes .finish s.stored
    ∧ s.regions[(0 : RegionIx)].eraseHold = false ∧ s.define = none
    ∧ ∃ f ∈ s.scrub.formed, f.chunk.region = 1 := by
  unfold State.ResponseStill State.Writes
  decide +kernel

/-! ### Points that the review raised -/

-- R104, R146: a resumed response repeats the relock and leaves the mode ARMED
theorem test_resumed_relock_keeps_mode :
    gives (.sampleTick 0) { inMode .armed with
        startUp := ⟨true, false, .sampling⟩
        work := { (inMode .armed).work with inProgress := some ⟨bit 7, .relock, 0, 0, true⟩ } }
      (fun t => t.work.mode == .armed && t.response.running.any fun r => r.relockDone) = true := by
  decide +kernel

-- R147, R176: the count reported after an administrator refund is the working count
theorem test_reported_count :
    let s : State := { opened with
      work := { opened.work with lastResponse := ⟨bit 7, .relock, 0, 5, 3⟩ }
      response := { opened.response with count := 0 } }
    s.reportedResponse = ⟨bit 7, .relock, 0, 5, 0⟩ := by decide +kernel

-- R159: 4,096 blocks lie behind the cursor, and a chunk's end that does not move it asks for no checkpoint
theorem test_no_checkpoint_without_a_move :
    let c := chunkAt 1
    let s := withChunk c (listed .walking none [⟨c, .atMedia⟩, ⟨⟨1, 4196, 64, 1⟩, .atMedia⟩] .none)
    let at4196 : State := { s with work := { s.work with scrubList := [⟨1, 4196⟩] } }
    gives (.mediaCompletion 9 true) at4196 (fun t => t.store.queue == [] && t.scrub.formed.length == 1)
      = true
    ∧ gives (.mediaCompletion 9 true) s (fun t => t.store.queue == [.checkpoint] && t.cursor == 4196)
      = true := by decide +kernel

-- R81: two secrets of one salt and cost have one digest only if they are the same
theorem test_digests_differ : Config.derive 0 4 [1] ≠ Config.derive 0 4 [2] := by
  intro h
  have := (Config.digestTag 0 4).map_rel_iff.mp (congrArg Digest.tag h)
  revert this
  decide

-- R70, R157: at a second tick the last stale chunk's time runs out, the walk starts, and the slot freed goes
-- to its chunk, for which there is credit, and not to the host segment that waits
theorem test_walk_starts_before_the_freed_slot_is_granted :
    let base := listed .held (some 100) [⟨chunkAt 2, .atMedia⟩] .none
    let waitsForHost := queued .flush .plain true 0
    let s : State := { base with
      transfers := waitsForHost.transfers
      port := { (full base).port with
        queue := waitsForHost.port.queue, credit := 1
        slots := (full base).port.slots.set 3 (some ⟨.chunk (chunkAt 2), .write, some ⟨100, 64⟩, 9, 1, []⟩) } }
    gives .secondTick s (fun t => t.scrub.phase == .walking && t.port.queue == waitsForHost.port.queue
      && t.port.slots[(3 : SlotIx)].any fun x => x.occupant == .chunk ⟨1, 100, 64, 1⟩) = true := by decide +kernel

-- R158, R160: a spent head's walk submits its finish in the event in which it starts, with a chunk of the same
-- generation at the media; a link reset then leaves no chunk to reissue
theorem test_unwritten_walk_finishes_at_once :
    let base := listed .held (some 164) [⟨chunkAt 1, .atMedia⟩] .none
    let s : State := { base with work := { base.work with keys := running.work.keys } }
    let finishing : State := { s with
      store := ⟨[.finish], none, true, []⟩, scrub := { s.scrub with phase := .finishing, commitHeld := .finish } }
    gives .scrubWalkStart s (fun t => t.scrub.phase == .finishing && t.store.queue == [.finish]
      && t.scrub.formed.length == 1) = true
    ∧ gives .linkReset finishing (fun t => t.scrub.formed == [] && t.scrub.phase == .finishing) = true := by
  decide +kernel

/-- Chunks issued before a crypto-erase of a spent slot 1 was answered done: as the last hold of the head, and
beside an erase hold. -/
theorem witness_earlier_chunk :
    let base := listed .held (some 100) [⟨chunkAt 1, .atMedia⟩] .none
    let last := withChunk (chunkAt 1) { base with scrub := { base.scrub with earlier := [chunkAt 1] } }
    let held : State := { last with regions := twoRegions.regions.set 1 ⟨.locked, .locked, true, 0⟩ }
    (∀ s ∈ [last, held], s.startUp.powerGood = true ∧ s.slotOf 9 = some 3 ∧ s.ResponseStill
      ∧ (∀ e ∈ s.erases, e.stage ≠ .begun) ∧ (∀ r, s.destructionsDue r = []) ∧ s.startUp.phase = .running
      ∧ s.port.queue = [] ∧ s.offer = none ∧ s.StoreStill ∧ s.derivation = none ∧ s.scrubHead = some 1
      ∧ s.scrub.phase = .held ∧ chunkAt 1 ∈ s.scrub.earlier
      ∧ s.stored.keys[(1 : RegionIx)].generation = (chunkAt 1).generation
      ∧ (s.scrub.formed.filter fun f => f.chunk != chunkAt 1) = [])
    ∧ last.regions[(1 : RegionIx)].eraseHold = false ∧ held.regions[(1 : RegionIx)].eraseHold = true
    ∧ last.define = none ∧ last.scrub.issue = some 100 ∧ (last.nextChunk 1 100).isSome = true
    ∧ (last.loadKey 1).keys[(1 : RegionIx)].loaded.isSome = true := by
  unfold State.ResponseStill State.StoreStill
  decide +kernel

-- R153, R157, R163: after a REVERT with scrub of a spent slot 0 a chunk of its old walk, of the same generation,
-- holds the walk; it ends as stale, or is removed by a link reset, and the walk then ends unwritten (R158)
theorem test_revert_of_a_spent_slot_waits :
    let old : Chunk := ⟨0, 0, 64, lastGeneration⟩
    let keys := State.reset.stored.keys.set 0 ⟨lastGeneration, none⟩
    let image : Records := { State.reset.stored with keys := keys, scrubList := [⟨0, 0⟩] }
    let s : State := { running with
      work := { running.work with keys := keys }
      store := ⟨[.revert 0 true], some image, false, []⟩, management := ⟨.working, none, some 0, 1⟩
      reverting := true, scrub := { running.scrub with formed := [⟨old, .atMedia⟩] }
      port := { running.port with
        slots := running.port.slots.set 3 (some ⟨.chunk old, .write, some ⟨0, 64⟩, 9, 30, []⟩) } }
    let t : State := { s with
      work := image, stored := image, store := emptyStore, reverting := false
      scrub := ⟨.held, 0, some 0, [⟨old, .atMedia⟩], .none, 0, [old]⟩ }
    gives .commitWriteEnd s (fun t => t.scrub == ⟨.held, 0, some 0, [⟨old, .atMedia⟩], .none, 0, [old]⟩) = true
    ∧ gives (.mediaCompletion 9 false) t (fun u => u.scrub.phase == .finishing && u.scrub.formed == []
      && u.scrub.earlier == [] && u.cursor == 0 && u.work.regions[(0 : RegionIx)].faultCount == 1) = true
    ∧ gives .linkReset t (fun u => u.scrub.phase == .finishing && u.scrub.formed == []) = true := by
  decide +kernel

-- R25: of two crypto-erases of one region the hold outlasts the first, be it the response's or an unsafe revert's
theorem test_hold_outlasts_the_first_of_two_erases :
    let held : State := { withRegion 1 region1 ⟨.locked, .locked, true, 1⟩ running with reverting := true }
    let first : State := { writing (.keyDestruction 1) held with
      erases := [⟨1, .response, false, .committing⟩, ⟨1, .revert, false, .begun⟩]
      response := { (free running).response with running := some { response with
        mask := 2, erased := 0, current := some 1, phase := .erasing } } }
    let revert : State := { waiting (.revert 0 false) 7 held with
      erases := [⟨1, .revert, false, .committing⟩, ⟨1, .response, false, .begun⟩] }
    gives .commitWriteEnd first (fun t => t.erases == [⟨1, .revert, false, .begun⟩]
      && t.regions[(1 : RegionIx)].eraseHold) = true
    ∧ gives (.conversionEnd 0) revert (fun t => !t.reverting && t.erases == [⟨1, .response, false, .begun⟩]
      && t.regions[(1 : RegionIx)].eraseHold) = true := by
  decide +kernel

-- R150: the drain that ends the waits of a revert's and a response's erase of one region destroys for both; each
-- asks for its own draw
theorem test_destroyed_together :
    let s : State := { erasedTwice with
      regions := running.regions.set 0 ⟨.locked, .locked, true, 2⟩
      transfers := (atMedia .read .cipher 30).transfers, port := (atMedia .read .cipher 30).port }
    gives .linkReset s (fun t =>
      t.erases == [⟨0, .revert, false, .destroyed 2⟩, ⟨0, .response, false, .destroyed 3⟩]
      && t.random.queue == [.key 0 2 (.erase .revert)] && t.random.waiting == [.key 0 3 (.erase .response)]) = true := by
  decide +kernel

-- R163: the units of a dropped response leave the queue with it; those of other requesters stay
theorem test_dropped_response_leaves_no_unit :
    let base := writing (.revert 0 false) running
    let s : State := { base with
      store := { base.store with queue := [.revert 0 false, .responseBegin, .deadlineCharge] }
      response := { (free running).response with running := some { response with phase := .recording } }
      reverting := true }
    gives .commitWriteEnd s (fun t => t.store.queue == [.deadlineCharge] && t.response.running == none) = true := by
  decide +kernel

-- R104: a secret unit of FACTORY that is written in LOCKDOWN leaves the stored mode
theorem test_late_secret_keeps_lockdown :
    let q : SecretRequest := ⟨0, 0, [], 4, true⟩
    let stored : State := { inMode .lockdown with stored := { running.stored with mode := .lockdown } }
    (stored.image (.secret q secretOf)).mode = .lockdown
    ∧ (running.image (.secret q secretOf)).mode = .armed := by
  decide +kernel

-- R109: a RETIRE-WINDOW answered BUSY carries the window state, LOADING
theorem test_retire_window_loading :
    let s : State := { running with window := ⟨.loading, false⟩, credentials := running.credentials.set 0 ⟨true, 0⟩ }
    gives .retireWindow s (fun t => t.management.buffer == some ⟨0x17, .busy, [3]⟩) = true := by
  decide +kernel

-- R177: the REVERTED alert enters after the SCRUB-FAULT of a walk that its event starts and ends
theorem test_reverted_enters_last :
    let keys := State.reset.stored.keys.set 0 ⟨lastGeneration, none⟩
    let image : Records := { State.reset.stored with scrubList := [⟨0, 0⟩], keys := keys }
    let s : State := { running with
      store := ⟨[.revert 0 true], some image, false, []⟩, management := ⟨.working, none, some 0, 1⟩
      reverting := true }
    gives .commitWriteEnd s (fun t => (t.alerts.queue.map (·.kind)) == [.scrubFault, .reverted]) = true := by
  decide +kernel

-- R39, R154, R155: the walk that a change of bounds held back begins at the new start, below or above the old
-- one, and the chunk offered lies within the region; a change of the length alone leaves it at its start
theorem test_changed_bounds_move_the_walk : ∀ e ∈ [(⟨50, 100⟩ : Extent), ⟨150, 100⟩, ⟨100, 70⟩],
    let d : DefineRequest := ⟨0, 1, .change ⟨some e, .locked, .locked, false, false⟩⟩
    let s : State := { writing (.regionDefinition d) (full (listed .held (some 100) [] .none)) with
      define := some d }
    gives .commitWriteEnd s (fun t => t.work.scrubList == [⟨1, e.start⟩] && t.scrub.phase == .walking
      && t.scrub.formed.map (·.chunk) == [⟨1, e.start, 64, 1⟩]) = true := by
  decide +kernel

-- R124, R126, R135: step 2 acts on what was seen of the crystal, and a fault found so leads the alerts
theorem test_early_crystal :
    let s (early : EarlyCrystal) (power : DeadlineRecord) : State := { State.reset with
      time := ⟨.awaiting, 0, early⟩, stored := { State.reset.stored with deadlines := power } }
    gives .storeReadEnd (s .running factoryDeadlines) (fun t => t.time.source == .slow && t.alerts.queue == []) = true
    ∧ gives .storeReadEnd (s .late ⟨0, 1, 15, 0, 1⟩) (fun t => t.time.source == .faulted
        && t.response.triggers == [⟨srcTimeFault, .alert, .low, 0, 0⟩, ⟨srcPowerOn, .alert, .low, 0, 0⟩]
        && t.alerts.queue.map (·.kind) == [.timeFault, .deadline]) = true := by
  decide +kernel

-- R135: a second order raises the level, unites the masks and counts; an order of a source without an entry is new
theorem test_trigger_merges :
    let low : PendingTrigger := ⟨srcTimeFault, .alert, .low, 0, 255⟩
    enterTrigger srcTimeFault .relock .high 2 [low, ⟨srcOrder, .erase, .high, 1, 0⟩]
      = [⟨srcTimeFault, .relock, .high, 2, 255⟩, ⟨srcOrder, .erase, .high, 1, 0⟩]
    ∧ enterTrigger srcTimeFault .none .high 2 [low] = [low]
    ∧ enterTrigger srcOrder .scrub .high 2 [low] = [low, ⟨srcOrder, .scrub, .high, 2, 0⟩] := by decide

-- R136: HIGH before LOW, then the lowest source; the others stay pending
theorem test_competing_triggers :
    let e (n : SourceIx) (v : Severity) : PendingTrigger := ⟨n, .erase, v, 0, 2⟩
    let s : State := { free running with
      response := { (free running).response with triggers := [e 1 .low, e 7 .high, e 3 .high] }
      store := ⟨[.checkpoint], none, true, []⟩ }
    gives .responseTake s (fun t => t.response.triggers == [e 1 .low, e 7 .high]
      && t.response.running.any fun R => R.sources == bit 3) = true := by
  decide +kernel

-- R142: of three entries the two HIGH ones above the level are absorbed
theorem test_two_absorbed :
    let low : PendingTrigger := ⟨srcPowered, .scrub, .low, 0, 0⟩
    let s : State := { writing .responseBegin (free running) with
      response := { (free running).response with
        running := some { response with level := .relock, phase := .recording }
        triggers := [⟨srcTimeFault, .erase, .high, 0, 200⟩, low, ⟨srcOrder, .scrub, .high, 4, 100⟩] } }
    gives .commitWriteEnd s (fun t => t.response.triggers == [low]
      && t.response.running.any fun R => R.level == .scrub && R.sources == (bit 8 ||| bit 7 ||| bit 0)
        && R.mask == 5 && R.repeats == 255) = true := by
  decide +kernel

/-! ### Single commands -/

-- Power and start-up (R99, R100)
theorem test_power_good_rise_locks :
    gives .powerGoodRise opened (fun t => t.regions[(0 : RegionIx)].read == .locked
      && t.keys[(0 : RegionIx)].loaded.isNone && t.startUp.phase == .reading) = true := by decide +kernel
theorem test_power_good_fall :
    gives .powerGoodFall running (fun t => !t.startUp.portReady && !t.startUp.powerGood) = true := by
  decide +kernel
theorem test_store_read_end :
    gives .storeReadEnd State.reset (fun t => t.startUp.phase == .sampling) = true := by decide +kernel

-- Transfers (R3, R4, R11, R19): region 0 is LOCKED after start-up
theorem test_read_of_locked_region :
    gives (.read 7 0 1) running (fun t => t.sent == [.completion 7 .locked]) = true := by decide +kernel
theorem test_read_of_concealed_region :
    gives (.read 7 5 2) (withRegion 0 (region0 true false) ⟨.locked, .locked, false, 0⟩ running)
      (fun t => t.sent == [.readData 7 0 [.zeros 2], .completion 7 .good]) = true := by decide +kernel
theorem test_write_absorbed :
    gives (.write 7 5 1 [[3]]) (withRegion 0 (region0 false true) ⟨.locked, .locked, false, 0⟩ running)
      (fun t => t.sent == [.dataTaken 7 0 1, .completion 7 .good]) = true := by decide +kernel
theorem test_discard_past_the_end :
    gives (.discard 7 65535 2) running (fun t => t.sent == [.completion 7 .outOfRange]) = true := by decide +kernel
theorem test_read_of_opened_region_issues :
    gives (.read 7 5 2) opened (fun t => t.sent == [.mediaOperation 0 0 .read (some ⟨5, 2⟩) []]) = true := by
  decide +kernel
theorem test_flush_issues :
    gives (.flush 0) running (fun t => t.sent == [.mediaOperation 0 0 .flush none []]) = true := by decide +kernel
theorem test_unknown_kind :
    gives (.requestOfUnknownKind 9) running (fun t => t.sent == [.completion 9 .badRequest]) = true := by
  decide +kernel
theorem test_manage_fetch_empty :
    gives (.manageFetch 1) running
      (fun t => t.sent == [.reply 1 [0xF0, 0, 0, 0], .completion 1 .good]) = true := by decide +kernel
theorem test_manage_send_reduced_status :
    gives (.manageSend 1 [1, 0, 0, 0]) running (fun t => t.sent == [.completion 1 .good]
      && t.management.buffer.any fun r => r.body.length == 100) = true := by decide +kernel
theorem test_link_reset :
    gives .linkReset (atMedia .read .cipher 30) (fun t => t.transfers == []
      && t.sent.head? == some .mediaAbort) = true
    ∧ gives .linkReset (atMedia .read .image 30) (fun t => t.sent == [.mediaAbort]) = true := by decide +kernel

-- R17, R23, R56: zero fill in place of an abandoned segment, or nothing; never its plaintext
theorem test_link_reset_fill :
    (atMedia .read .cipher 30).emptyPort.sent
      = .mediaAbort :: if Config.fillsAbandoned then [.readData 5 0 [.zeros 1]] else [] := by
  have h : allSlots.filterMap (atMedia .read .cipher 30).slotFill = [.readData 5 0 [.zeros 1]] := by decide +kernel
  show .mediaAbort :: (atMedia .read .cipher 30).abandonedFills = _
  rw [State.abandonedFills, h]
  cases Config.fillsAbandoned <;> rfl

-- Media port (R69, R70, R72)
theorem test_media_completion_failed :
    gives (.mediaCompletion 9 false) (atMedia .flush .plain 30)
      (fun t => t.sent.getLast? == some (.completion 5 .mediaError) && t.transfers == []) = true := by decide +kernel
theorem test_media_timeout_at_last_second :
    gives (.mediaTimeout 3) (atMedia .flush .plain 1)
      (fun t => t.sent.head? == some (.operationAbort 9)
        && t.sent.getLast? == some (.completion 5 .mediaTimeout)) = true := by decide +kernel
theorem test_media_data_beyond_range :
    gives (.mediaData 9 1 [0]) (atMedia .read .image 30) (fun t => t.sent == []
      && t.port.slots[(3 : SlotIx)].any fun x => x.arrived.length == 0) = true := by decide +kernel

-- Time (R70, R90, R125 to R128)
theorem test_second_tick :
    gives .secondTick { running with credentials := running.credentials.set 2 ⟨false, 16⟩ }
      (fun t => t.time.stamp == 1 && t.deadlines.seconds == 1
        && t.credentials[(2 : CredIx)].backoff == 15) = true
    ∧ gives .secondTick { running with time := ⟨.slow, 4294967295, .nothing⟩ }
      (fun t => t.time.stamp == 4294967295) = true := by decide +kernel
/-- Q is 15 and Dp 30: P goes from 14 to 29, and the deadline does not fire yet. -/
theorem test_q_mark_charges :
    gives .qMark { running with
        work := { running.work with deadlines := ⟨14, 0, 15, 30, 0⟩ }
        deadlines := { running.deadlines with seconds := 59, marks := 14 } }
      (fun t => t.work.deadlines.p == 29 && t.store.queue == [.deadlineCharge]
        && t.response.triggers == []) = true := by decide +kernel
theorem test_minute_counted :
    gives .minuteCounted { running with deadlines := { running.deadlines with seconds := 59 } }
      (fun t => t.deadlines.seconds == 0 && t.deadlines.marks == 1) = true := by decide +kernel
theorem test_slow_source_running :
    gives .slowSourceRunning running (fun t => t.time.source == .slow) = true := by decide +kernel
theorem test_time_fault :
    gives .timeFaultNeverStarted running (fun t => t.time.source == .faulted
      && t.alerts.queue.any fun a => a.kind == .timeFault && a.value == some 1) = true := by decide +kernel

-- Tamper lines (R116 to R119): TL0 RISING with a debounce of 2
theorem test_second_high_sample_is_the_event :
    gives (.sampleTick 1) (lineAt true true 1) (fun t => t.tamper.lines[(0 : LineIx)].latched
      && !t.tamper.armedA && t.alerts.queue.any fun a => a.kind == .tamper && a.value == some 1)
      = true
    ∧ gives (.sampleTick 1) (lineAt true false 9) (fun t => !t.tamper.lines[(0 : LineIx)].latched
      && t.tamper.armedA && t.tamper.lines[(0 : LineIx)].run == 1) = true := by decide +kernel
theorem test_group_rearms :
    gives (.groupRearm .a) (lineAt false false 2) (fun t => t.tamper.armedA) = true := by decide +kernel

-- Hold-up monitor (R168, R169): 2.0625 V gives code 160, the factory threshold
theorem test_conversion_at_threshold_passes :
    gives (.conversionEnd 2062500000) (waiting .deadlineCharge 3 running)
      (fun t => t.holdup.latestCode == 160 && t.store.writing.isSome) = true := by decide +kernel
theorem test_conversion_top_of_range :
    gives (.conversionEnd 3300000000) { running with holdup := ⟨true, 0, 0, false, false⟩ }
      (fun t => t.holdup.latestCode == 255 && !t.holdup.converting) = true := by decide +kernel
theorem test_eighth_low_code :
    gives (.conversionEnd 0) (waiting (.scrubShare 0 4) 7 running) (fun t => t.store.queue == []
      && t.management.buffer == some ⟨0x11, .storeUnsafe, []⟩) = true := by decide +kernel

-- Settings (R74, R132, R171): clamped on the way in, applied when answered done
theorem test_scrub_share_clamped :
    gives (.setScrubShare 16) running (fun t => t.store.queue == [.scrubShare 0 15]) = true := by decide +kernel
theorem test_scrub_share_done :
    gives .commitWriteEnd (writing (.scrubShare 0 15) running)
      (fun t => t.work.scrubShare == 15 && t.management.buffer == some ⟨0x11, .done, [15]⟩) = true := by
  decide +kernel
theorem test_deadline_clamped :
    gives (.setDeadline 1 0 61) running (fun t => t.store.queue == [.setDeadline 0 30 0 60]) = true := by
  decide +kernel
theorem test_window_of_zero_blocks_refused :
    gives (.setWindow 1 0) running (fun t => t.store.queue == [] && t.management.slot == .replyReady)
      = true := by decide +kernel

-- Credentials (R82, R83, R93)
theorem test_present_absent :
    gives (.present 1 0 0 0 [7]) running
      (fun t => t.management.buffer == some ⟨0x02, .notFound, []⟩) = true := by decide +kernel
theorem test_present_charges :
    gives (.present 1 0 0 0 [7]) (withCredential 1 0 running)
      (fun t => t.store.queue == [.charge ⟨0, 1, 0, 0, false⟩ [7]]) = true := by decide +kernel
theorem test_set_secret_clamps_cost :
    gives (.setSecret 0 13 [7]) running
      (fun t => t.random.queue == [.salt ⟨0, 0, [7], 12, true⟩]) = true := by decide +kernel

-- Regions (R27, R37): the worked sequence of section 12.4 defines region 1 as [4,096, 65,536)
theorem test_define_region_draws_generation_two :
    gives (.defineRegion 1 1 4096 61440 0 0 1 1) running
      (fun t => t.random.queue == [.key 1 2 .enabling]) = true := by decide +kernel
theorem test_lock_closes_a_right :
    gives (.lock 0 1 0) opened (fun t => t.regions[(0 : RegionIx)] == ⟨.opened, .locked, false, 0⟩
      && t.keys[(0 : RegionIx)].loaded.isSome) = true := by decide +kernel
theorem test_lock_of_both_rights_clears_the_key :
    gives (.lock 1 1 0) opened (fun t => t.keys[(0 : RegionIx)].loaded.isNone) = true := by decide +kernel
theorem test_erase_order_of_unused_region :
    gives (.eraseOrder 2 3) running (fun t => t.management.buffer == some ⟨0x0C, .notFound, []⟩) = true := by
  decide +kernel

-- Formats (R180 to R182), bytes written out from the tables of section 12.2
theorem test_grant_message : readMessage [0x06, 0, 3, 0, 2, 1, 3] = some (.grant 2 1 3) := by decide +kernel
theorem test_define_region_message :
    readMessage [0x09, 0, 18, 0, 1, 1, 0, 0x10, 0, 0, 0, 0, 0, 0xF0, 0, 0, 0, 0, 0, 0, 1, 1]
      = some (.defineRegion 1 1 4096 61440 0 0 1 1) := by decide +kernel
theorem test_present_message :
    readMessage [0x02, 2, 8, 0, 6, 0, 6, 0, 1, 2, 0xAA, 0xBB]
      = some (.present 2 6 6 1 [0xAA, 0xBB]) := by decide +kernel
theorem test_present_message_of_wrong_secret_length :
    readMessage [0x02, 2, 8, 0, 6, 0, 6, 0, 1, 3, 0xAA, 0xBB] = none := by decide +kernel
theorem test_alert_record :
    alertBytes ⟨.tamper, .high, some 3, none, some 0x80000004, 5, 1⟩
      = [0, 1, 3, 2, 0, 0, 4, 0, 0, 0x80, 5, 0, 0, 0, 1, 0] := by decide +kernel
theorem test_region_summary_length : (opened.regionSummary 0).length = 22 := by decide +kernel

end Sys2Proof.Tests
end

section
/-! PROOFS. The transfer table (section 1.2): which operations leave it as it is, which keep or drop tags, and
where a tag comes in. Every step keeps one entry per tag, under tags 0 to 63 (R2). -/

namespace Sys2Proof.Machine

variable (s : State)

/-- A reading of the state that every step of a fold leaves as it is. -/
theorem foldl_reads_same {α β γ : Type} (read : β → γ) {f : β → α → β} (h : ∀ b a, read (f b a) = read b)
    (l : List α) (b : β) : read (l.foldl f b) = read b :=
  foldl_keeps (fun c => read c = read b) f (fun c a hc => (h c a).trans hc) l b rfl

/-! ### Operations that leave the transfer table as it is -/

@[simp] theorem State.releaseController_transfers : s.releaseController.transfers = s.transfers := by simp

@[simp] theorem State.afterDisabling_transfers (r : RegionIx) : (s.afterDisabling r).transfers = s.transfers := by
  unfold State.afterDisabling
  repeat' split
  all_goals simp

@[simp] theorem State.endDisabling_transfers (r : RegionIx) : (s.endDisabling r).transfers = s.transfers := by
  simp [State.endDisabling]

@[simp] theorem State.rebuildBoundary_transfers : s.rebuildBoundary.transfers = s.transfers := rfl

@[simp] theorem State.entryToStart_transfers (r : RegionIx) : (s.entryToStart r).transfers = s.transfers := rfl

theorem State.defineDone_transfers (d : DefineRequest) : (s.defineDone d).transfers = s.transfers := by
  unfold State.defineDone
  cases d.kind with
  | enabling f => simp
  | change f => dsimp only; split <;> simp
  | disabling => simp

theorem State.defineUnsafe_transfers (d : DefineRequest) : (s.defineUnsafe d).transfers = s.transfers := by
  unfold State.defineUnsafe
  cases d.kind <;> simp

theorem State.chargeDone_transfers (p : PresentRequest) (secret : List Byte) :
    (s.chargeDone p secret).transfers = s.transfers := by
  unfold State.chargeDone
  dsimp only
  repeat' split
  all_goals simp

@[simp] theorem State.openRequest_transfers (p : PresentRequest) : (s.openRequest p).transfers = s.transfers := by
  have keeps (k : RightKind) (t : State) : (allRegions.foldl (State.openNamed p k) t).transfers = t.transfers :=
    foldl_reads_same State.transfers (fun b r => by simp) _ t
  rw [State.openRequest, keeps, keeps]

@[simp] theorem State.opening_transfers (p : PresentRequest) : (s.opening p).transfers = s.transfers := by
  unfold State.opening
  split
  · simp
  · dsimp only; split <;> simp

@[simp] theorem State.submitCountReset_transfers : s.submitCountReset.transfers = s.transfers := by
  unfold State.submitCountReset; split <;> simp

@[simp] theorem State.administratorRefund_transfers : s.administratorRefund.transfers = s.transfers := by
  unfold State.administratorRefund; dsimp only; split <;> simp

theorem State.refundDone_transfers (p : PresentRequest) : (s.refundDone p).transfers = s.transfers := by
  unfold State.refundDone; dsimp only; split <;> simp

theorem State.beginRevert_transfers (id : Nat) (scrub : Bool) : (s.beginRevert id scrub).transfers = s.transfers := by
  unfold State.beginRevert
  refine (foldl_reads_same State.transfers (fun b r => ?_) _ _).trans (by simp)
  split <;> simp

theorem State.revertChargeDone_transfers (id : Nat) (scrub : Bool) (code : List Byte) :
    (s.revertChargeDone id scrub code).transfers = s.transfers := by
  unfold State.revertChargeDone
  dsimp only
  repeat' split
  · rw [State.beginRevert_transfers]
  · simp
  · rfl

theorem State.keyDestructionDone_transfers (r : RegionIx) : (s.keyDestructionDone r).transfers = s.transfers := by
  unfold State.keyDestructionDone; dsimp only; split <;> simp

theorem State.responseEndDone_transfers : s.responseEndDone.transfers = s.transfers := by
  unfold State.responseEndDone; dsimp only; split <;> simp

theorem State.finishDone_transfers : s.finishDone.transfers = s.transfers := by
  unfold State.finishDone; split <;> simp

theorem State.revertDone_transfers (id : Nat) : (s.revertDone id).transfers = s.transfers := by
  unfold State.revertDone State.unloadOldHead
  split <;> simp [State.clearReverted, State.takeReverted]

theorem State.revertUnsafe_transfers (id : Nat) : (s.revertUnsafe id).transfers = s.transfers := by
  unfold State.revertUnsafe
  simp only [State.reply_rest]
  exact foldl_reads_same State.transfers (fun b r => by simp) _ _

@[simp] theorem State.resubmit_transfers (u : CommitUnit) : (s.resubmit u).transfers = s.transfers := by
  unfold State.resubmit; split <;> simp

/-- No answer of a done unit reaches the transfer table. -/
@[simp] theorem State.unitDone_transfers (u : CommitUnit) : (s.unitDone u).transfers = s.transfers := by
  cases u with
  | charge p secret => exact s.chargeDone_transfers p secret
  | revertCharge id scrub code => exact s.revertChargeDone_transfers id scrub code
  | refund p => exact s.refundDone_transfers p
  | regionDefinition d => exact s.defineDone_transfers d
  | keyDestruction r => simp [State.unitDone, State.keyDestructionDone_transfers]
  | responseEnd => exact s.responseEndDone_transfers
  | finish => exact s.finishDone_transfers
  | revert id scrub => exact s.revertDone_transfers id
  | _ => simp [State.unitDone, State.secretDone, State.removeDone, State.grantDone, State.limitDone,
      State.resetAttemptsDone, State.ratchetDone, State.responseBeginDone, State.checkpointDone,
      State.setResponseDone, State.tamperDone, State.deadlineDone, State.holdupDone, State.setWindowDone,
      State.imageLengthDone, State.labelDone, State.scrubShareDone, State.mediaTimeoutDone]

/-- What a unit answers that never met the gate leaves the transfer table as it is. -/
@[simp] theorem State.unitUnsafe_transfers (u : CommitUnit) : (s.unitUnsafe u).transfers = s.transfers := by
  cases u with
  | regionDefinition d => exact s.defineUnsafe_transfers d
  | keyDestruction r => simp only [State.unitUnsafe]; split <;> simp
  | revert id scrub => exact s.revertUnsafe_transfers id
  | _ => simp [State.unitUnsafe]

@[simp] theorem State.submitDeferred_transfers (q : Requester) : (s.submitDeferred q).transfers = s.transfers := by
  unfold State.submitDeferred
  generalize s.store.deferred.length = n
  induction n generalizing s with
  | zero => rfl
  | succ n ih =>
    unfold State.submitDeferredUpTo
    split
    · rfl
    · split
      · rfl
      · dsimp only
        split <;> simp [ih, State.dropDeferred]

@[simp] theorem State.derivationEnds_transfers : s.derivationEnds.transfers = s.transfers := by
  unfold State.derivationEnds
  dsimp only
  repeat' split
  all_goals simp

@[simp] theorem State.endDraw_transfers (bits : BitVec 512) : (s.endDraw bits).transfers = s.transfers := by
  unfold State.endDraw State.saltArrives
  repeat' split
  all_goals dsimp only
  all_goals repeat' split
  all_goals simp

@[simp] theorem State.groupEvent_transfers (g : Group) (lines : List LineIx) (b : Bool) :
    (s.groupEvent g lines b).transfers = s.transfers := by
  have latched (t : State) : (lines.foldl State.latch t).transfers = t.transfers :=
    foldl_reads_same State.transfers (fun b n => by simp) _ t
  simp [State.groupEvent, latched]

@[simp] theorem State.eventIfDue_transfers (g : Group) : (s.eventIfDue g).transfers = s.transfers := by
  unfold State.eventIfDue; split <;> simp

@[simp] theorem State.rearmIfDue_transfers (g : Group) : (s.rearmIfDue g).transfers = s.transfers := by
  unfold State.rearmIfDue; split <;> simp

@[simp] theorem State.sample_transfers (levels : BitVec 4) : (s.sample levels).transfers = s.transfers := by
  refine (foldl_reads_same State.transfers (fun b g => ?_) _ _).trans (s.sampleLines_rest levels).2.2.2.2.2.2.2.2.1
  unfold State.evaluate; split <;> simp

@[simp] theorem State.firstSample_transfers (levels : BitVec 4) : (s.firstSample levels).transfers = s.transfers := by
  refine (foldl_reads_same State.transfers (fun b g => ?_) _ _).trans rfl
  unfold State.findOpen; dsimp only; repeat' split
  all_goals simp

/-! ### Operations that keep the tags in use -/

/-- The tags of the transfer table's entries. -/
def State.tags (s : State) : List Nat := s.transfers.map Transfer.tag

theorem State.tags_of_transfers {s t : State} (h : t.transfers = s.transfers) : t.tags = s.tags := by
  rw [State.tags, h, State.tags]

theorem State.tags_sublist_of_transfers {s t : State} (h : t.transfers = s.transfers) : t.tags.Sublist s.tags :=
  State.tags_of_transfers h ▸ List.Sublist.refl _

theorem State.setTransfer_tags (t : Transfer) : (s.setTransfer t).tags = s.tags := by
  simp only [State.tags, State.setTransfer_transfers, List.map_map]
  refine List.map_congr_left fun x _ => ?_
  simp only [Function.comp_apply]
  split
  · rename_i h; exact h.symm
  · rfl

theorem State.issueSegment_tags (i : SlotIx) (t : Transfer) (index : Nat) (seg : Segment) :
    (s.issueSegment i t index seg).tags = s.tags := by
  rw [← s.setTransfer_tags { t with segments := t.segments.set index { seg with state := .atMedia } }]
  apply State.tags_of_transfers
  unfold State.issueSegment
  dsimp only
  split <;> simp

theorem State.grantSegment_tags (i : SlotIx) : (s.grantSegment i).tags = s.tags := by
  unfold State.grantSegment
  split
  · rfl
  · dsimp only
    repeat' split
    · rfl
    · rfl
    · rw [State.issueSegment_tags]; rfl

theorem State.grantOnce_tags (g : Grant) : (s.grantOnce g).tags = s.tags := by
  cases g with
  | host i => exact s.grantSegment_tags i
  | _ => simp [State.grantOnce, State.tags]

theorem State.arbitrate_tags (n : Nat) : (s.arbitrate n).tags = s.tags := by
  induction n generalizing s with
  | zero => rfl
  | succ n ih =>
    unfold State.arbitrate
    split
    · rfl
    · rw [ih, State.grantOnce_tags]

@[simp] theorem State.serveMedia_tags : s.serveMedia.tags = s.tags := by
  rw [State.serveMedia, State.tags_of_transfers (s := (s.placeOffer.arbitrate 16)) (by simp), State.arbitrate_tags,
    State.tags_of_transfers (s := s) (by simp)]

/-- The end of an event makes and ends no entry. -/
@[simp] theorem State.settle_tags : s.settle.tags = s.tags := by
  have served (t : State) : t.serveMedia.serveStore.tags = t.tags :=
    (State.tags_of_transfers (by simp)).trans t.serveMedia_tags
  rw [State.settle, served]
  exact State.tags_of_transfers (by simp)

theorem State.tags_of_settle {s t : State} (h : t.transfers = s.transfers) : t.settle.tags = s.tags := by
  rw [State.settle_tags, State.tags_of_transfers h]

theorem defineRegionRequest_tags (id : Nat) (r e : Byte) (st n : BitVec 48) (pr pw cl ab : Byte) :
    (defineRegionRequest id r e st n pr pw cl ab s).tags = s.tags := by
  have replied (k : Byte) (c : ResultCode) (b : List Byte) : (s.reply id k c b).tags = s.tags :=
    State.tags_of_transfers (by simp)
  have disabling (r : RegionIx) : (s.beginDisabling id r).tags = s.tags := State.tags_of_settle (by simp)
  have change (r : RegionIx) (f : RegionFields) : (s.beginChange id r f).tags = s.tags :=
    State.tags_of_transfers (by simp [State.beginChange])
  have enabling (r : RegionIx) (f : RegionFields) : (s.beginEnabling id r f).tags = s.tags :=
    State.tags_of_transfers (by simp [State.beginEnabling])
  unfold defineRegionRequest
  split
  · exact replied _ _ _
  · dsimp only
    simp only [apply_ite State.tags, replied, disabling, change, enabling, ite_self]

theorem eraseOrderRequest_tags (id : Nat) (m : BitVec 16) (l : Byte) :
    (eraseOrderRequest id m l s).tags = s.tags := by
  unfold eraseOrderRequest
  split
  · exact State.tags_of_transfers (by simp)
  · split
    · exact State.tags_of_transfers (by simp)
    · exact State.tags_of_settle (by simp [State.triggerOrder])

/-- A request that passed the channel's checks keeps the tags in use: its owning block answers it, draws, or
submits a unit, and only a disabling and an erase order go on to what the event brings about elsewhere. -/
theorem handRequest_tags (id : Nat) (i : Instr) : (handRequest id i s).tags = s.tags := by
  cases i with
  | defineRegion r e st n pr pw cl ab => exact defineRegionRequest_tags s id r e st n pr pw cl ab
  | eraseOrder m l => exact eraseOrderRequest_tags s id m l
  | lock r w f =>
    refine State.tags_of_transfers ?_
    simp only [handRequest, lockRequest, State.reply_rest]
    split <;> simp
  | statusQuery | fetchAlerts _ | setScrubShare _ | setMediaTimeout _ | clearTamper _ =>
    exact State.tags_of_transfers (by
      simp [handRequest, statusQueryRequest, fetchAlertsRequest, setScrubShareRequest, setMediaTimeoutRequest,
        clearTamperRequest])
  | _ =>
    -- each of its checks is answered by a reply; what passes them draws, submits a unit or sets the window
    refine State.tags_of_transfers ?_
    simp only [handRequest, presentRequest, setSecretRequest, removeCredentialRequest, grantRequest,
      setLimitRequest, resetAttemptsRequest, ratchetRequest, setResponseRequest, setTamperRequest,
      setDeadlineRequest, setHoldupRequest, setWindowRequest, beginLoadRequest, endLoadRequest, setLabelRequest,
      retireWindowRequest, revertRequest]
    repeat' split
    all_goals simp [State.setWindowState]

/-- An answer to the head of the commit queue keeps the tags in use. -/
theorem State.answerDone_tags (u : CommitUnit) (image : Records) : (s.answerDone u image).tags = s.tags :=
  State.tags_of_settle (by simp [State.popHead])

theorem State.answerUnsafe_tags (u : CommitUnit) : (s.answerUnsafe u).tags = s.tags :=
  State.tags_of_settle (by simp [State.popHead])

theorem State.conversionEnds_tags (code : Nat) : (s.conversionEnds code).tags = s.tags := by
  have entered (t : State) : (t.enterEpisode code).transfers = t.transfers := by
    unfold State.enterEpisode; split <;> simp
  unfold State.conversionEnds State.codePasses State.codeLow
  split
  · dsimp only
    repeat' split
    all_goals first
      | rw [State.answerUnsafe_tags]; exact State.tags_of_transfers ((entered _).trans rfl)
      | exact State.tags_of_transfers ((entered _).trans rfl)
      | rfl
  · rfl

/-! ### Operations that end transfers -/

/-- A completed transfer leaves the table; one with segments outstanding stands there with its new entry (R18). -/
theorem State.completeIfDone_transfers (t : Transfer) : (s.completeIfDone t).transfers =
    if t.outstanding = 0 then s.transfers.filter fun x => x.tag != t.tag
    else s.transfers.map fun x => if x.tag = t.tag then t else x := by
  unfold State.completeIfDone; split <;> rfl

theorem State.completeIfDone_tags (t : Transfer) : (s.completeIfDone t).tags.Sublist s.tags := by
  unfold State.completeIfDone
  split
  · exact List.filter_sublist.map _
  · exact (s.setTransfer_tags t).symm ▸ List.Sublist.refl _

/-- What a segment's end does to the transfer table: its transfer's entry is completed or renewed (R16, R18). -/
theorem State.takeSegment_transfers {tag index : Nat} {t : Transfer} {seg : Segment} (ht : s.transfer tag = some t)
    (hs : t.segments[index]? = some seg) (status : Status) (held : List Block) :
    (s.takeSegment tag index status held).transfers
      = (s.completeIfDone (t.segmentDone index seg status)).transfers := by
  simp only [State.takeSegment, ht, hs]
  split <;> split <;> simp [State.completeIfDone_transfers]

theorem State.takeSegment_tags (tag index : Nat) (status : Status) (held : List Block) :
    (s.takeSegment tag index status held).tags.Sublist s.tags := by
  cases ht : s.transfer tag with
  | none => simp [State.takeSegment, ht]
  | some t =>
    cases hs : t.segments[index]? with
    | none => simp [State.takeSegment, ht, hs]
    | some seg =>
      rw [State.tags_of_transfers (s.takeSegment_transfers ht hs status held)]
      exact s.completeIfDone_tags _

theorem State.release_tags (i : SlotIx) (x : SlotRecord) (status : Status) :
    (s.release i x status).tags.Sublist s.tags := by
  unfold State.release
  split
  · exact State.takeSegment_tags (s.setSlot i none) _ _ _ _
  · exact State.tags_sublist_of_transfers (by simp)

theorem State.expire_tags (i : SlotIx) : (s.expire i).tags.Sublist s.tags := by
  unfold State.expire
  split
  · exact List.Sublist.refl _
  · exact State.release_tags (s.send _) _ _ _

theorem State.takeCompletion_tags (operation : BitVec 32) (good : Bool) :
    (s.takeCompletion operation good).tags.Sublist s.tags := by
  unfold State.takeCompletion
  split
  · exact List.Sublist.refl _
  · split
    · exact List.Sublist.refl _
    · rw [State.settle_tags]; exact s.release_tags _ _ _

theorem State.expireSlots_tags (slots : List SlotIx) : (s.expireSlots slots).tags.Sublist s.tags := by
  refine foldl_relates (fun a b => b.tags.Sublist a.tags) (fun a => List.Sublist.refl _)
    (fun _ _ _ h g => g.trans h) _ (fun t i => ?_) slots s
  rw [State.serveMedia_tags, State.tags_of_transfers (s := t.expire i) (by simp)]
  exact t.expire_tags i

/-- A second tick ends at most the transfers whose media time has run out (R70, R125). -/
theorem State.second_tags : s.second.tags.Sublist s.tags := by
  have counted (t : State) : t.tickStamp.countSecond.transfers = t.transfers := by
    unfold State.countSecond; split <;> simp [State.tickStamp]
  rw [State.second, State.tags_of_transfers (counted _)]
  exact State.expireSlots_tags s.tickBackoffs.tickSlots _

theorem State.seeStopped_tags : s.seeStopped.tags.Sublist s.tags := by
  unfold State.seeStopped
  split
  · exact (State.tags_sublist_of_transfers (by simp)).trans
      (State.second_tags { s with time := { s.time with source := .faulted } })
  · exact List.Sublist.refl _

@[simp] theorem State.linkReset_tags : s.linkReset.tags = [] := by
  have zeroed (t : State) : (allRegions.foldl State.zeroAdmitted t).transfers = t.transfers :=
    foldl_reads_same State.transfers (fun b r => by simp) _ t
  have : (([] : List Transfer).map Transfer.tag) = [] := rfl
  rw [State.linkReset, State.settle_tags, State.tags, ← this]
  simp [zeroed, State.emptyPort]

/-! ### Where a tag comes in: admission (R2, R3) -/

variable {s}

theorem State.tagLaw_iff : s.TagLaw ↔ s.tags.Nodup ∧ ∀ n ∈ s.tags, n ≤ 63 := by
  simp [State.TagLaw, State.tags]

/-- The law stays where tags at most go. -/
theorem State.TagLaw.of_tags_sublist {t : State} (h : s.TagLaw) (g : t.tags.Sublist s.tags) : t.TagLaw := by
  rw [State.tagLaw_iff] at *
  exact ⟨h.1.sublist g, fun n hn => h.2 n (g.subset hn)⟩

theorem State.TagLaw.of_tags_eq {t : State} (h : s.TagLaw) (g : t.tags = s.tags) : t.TagLaw :=
  h.of_tags_sublist (g ▸ List.Sublist.refl _)

theorem State.transfer_isSome_iff (tag : Nat) : (s.transfer tag).isSome = true ↔ ∃ t ∈ s.transfers, t.tag = tag := by
  simp [State.transfer]

/-- The tag check passes exactly for a tag from 0 to 63 that no entry holds (R3). -/
theorem State.tagCheck_eq_none_iff (tag : BitVec 8) : s.tagCheck tag = none ↔ s.TagFree tag.toNat := by
  have free : ¬ (s.transfer tag.toNat).isSome = true ↔ ∀ t ∈ s.transfers, t.tag ≠ tag.toNat := by
    rw [State.transfer_isSome_iff]; push Not; rfl
  unfold State.tagCheck State.TagFree
  rw [← free]
  split
  · simp; omega
  · split
    · simp [*]
    · simp [*]; omega

theorem State.raiseAdmitted_frame (s : State) (x : Segment) :
    s.raiseAdmitted x = { s with regions := (s.raiseAdmitted x).regions } := by
  unfold State.raiseAdmitted; split <;> rfl

theorem State.serveAtAdmission_frame (s : State) (tag start : Nat) (kind : TransferKind) (x : Segment) :
    s.serveAtAdmission tag start kind x = { s with sent := (s.serveAtAdmission tag start kind x).sent } := by
  unfold State.serveAtAdmission
  split
  · rfl
  · cases kind <;> rfl

/-- An admitted transfer adds at most its own tag. -/
theorem State.admitTransfer_tags (s : State) (t : Transfer) :
    (s.admitTransfer t).tags = s.tags ∨ (s.admitTransfer t).tags = s.tags ++ [t.tag] := by
  have raised : (t.segments.foldl State.raiseAdmitted s).transfers = s.transfers :=
    foldl_reads_same State.transfers (fun b x => by rw [State.raiseAdmitted_frame]) _ s
  have served (u : State) :
      (t.segments.foldl (State.serveAtAdmission t.tag t.start t.kind) u).transfers = u.transfers :=
    foldl_reads_same State.transfers (fun b x => by rw [State.serveAtAdmission_frame]) _ u
  unfold State.admitTransfer State.enterTransfer
  split
  · exact .inl (State.tags_of_transfers (by simp [served, raised]))
  · exact .inr (by simp [State.tags, served, raised])

/-- Admitting a transfer under a free tag keeps the law. -/
theorem State.TagLaw.admitTransfer {t : Transfer} (h : s.TagLaw) (free : s.TagFree t.tag) :
    (s.admitTransfer t).serveMedia.TagLaw := by
  refine State.TagLaw.of_tags_eq ?_ (State.serveMedia_tags _)
  rcases s.admitTransfer_tags t with g | g
  · exact h.of_tags_eq g
  · have fresh : t.tag ∉ s.tags := by simpa [State.tags] using fun x hx => free.2 x hx
    rw [State.tagLaw_iff] at *
    rw [g]
    refine ⟨List.nodup_append.mpr ⟨h.1, by simp, fun n hn m hm => ?_⟩, fun n hn => ?_⟩
    · rintro rfl
      exact fresh (List.mem_singleton.mp hm ▸ hn)
    rcases List.mem_append.mp hn with hn | hn
    · exact h.2 n hn
    · exact (List.mem_singleton.mp hn) ▸ free.1

theorem State.TagLaw.takeBlocks (h : s.TagLaw) (kind : TransferKind) (tag : BitVec 8) (start : BitVec 48)
    (count : BitVec 17) (data : List Block) : (s.takeBlocks kind tag start count data).TagLaw := by
  unfold State.takeBlocks
  split
  · exact h
  · rename_i free
    repeat' split
    · exact h
    · dsimp only
      split
      · exact h
      · exact h.admitTransfer ((State.tagCheck_eq_none_iff tag).mp free)

theorem State.TagLaw.takeFlush (h : s.TagLaw) (tag : BitVec 8) : (s.takeFlush tag).TagLaw := by
  unfold State.takeFlush
  split
  · exact h
  · rename_i free
    exact h.admitTransfer ((State.tagCheck_eq_none_iff tag).mp free)

theorem State.takeMessage_tags (s : State) (kind : Byte) (read : Option Instr) :
    (s.takeMessage kind read).tags = s.tags := by
  unfold State.takeMessage
  dsimp only
  repeat' split
  · exact State.tags_of_transfers (by simp)
  · exact State.tags_of_transfers (by simp)
  · exact handRequest_tags _ _ _

theorem State.offerRequest_tags (s : State) (i : Instr) : (s.offerRequest i).tags = s.tags := by
  unfold State.offerRequest
  split
  · rfl
  · exact s.takeMessage_tags _ _

theorem State.takeManageSend_tags (s : State) (tag : BitVec 8) (message : List Byte) :
    (s.takeManageSend tag message).tags = s.tags := by
  unfold State.takeManageSend
  repeat' split
  · rfl
  · rfl
  · rfl
  · exact State.takeMessage_tags _ _ _

theorem State.takeManageFetch_tags (s : State) (tag : BitVec 8) : (s.takeManageFetch tag).tags = s.tags := by
  unfold State.takeManageFetch
  split <;> rfl

/-- A request taken from the upstream port keeps the law: the transfer kinds by the tag check, the others by
leaving the table alone (R2, R3). -/
theorem State.TagLaw.takeRequest (h : s.TagLaw) (i : Instr) : (s.takeRequest i).TagLaw := by
  cases i with
  | read tag start count => exact h.takeBlocks _ _ _ _ _
  | write tag start count data => exact h.takeBlocks _ _ _ _ _
  | discard tag start count => exact h.takeBlocks _ _ _ _ _
  | flush tag => exact h.takeFlush tag
  | manageSend tag message => exact h.of_tags_eq (s.takeManageSend_tags tag message)
  | manageFetch tag => exact h.of_tags_eq (s.takeManageFetch_tags tag)
  | _ => first | exact h | exact h.of_tags_eq (s.offerRequest_tags _)

theorem State.TagLaw.request (h : s.TagLaw) (i : Instr) : (s.request i).TagLaw := by
  unfold State.request
  split
  · exact h.takeRequest i
  · exact h

theorem State.TagLaw.takeOffered (h : s.TagLaw) : s.takeOffered.TagLaw := by
  unfold State.takeOffered
  split
  · exact foldl_keeps State.TagLaw _ (fun t i ht => ht.takeRequest i) _ _ h
  · exact h

theorem State.TagLaw.settle (h : s.TagLaw) : s.settle.TagLaw := h.of_tags_eq s.settle_tags

theorem State.TagLaw.of_transfers {t : State} (h : s.TagLaw) (g : t.transfers = s.transfers) : t.TagLaw :=
  h.of_tags_eq (State.tags_of_transfers g)

/-! ### The step -/

theorem State.TagLaw.sampleTick (h : s.TagLaw) (levels : BitVec 4) : (s.sampleTick levels).TagLaw := by
  unfold State.sampleTick
  split
  · exact h
  · refine (State.TagLaw.settle (h.of_transfers ?_)).takeOffered
    simp [State.stepFive]
  · exact (h.of_transfers (s.sample_transfers levels)).settle
  · exact (h.of_transfers (s.sample_transfers levels)).settle

theorem State.firstSteps_transfers (s : State) : s.firstSteps.transfers = s.transfers := by
  have ticking (t : State) : t.startTicks.transfers = t.transfers := by
    unfold State.startTicks; dsimp only; split <;> simp
  have read : s.readStore.transfers = s.transfers := rfl
  unfold State.firstSteps
  dsimp only
  split <;> split <;> simp [ticking, read]

/-- A command that gives a state with no tag but those there were. -/
theorem State.TagLaw.of_next {t u : State} {i : Instr} (h : s.TagLaw) (he : exec i s = .next t)
    (hu : exec i s = .next u) (g : u.tags.Sublist s.tags) : t.TagLaw := by
  rw [hu] at he; cases he; exact h.of_tags_sublist g

/-- Every command keeps the law. -/
theorem State.TagLaw.exec {t : State} (h : s.TagLaw) {i : Instr} (he : Machine.exec i s = .next t) : t.TagLaw := by
  have request (j : Instr) (hj : Machine.exec i s = .next (s.quiet.request j)) : t.TagLaw := by
    rw [hj] at he; cases he; exact State.TagLaw.request (s := s.quiet) h j
  have same {u v : State} (g : v.transfers = s.transfers) (hu : u.tags = v.tags) : u.tags.Sublist s.tags :=
    hu ▸ State.tags_sublist_of_transfers g
  have guarded {c : Prop} [Decidable c] {u : State} (g : u.tags.Sublist s.tags) :
      (if c then u else s.quiet).tags.Sublist s.tags := by
    split
    · exact g
    · exact List.Sublist.refl _
  have ended {u : State} (g : u.tags.Sublist s.tags) : u.settle.tags.Sublist s.tags := by
    rw [State.settle_tags]; exact g
  have settled {u : State} (g : u.transfers = s.transfers) : u.settle.tags.Sublist s.tags :=
    same g u.settle_tags
  cases i with
  | powerGoodRise => cases he; simp [State.TagLaw, State.rebuildBoundary, State.atPowerOn]
  | powerGoodFall => cases he; exact h
  | storeReadEnd =>
    exact h.of_next he rfl (guarded (settled (State.firstSteps_transfers s.quiet)))
  | linkReset => exact h.of_next he rfl (by simp)
  | mediaData operation offset block =>
    exact h.of_next he rfl (guarded (State.tags_sublist_of_transfers (by simp)))
  | mediaCompletion operation good =>
    exact h.of_next he rfl (guarded (State.takeCompletion_tags s.quiet operation good))
  | mediaTimeout slot =>
    exact h.of_next he rfl (guarded (ended (State.expire_tags s.quiet slot)))
  | segmentIssue =>
    refine h.of_next he rfl ?_
    split
    · exact same rfl (State.grantOnce_tags s.quiet _)
    all_goals exact List.Sublist.refl _
  | chunkIssue =>
    refine h.of_next he rfl ?_
    split
    · exact same rfl (State.grantOnce_tags s.quiet _)
    · exact same rfl (State.grantOnce_tags s.quiet _)
    all_goals exact List.Sublist.refl _
  | secondTick =>
    exact h.of_next he rfl (guarded (ended (State.second_tags s.quiet)))
  | minuteCounted => exact h.of_next he rfl (guarded (settled (by simp)))
  | qMark =>
    refine h.of_next he rfl (guarded (settled ?_))
    unfold State.takeQMark
    dsimp only
    split <;> simp
  | backoffEnd credential => exact h.of_next he rfl (guarded (List.Sublist.refl _))
  | revertBackoffEnd => exact h.of_next he rfl (guarded (List.Sublist.refl _))
  | sampleTick levels => cases he; exact State.TagLaw.sampleTick (s := s.quiet) h levels
  | tamperEvent group => exact h.of_next he rfl (settled (by simp))
  | groupRearm group => exact h.of_next he rfl (State.tags_sublist_of_transfers (by simp))
  | slowSourceRunning =>
    refine h.of_next he rfl (State.tags_sublist_of_transfers ?_)
    unfold State.seeSlow
    repeat' split
    all_goals rfl
  | timeFaultNeverStarted =>
    refine h.of_next he rfl (settled ?_)
    unfold State.seeNeverStarted
    repeat' split
    all_goals simp
  | timeFaultStopped =>
    exact h.of_next he rfl (ended (State.seeStopped_tags s.quiet))
  | randomSourceReady => cases he; exact h
  | randomDrawEnd bits =>
    cases he
    split
    · exact (State.TagLaw.of_transfers (s := s) h (by simp)).settle.takeOffered
    · exact h
  | derivationEnd => exact h.of_next he rfl (settled (by simp))
  | conversionEnd nanovolts => exact h.of_next he rfl (same rfl (State.conversionEnds_tags s.quiet _))
  | commitWriteStart =>
    refine h.of_next he rfl (State.tags_sublist_of_transfers ?_)
    unfold State.passHead
    split
    · split <;> rfl
    · rfl
  | commitWriteEnd =>
    refine h.of_next he rfl ?_
    unfold State.writeEnds
    split
    · exact same rfl (State.answerDone_tags s.quiet _ _)
    · exact List.Sublist.refl _
  | deferredUnitSubmit requester => exact h.of_next he rfl (settled (by simp))
  | keyDestruction region => exact h.of_next he rfl (settled (by simp))
  | responseTake => exact h.of_next he rfl (settled (by simp))
  | scrubWalkStart => exact h.of_next he rfl (settled (by simp))
  | _ => exact request _ rfl

end Sys2Proof.Machine

namespace Sys2Proof.Proofs

open Sys2Proof Sys2Proof.Machine

/-- Settles O6: every command keeps the law, the idle step too. -/
theorem tagLawKept : Obligations.TagLawKept := by
  intro s t h hs
  unfold step at hs
  split at hs
  · cases hs; exact h
  · rename_i i rest _
    exact State.TagLaw.exec (s := { s with pending := rest }) h hs

end Sys2Proof.Proofs
end

section
/-! PROOFS. Admission (chapter 1): the checks of R3 and R4, refusals (R12), admitted transfers (R13, R15, R17,
R18) and FLUSH (R19). -/

namespace Sys2Proof.Machine

variable {s : State}

/-! ### What a transfer request does in its taking event -/

/-- The row of a transfer kind offers the request to the upstream port. -/
theorem exec_transfer {i : Instr} {tag : BitVec 8} (h : requestTag i = some tag) (s : State) :
    exec i s = .next (s.quiet.request i) := by
  cases i <;> cases h <;> rfl

theorem State.request_ready (h : s.startUp.portReady = true) (i : Instr) :
    s.quiet.request i = s.quiet.takeRequest i := by
  simp [State.request, h]

/-- Only a completion is sent. -/
theorem State.quiet_send_completion (tag : Nat) (status : Status) :
    s.quiet.send (.completion tag status) = s.completes tag status := rfl

/-- A transfer request whose tag check fails completes with its status. -/
theorem State.takeRequest_of_tagCheck {i : Instr} {tag : BitVec 8} {status : Status} (h : requestTag i = some tag)
    (hc : s.tagCheck tag = some status) : s.quiet.takeRequest i = s.completes tag.toNat status := by
  have hq : s.quiet.tagCheck tag = some status := hc
  cases i <;> cases h <;>
    simp only [State.takeRequest, State.takeBlocks, State.takeFlush, State.takeManageSend, State.takeManageFetch,
      hq, State.quiet_send_completion]

theorem State.tagCheck_of_held {tag : BitVec 8} (h : tag.toNat ≤ 63) (held : ∃ t ∈ s.transfers, t.tag = tag.toNat) :
    s.tagCheck tag = some .tagInUse := by
  rw [State.tagCheck, if_neg (by omega), if_pos (s.transfer_isSome_iff _ |>.mpr held)]

/-- A READ, WRITE or DISCARD is taken by the admission unit with its fields. -/
theorem exec_blocks {i : Instr} {kind : TransferKind} {tag start count : Nat} {data : List Block}
    (hp : s.startUp.portReady = true) (h : blockFields i = some (kind, tag, start, count, data)) :
    ∃ (g : BitVec 8) (a : BitVec 48) (n : BitVec 17), g.toNat = tag ∧ a.toNat = start ∧ n.toNat = count
      ∧ exec i s = .next (s.quiet.takeBlocks kind g a n data) := by
  have taken (j : Instr) (g : BitVec 8) (hg : requestTag j = some g) : exec j s = .next (s.quiet.takeRequest j) := by
    rw [exec_transfer hg, State.request_ready hp]
  cases i <;> cases h <;> exact ⟨_, _, _, rfl, rfl, rfl, taken _ _ rfl⟩

theorem State.plan_quiet (kind : TransferKind) (stop n p : Nat) :
    s.quiet.plan kind stop n p = s.plan kind stop n p := by
  induction n generalizing p with
  | zero => rfl
  | succ n ih =>
    have same : s.quiet.segmentAt kind stop p = s.segmentAt kind stop p := rfl
    simp only [State.plan, same, ih]

/-- The range check passes exactly for a range that lies in the part (R4). -/
theorem State.rangeCheck_eq_none_iff (start count : Nat) :
    s.rangeCheck start count = none ↔ s.RangeFits start count := by
  unfold State.rangeCheck State.RangeFits
  split
  · simp; omega
  · split
    · simp; omega
    · split
      · simp; omega
      · simp; omega

/-- A transfer that passes both checks and has a refused segment completes with the first refusal (R12). -/
theorem State.takeBlocks_refused {kind : TransferKind} {tag : BitVec 8} {start : BitVec 48} {count : BitVec 17}
    {status : Status} (free : s.TagFree tag.toNat) (fits : s.RangeFits start.toNat count.toNat) (data : List Block)
    (h : refusalOf (s.plan kind (start.toNat + count.toNat) count.toNat start.toNat) = some status) :
    s.quiet.takeBlocks kind tag start count data = s.completes tag.toNat status := by
  have ht : s.quiet.tagCheck tag = none := (State.tagCheck_eq_none_iff tag).mpr free
  have hr : s.quiet.rangeCheck start.toNat count.toNat = none := (State.rangeCheck_eq_none_iff _ _).mpr fits
  simp only [State.takeBlocks, ht, hr, State.plan_quiet, h, State.quiet_send_completion]

/-- A transfer that passes both checks and has no refused segment is admitted with its plan (R13). -/
theorem State.takeBlocks_admitted {kind : TransferKind} {tag : BitVec 8} {start : BitVec 48} {count : BitVec 17}
    (free : s.TagFree tag.toNat) (fits : s.RangeFits start.toNat count.toNat) (data : List Block)
    (h : refusalOf (s.plan kind (start.toNat + count.toNat) count.toNat start.toNat) = none) :
    s.quiet.takeBlocks kind tag start count data = (s.quiet.admitTransfer (admittedEntry tag.toNat kind start.toNat
      count.toNat data (s.plan kind (start.toNat + count.toNat) count.toNat start.toNat))).serveMedia := by
  have ht : s.quiet.tagCheck tag = none := (State.tagCheck_eq_none_iff tag).mpr free
  have hr : s.quiet.rangeCheck start.toNat count.toNat = none := (State.rangeCheck_eq_none_iff _ _).mpr fits
  simp only [State.takeBlocks, ht, hr, State.plan_quiet, h]

end Sys2Proof.Machine

namespace Sys2Proof.Proofs

open Sys2Proof Sys2Proof.Machine

/-- Settles O15: each of the three requests ends at the check of its tag or kind. -/
theorem tagAndKindChecked : Obligations.TagAndKindChecked := by
  intro s i tag hp
  refine ⟨?_, fun h large => ?_, fun h small held => ?_⟩
  · show Host.Outcome.next (s.quiet.request (.requestOfUnknownKind tag)) = _
    rw [State.request_ready hp]
    rfl
  · rw [exec_transfer h, State.request_ready hp, State.takeRequest_of_tagCheck h (if_pos large)]
  · rw [exec_transfer h, State.request_ready hp, State.takeRequest_of_tagCheck h (State.tagCheck_of_held small held)]

/-- Settles O16: the range check gives the status R4 names. -/
theorem rangeChecked : Obligations.RangeChecked := by
  intro s i kind tag start count data hp hb free
  obtain ⟨g, a, n, rfl, rfl, rfl, hx⟩ := exec_blocks hp hb
  have ht : s.quiet.tagCheck g = none := (State.tagCheck_eq_none_iff g).mpr free
  have refused (status : Status) (hr : s.rangeCheck a.toNat n.toNat = some status) :
      exec i s = .next (s.completes g.toNat status) := by
    have hq : s.quiet.rangeCheck a.toNat n.toNat = some status := hr
    simp only [hx, State.takeBlocks, ht, hq, State.quiet_send_completion]
  refine ⟨fun h => refused _ (if_pos h), fun h0 h1 h => refused _ ?_⟩
  rw [State.rangeCheck, if_neg (by omega)]
  rcases h with h | h
  · rw [if_pos h]
  · simp [h]

end Sys2Proof.Proofs
end

section
/-! PROOFS. The segment-planning walk (R6, R7): a plan tiles its range, each segment lies in one owner with that
owner's disposition (R9 to R11), and no transfer has more than 32 segments. -/

namespace Sys2Proof.Machine

variable {s : State}

/-! ### Tilings -/

theorem Tiles.le {xs : List Segment} {a b : Nat} (h : Tiles xs a b) : a ≤ b := by
  induction xs generalizing a with
  | nil => exact le_of_eq h
  | cons x xs ih => exact (Nat.le_add_right a x.count).trans (ih h.2.2)

/-- Every segment of a tiling lies in it and is not empty. -/
theorem Tiles.mem {xs : List Segment} {a b : Nat} (h : Tiles xs a b) {x : Segment} (hx : x ∈ xs) :
    a ≤ x.first ∧ 0 < x.count ∧ x.first + x.count ≤ b := by
  induction xs generalizing a with
  | nil => cases hx
  | cons y ys ih =>
    obtain ⟨hf, hc, ht⟩ := h
    rcases List.mem_cons.mp hx with rfl | hx
    · have := ht.le
      omega
    · have := ih ht hx
      omega

/-- The segments of a tiling stand in LBA order, each after the end of those before it. -/
theorem Tiles.pairwise {xs : List Segment} {a b : Nat} (h : Tiles xs a b) :
    xs.Pairwise fun x y => x.first + x.count ≤ y.first := by
  induction xs generalizing a with
  | nil => exact List.Pairwise.nil
  | cons x xs ih =>
    obtain ⟨rfl, hc, ht⟩ := h
    exact List.Pairwise.cons (fun y hy => (ht.mem hy).1) (ih ht)

/-! ### The boundary list (R27) -/

theorem insertSorted_eq (x : Nat) (l : List Nat) : insertSorted x l = l.orderedInsert (· ≤ ·) x := by
  induction l with
  | nil => rfl
  | cons y ys ih => simp only [insertSorted, List.orderedInsert_cons, ih]

theorem RegionRecord.contains_iff {x : RegionRecord} {p : Nat} : x.contains p = true ↔
    x.enabled = true ∧ ∃ e, x.extent = some e ∧ e.start ≤ p ∧ p < e.start + e.length := by
  unfold RegionRecord.contains
  cases x.enabled <;> cases x.extent <;> simp

/-- One region record joining the boundary list: with its start, if it is enabled (R27). -/
def RegionRecord.listStart (x : RegionRecord) (l : List Nat) : List Nat :=
  match x.enabled, x.extent with
  | true, some e => insertSorted e.start l
  | _, _ => l

theorem boundaryOf_eq (regions : Vector RegionRecord 16) :
    boundaryOf regions = (regions.toList.drop 1).foldr RegionRecord.listStart [] := rfl

theorem RegionRecord.mem_listStart {x : RegionRecord} {l : List Nat} {b : Nat} : b ∈ x.listStart l ↔
    (x.enabled = true ∧ ∃ e, x.extent = some e ∧ e.start = b) ∨ b ∈ l := by
  unfold RegionRecord.listStart
  cases x.enabled <;> cases x.extent <;> simp [insertSorted_eq, eq_comm]

/-- The boundary list stands in increasing order. -/
theorem boundaryOf_sorted (regions : Vector RegionRecord 16) : (boundaryOf regions).Pairwise (· ≤ ·) := by
  rw [boundaryOf_eq]
  induction regions.toList.drop 1 with
  | nil => exact List.Pairwise.nil
  | cons x xs ih =>
    rw [List.foldr_cons, RegionRecord.listStart]
    split
    · rw [insertSorted_eq]; exact ih.orderedInsert _ _
    · exact ih

theorem mem_drop_one_toList {α : Type} {n : Nat} (v : Vector α (n + 1)) (x : α) :
    x ∈ v.toList.drop 1 ↔ ∃ r : Fin (n + 1), r ≠ 0 ∧ v[r] = x := by
  rw [List.mem_iff_getElem]
  constructor
  · rintro ⟨k, hk, rfl⟩
    have : k < n := by simpa using hk
    exact ⟨⟨k + 1, by omega⟩, by simp [Fin.ext_iff], by simp⟩
  · rintro ⟨r, hr, rfl⟩
    have h0 : r.val - 1 + 1 = r.val := Nat.sub_add_cancel (Nat.pos_of_ne_zero fun e => hr (Fin.ext e))
    exact ⟨r.val - 1, by simp; omega, by simp [h0]⟩

/-- The boundary list holds exactly the starts of the enabled regions 1 to 15 (R27). -/
theorem mem_boundaryOf {regions : Vector RegionRecord 16} {b : Nat} : b ∈ boundaryOf regions ↔
    ∃ r : RegionIx, r ≠ 0 ∧ regions[r].enabled = true ∧ ∃ e, regions[r].extent = some e ∧ e.start = b := by
  have listed (xs : List RegionRecord) : b ∈ xs.foldr RegionRecord.listStart []
      ↔ ∃ x ∈ xs, x.enabled = true ∧ ∃ e, x.extent = some e ∧ e.start = b := by
    induction xs with
    | nil => simp
    | cons x xs ih => simp [RegionRecord.mem_listStart, ih]
  rw [boundaryOf_eq, listed]
  constructor
  · rintro ⟨x, hx, h⟩
    obtain ⟨r, hr, rfl⟩ := (mem_drop_one_toList _ x).mp hx
    exact ⟨r, hr, h⟩
  · rintro ⟨r, hr, h⟩
    exact ⟨_, (mem_drop_one_toList _ _).mpr ⟨r, hr, rfl⟩, h⟩

theorem State.regionAt_eq_none {p : Nat} (h : s.regionAt p = none) (r : RegionIx) (hr : r ≠ 0) :
    s.work.regions[r].contains p = false := by
  have := List.find?_eq_none.mp h r (mem_allRegions r)
  have h0 : 0 < r.val := Nat.pos_of_ne_zero fun e => hr (Fin.ext e)
  simpa [h0] using this

theorem State.regionAt_eq_some {p : Nat} {r : RegionIx} (h : s.regionAt p = some r) :
    r ≠ 0 ∧ s.work.regions[r].contains p = true := by
  have := List.find?_some h
  simp only [Bool.and_eq_true, decide_eq_true_eq] at this
  exact ⟨fun e => by simp [e] at this, this.2⟩

/-- No boundary lies between an LBA and the next start, which is itself a boundary after the LBA. -/
theorem State.nextStart_eq_some {p b : Nat} (hs : s.boundary.Pairwise (· ≤ ·)) (h : s.nextStart p = some b) :
    b ∈ s.boundary ∧ p < b ∧ ∀ c ∈ s.boundary, p < c → b ≤ c := by
  obtain ⟨hb, l, l', hl, hn⟩ := List.find?_eq_some_iff_append.mp h
  refine ⟨by simp [hl], by simpa using hb, fun c hc hpc => ?_⟩
  rw [hl] at hc hs
  rcases List.mem_append.mp hc with hc | hc
  · have := hn c hc; simp at this; omega
  · rcases List.mem_cons.mp hc with rfl | hc
    · exact le_rfl
    · exact (List.pairwise_cons.mp (List.pairwise_append.mp hs).2.1).1 c hc

theorem State.nextStart_eq_none {p : Nat} (h : s.nextStart p = none) {c : Nat} (hc : c ∈ s.boundary) : c ≤ p := by
  have := List.find?_eq_none.mp h c hc
  simpa using this

/-! ### Owners (R6) -/

/-- The owner of an LBA: the window while it owns it, else the enabled region 1 to 15 that holds it, else region
0 (R6). -/
def State.Owns (s : State) : Owner → Nat → Prop
  | .window, p => s.windowOwns p = true
  | .region r, p => s.windowOwns p = false
      ∧ if r = 0 then ∀ q : RegionIx, q ≠ 0 → s.work.regions[q].contains p = false
        else s.work.regions[r].contains p = true

theorem State.windowOwns_iff {p : Nat} : s.windowOwns p = true ↔
    (s.window.state = .shown ∨ s.window.state = .loading) ∧ p < s.work.window.w := by
  simp [State.windowOwns]

/-- The window's LBAs are those below W: what lies above an LBA it does not own is not its own either. -/
theorem State.windowOwns_mono {p q : Nat} (h : s.windowOwns p = false) (hq : p ≤ q) : s.windowOwns q = false := by
  rw [← Bool.not_eq_true] at *
  exact fun h' => h (State.windowOwns_iff.mpr ⟨(State.windowOwns_iff.mp h').1,
    lt_of_le_of_lt hq (State.windowOwns_iff.mp h').2⟩)

/-- A region 1 to 15 that holds an LBA holds every LBA from there to its end. -/
theorem State.regionEnd_spec {r : RegionIx} {p : Nat} (h : s.work.regions[r].contains p = true) :
    p < s.regionEnd r ∧ (∀ q, p ≤ q → q < s.regionEnd r → s.work.regions[r].contains q = true)
      ∧ ∀ q, s.work.regions[r].contains q = true → q < s.regionEnd r := by
  obtain ⟨he, e, hx, h1, h2⟩ := RegionRecord.contains_iff.mp h
  have hend : s.regionEnd r = e.start + e.length := by simp only [State.regionEnd, hx]
  refine ⟨hend ▸ h2, fun q hq hl => RegionRecord.contains_iff.mpr ⟨he, e, hx, h1.trans hq, hend ▸ hl⟩,
    fun q hq => ?_⟩
  obtain ⟨-, e', hx', -, h3⟩ := RegionRecord.contains_iff.mp hq
  rw [hx] at hx'
  cases hx'
  exact hend ▸ h3

/-- Where the walk opens a segment, by the three cases of R6: its owner and its end. -/
theorem State.ownerAt_cases (s : State) (stop p : Nat) :
    (s.windowOwns p = true ∧ s.ownerAt stop p = (.window, min s.work.window.w stop))
    ∨ (∃ r : RegionIx, s.windowOwns p = false ∧ r ≠ 0 ∧ s.work.regions[r].contains p = true
        ∧ s.ownerAt stop p = (.region r, min (s.regionEnd r) stop))
    ∨ (s.windowOwns p = false ∧ (∀ q : RegionIx, q ≠ 0 → s.work.regions[q].contains p = false)
        ∧ s.ownerAt stop p = (.region 0, min ((s.nextStart p).getD stop) stop)) := by
  unfold State.ownerAt
  split
  · rename_i h
    exact .inl ⟨h, rfl⟩
  · rename_i h
    have hw : s.windowOwns p = false := by simpa using h
    split
    · rename_i r hr
      obtain ⟨h0, hc⟩ := State.regionAt_eq_some hr
      exact .inr (.inl ⟨r, hw, h0, hc, rfl⟩)
    · rename_i hr
      exact .inr (.inr ⟨hw, fun q hq => State.regionAt_eq_none hr q hq, rfl⟩)

/-- A segment holds at least one block and ends within its transfer. -/
theorem State.ownerAt_end {stop p : Nat} (h : p < stop) :
    p < (s.ownerAt stop p).2 ∧ (s.ownerAt stop p).2 ≤ stop := by
  rcases s.ownerAt_cases stop p with ⟨hw, ho⟩ | ⟨r, -, -, hc, ho⟩ | ⟨-, -, ho⟩ <;> rw [ho]
  · have := (State.windowOwns_iff.mp hw).2
    exact ⟨lt_min this h, min_le_right _ _⟩
  · exact ⟨lt_min (State.regionEnd_spec hc).1 h, min_le_right _ _⟩
  · refine ⟨lt_min ?_ h, min_le_right _ _⟩
    cases hn : s.nextStart p with
    | none => exact h
    | some b => simpa using List.find?_some hn

/-- Past the LBAs that no enabled region 1 to 15 holds, up to the next boundary, none begins to hold one (R27). -/
theorem State.not_contains_before_nextStart (hb : s.boundary = boundaryOf s.work.regions) {stop p q : Nat}
    (hp : ∀ r : RegionIx, r ≠ 0 → s.work.regions[r].contains p = false) (hq : p ≤ q)
    (hl : q < min ((s.nextStart p).getD stop) stop) (r : RegionIx) (hr : r ≠ 0) :
    s.work.regions[r].contains q = false := by
  rw [← Bool.not_eq_true]
  intro hc
  obtain ⟨he, e, hx, h1, h2⟩ := RegionRecord.contains_iff.mp hc
  have listed : e.start ∈ s.boundary := hb ▸ mem_boundaryOf.mpr ⟨r, hr, he, e, hx, rfl⟩
  have after : p < e.start := by
    by_contra hle
    have := RegionRecord.contains_iff.mpr ⟨he, e, hx, not_lt.mp hle, lt_of_le_of_lt hq h2⟩
    rw [hp r hr] at this
    cases this
  cases hn : s.nextStart p with
  | none => exact absurd (State.nextStart_eq_none hn listed) (by omega)
  | some b =>
    have := (State.nextStart_eq_some (hb ▸ boundaryOf_sorted _) hn).2.2 _ listed after
    rw [hn] at hl
    simp at hl
    omega

/-- A segment lies wholly in its owner (R6). -/
theorem State.ownerAt_owns (hb : s.boundary = boundaryOf s.work.regions) {stop p q : Nat} (hq : p ≤ q)
    (hl : q < (s.ownerAt stop p).2) : s.Owns (s.ownerAt stop p).1 q := by
  rcases s.ownerAt_cases stop p with ⟨hw, ho⟩ | ⟨r, hw, h0, hc, ho⟩ | ⟨hw, hn, ho⟩ <;> rw [ho] at hl ⊢
  · exact State.windowOwns_iff.mpr ⟨(State.windowOwns_iff.mp hw).1, lt_of_lt_of_le hl (min_le_left _ _)⟩
  · exact ⟨State.windowOwns_mono hw hq, by
      rw [if_neg h0]; exact (State.regionEnd_spec hc).2.1 q hq (lt_of_lt_of_le hl (min_le_left _ _))⟩
  · exact ⟨State.windowOwns_mono hw hq, by
      rw [if_pos rfl]; exact State.not_contains_before_nextStart hb hn hq hl⟩

/-- A segment's end leaves its owner, where that is the window or a region 1 to 15: the owner has no LBA from
there to the transfer's end. -/
theorem State.ownerAt_leaves {stop p q : Nat} (h0 : (s.ownerAt stop p).1 ≠ .region 0)
    (hq : (s.ownerAt stop p).2 ≤ q) (hs : q < stop) : ¬ s.Owns (s.ownerAt stop p).1 q := by
  rcases s.ownerAt_cases stop p with ⟨hw, ho⟩ | ⟨r, hw, hr, hc, ho⟩ | ⟨hw, hn, ho⟩ <;> rw [ho] at hq h0 ⊢
  · intro h
    have := (State.windowOwns_iff.mp h).2
    simp only [min_le_iff] at hq
    omega
  · rintro ⟨-, h⟩
    rw [if_neg hr] at h
    have := (State.regionEnd_spec hc).2.2 q h
    simp only [min_le_iff] at hq
    omega
  · exact absurd rfl h0

/-- Where a region 0 segment ends within its transfer, an enabled region 1 to 15 begins (R6 case 3). -/
theorem State.ownerAt_next {stop p : Nat} (hl : s.BoundsLaw) (h0 : (s.ownerAt stop p).1 = .region 0)
    (hs : (s.ownerAt stop p).2 < stop) :
    ∃ r : RegionIx, r ≠ 0 ∧ (s.ownerAt stop (s.ownerAt stop p).2).1 = .region r := by
  rcases s.ownerAt_cases stop p with ⟨hw, ho⟩ | ⟨r, hw, hr, hc, ho⟩ | ⟨hw, hn, ho⟩
  · rw [ho] at h0; cases h0
  · rw [ho] at h0; cases h0; exact absurd rfl hr
  · obtain ⟨b, hb, hbs⟩ : ∃ b, s.nextStart p = some b ∧ (s.ownerAt stop p).2 = b := by
      rw [ho] at hs ⊢
      cases hb : s.nextStart p with
      | none => rw [hb] at hs; simp at hs
      | some b =>
        rw [hb] at hs
        simp only [Option.getD_some] at hs ⊢
        exact ⟨b, rfl, by omega⟩
    obtain ⟨listed, after, -⟩ := State.nextStart_eq_some (hl.1 ▸ boundaryOf_sorted _) hb
    rw [hl.1] at listed
    obtain ⟨r, hr, he, e, hx, rfl⟩ := mem_boundaryOf.mp listed
    have held : s.work.regions[r].contains e.start = true := by
      obtain ⟨e', hx', hpos, -⟩ := hl.2.1 r hr he
      rw [hx] at hx'
      cases hx'
      exact RegionRecord.contains_iff.mpr ⟨he, e, hx, le_rfl, by omega⟩
    rw [hbs]
    rcases s.ownerAt_cases stop e.start with ⟨hw', -⟩ | ⟨q, -, hq, -, ho'⟩ | ⟨-, hn', -⟩
    · rw [State.windowOwns_mono hw after.le] at hw'; cases hw'
    · exact ⟨q, hq, by rw [ho']⟩
    · rw [hn' r hr] at held; cases held

/-! ### The plan (R6, R7) -/

/-- A segment of a plan is the one the walk opens at its first LBA. -/
theorem State.mem_plan {kind : TransferKind} {stop n p : Nat} {x : Segment} (h : x ∈ s.plan kind stop n p) :
    x.first < stop ∧ x = s.segmentAt kind stop x.first := by
  induction n generalizing p with
  | zero => cases h
  | succ n ih =>
    unfold State.plan at h
    split at h
    · cases h
    · rcases List.mem_cons.mp h with rfl | h
      · exact ⟨by simp only [State.segmentAt]; omega, rfl⟩
      · exact ih h

/-- A plan covers its range once, in LBA order, with no empty segment. -/
theorem State.plan_tiles (s : State) (kind : TransferKind) {stop n p : Nat} (hn : stop ≤ p + n) (hp : p ≤ stop) :
    Tiles (s.plan kind stop n p) p stop := by
  induction n generalizing p with
  | zero => exact le_antisymm hp hn
  | succ n ih =>
    unfold State.plan
    split
    · exact le_antisymm hp ‹_›
    · have hend := s.ownerAt_end (stop := stop) (p := p) (by omega)
      have hc : (s.segmentAt kind stop p).count = (s.ownerAt stop p).2 - p := rfl
      exact ⟨rfl, by omega, ih (by omega) (by omega)⟩

/-- A segment's end is where the walk closed it. -/
theorem State.segmentAt_end {kind : TransferKind} {stop p : Nat} (h : p < stop) :
    p + (s.segmentAt kind stop p).count = (s.ownerAt stop p).2 := by
  have := s.ownerAt_end h
  show p + ((s.ownerAt stop p).2 - p) = _
  omega

/-- No two segments of a plan have one owner, unless that is region 0. -/
theorem State.plan_owners_differ (hb : s.boundary = boundaryOf s.work.regions) (kind : TransferKind) {stop n p : Nat}
    (hn : stop ≤ p + n) (hp : p ≤ stop) : (s.plan kind stop n p).Pairwise fun x y =>
      x.owner = y.owner → x.owner = some (.region 0) := by
  refine (s.plan_tiles kind hn hp).pairwise.imp_of_mem fun {x y} hx hy hxy => ?_
  obtain ⟨hxs, hx⟩ := State.mem_plan hx
  obtain ⟨hys, hy⟩ := State.mem_plan hy
  rw [hx, hy]
  intro ho
  by_contra h0
  have same : (s.ownerAt stop x.first).1 = (s.ownerAt stop y.first).1 := Option.some.inj ho
  refine State.ownerAt_leaves (p := x.first) (fun e => h0 (congrArg some e)) ?_ hys
    (same ▸ State.ownerAt_owns hb le_rfl (State.ownerAt_end hys).1)
  rw [← State.segmentAt_end (kind := kind) hxs, ← hx]
  exact hxy

/-- Segments of regions 1 to 15. -/
def Segment.ofRegion (x : Segment) : Bool := x.owner != some .window && x.owner != some (.region 0)

/-- Segments of region 0. -/
def Segment.ofRegionZero (x : Segment) : Bool := x.owner == some (.region 0)

theorem State.plan_of_le (kind : TransferKind) {stop p : Nat} (h : stop ≤ p) (n : Nat) :
    s.plan kind stop n p = [] := by
  cases n <;> simp [State.plan, h]

theorem State.plan_succ (kind : TransferKind) {stop p : Nat} (h : p < stop) (n : Nat) :
    s.plan kind stop (n + 1) p = s.segmentAt kind stop p :: s.plan kind stop n (s.ownerAt stop p).2 := by
  rw [State.plan, if_neg (not_le.mpr h)]
  dsimp only
  rw [State.segmentAt_end h]

/-- A region 0 segment is followed by one of a region 1 to 15, so there is at most one more of the former; none
more where the walk begins in a region 1 to 15 (R7). -/
theorem State.plan_region_zero (hl : s.BoundsLaw) (kind : TransferKind) (stop n p : Nat) :
    ((s.plan kind stop n p).filter Segment.ofRegionZero).length
      ≤ ((s.plan kind stop n p).filter Segment.ofRegion).length
        + if ∃ r : RegionIx, r ≠ 0 ∧ (s.ownerAt stop p).1 = .region r then 0 else 1 := by
  induction n generalizing p with
  | zero => simp [State.plan]
  | succ n ih =>
    by_cases hp : stop ≤ p
    · simp [State.plan_of_le kind hp]
    · rw [State.plan_succ kind (not_le.mp hp)]
      have tail := ih (s.ownerAt stop p).2
      have owner : (s.segmentAt kind stop p).owner = some (s.ownerAt stop p).1 := rfl
      have most (c : Prop) [Decidable c] : (if c then 0 else 1) ≤ 1 := by split <;> omega
      rcases ho : (s.ownerAt stop p).1 with _ | r
      · have := most (∃ r : RegionIx, r ≠ 0 ∧ (s.ownerAt stop (s.ownerAt stop p).2).1 = .region r)
        simp [Segment.ofRegionZero, Segment.ofRegion, owner, ho] at *
        omega
      · by_cases hr : r = 0
        · subst hr
          by_cases hs : (s.ownerAt stop p).2 < stop
          · rw [if_pos (State.ownerAt_next hl ho hs)] at tail
            simp [Segment.ofRegionZero, Segment.ofRegion, owner, ho] at *
            omega
          · simp [State.plan_of_le kind (not_lt.mp hs), Segment.ofRegionZero, Segment.ofRegion, owner, ho]
        · have := most (∃ r : RegionIx, r ≠ 0 ∧ (s.ownerAt stop (s.ownerAt stop p).2).1 = .region r)
          simp [Segment.ofRegionZero, Segment.ofRegion, owner, ho, hr] at *
          omega

/-- At most one segment of the window, and of each region 1 to 15 (R7). -/
theorem State.plan_owner_once (hb : s.boundary = boundaryOf s.work.regions) (kind : TransferKind) {stop n p : Nat}
    (hn : stop ≤ p + n) (hp : p ≤ stop) {o : Owner} (ho : o ≠ .region 0) :
    ((s.plan kind stop n p).filter fun x => x.owner == some o).length ≤ 1 := by
  have differ := (State.plan_owners_differ hb kind hn hp).filter fun x => x.owner == some o
  have owned (x : Segment) (hx : x ∈ (s.plan kind stop n p).filter fun x => x.owner == some o) :
      x.owner = some o := by simpa using (List.mem_filter.mp hx).2
  match h : (s.plan kind stop n p).filter fun x => x.owner == some o with
  | [] => rw [h]; exact Nat.zero_le _
  | [x] => rw [h]; exact le_rfl
  | x :: y :: l =>
    rw [h] at differ owned
    have hx := owned x (by simp)
    have hy := owned y (by simp)
    have := (List.pairwise_cons.mp differ).1 y (by simp) (hx.trans hy.symm)
    exact absurd (Option.some.inj (hx.symm.trans this)) ho

/-- At most fifteen segments of regions 1 to 15 (R7). -/
theorem State.plan_of_regions (hb : s.boundary = boundaryOf s.work.regions) (kind : TransferKind) {stop n p : Nat}
    (hn : stop ≤ p + n) (hp : p ≤ stop) : ((s.plan kind stop n p).filter Segment.ofRegion).length ≤ 15 := by
  have differ := (State.plan_owners_differ hb kind hn hp).filter Segment.ofRegion
  have nodup : (((s.plan kind stop n p).filter Segment.ofRegion).map Segment.owner).Nodup := by
    refine List.pairwise_map.mpr (differ.imp_of_mem fun {x y} hx _ hd he => ?_)
    have := (List.mem_filter.mp hx).2
    simp [Segment.ofRegion, hd he] at this
  have regions : ((s.plan kind stop n p).filter Segment.ofRegion).map Segment.owner
      ⊆ (allRegions.drop 1).map fun r => some (Owner.region r) := by
    intro o ho
    obtain ⟨x, hx, rfl⟩ := List.mem_map.mp ho
    obtain ⟨hm, hr⟩ := List.mem_filter.mp hx
    have owner : x.owner = some (s.ownerAt stop x.first).1 := congrArg Segment.owner (State.mem_plan hm).2
    have listed : ∀ r : RegionIx, r ≠ 0 → r ∈ allRegions.drop 1 := by decide
    rw [owner]
    rw [Segment.ofRegion, owner] at hr
    cases ho : (s.ownerAt stop x.first).1 with
    | window => simp [ho] at hr
    | region r => exact List.mem_map_of_mem (listed r fun h => by simp [ho, h] at hr)
  have := (nodup.subperm regions).length_le
  simpa [allRegions] using this

/-- What is left of a plan beside its window segments are those of region 0 and those of regions 1 to 15. -/
theorem length_by_owner (xs : List Segment) : xs.length = (xs.filter fun x => x.owner == some .window).length
    + (xs.filter Segment.ofRegionZero).length + (xs.filter Segment.ofRegion).length := by
  induction xs with
  | nil => rfl
  | cons x xs ih =>
    rcases h : x.owner with _ | _ | r
    · simp [Segment.ofRegion, Segment.ofRegionZero, h, ih]; omega
    · simp [Segment.ofRegion, Segment.ofRegionZero, h, ih]; omega
    · by_cases hr : r = 0
      · simp [Segment.ofRegion, Segment.ofRegionZero, h, hr, ih]; omega
      · simp [Segment.ofRegion, Segment.ofRegionZero, h, hr, ih]; omega

/-! ### Dispositions (R9, R10) -/

theorem windowDisposition_eq (w : WindowState) (kind : TransferKind) : windowDisposition w kind =
    if kind = .read then .image else if w = .loading then .imageWrite else .refuse .windowReadOnly := by
  cases kind <;> rfl

theorem regionDisposition_eq (x : RegionRecord) (v : RegionStatus) (kind : TransferKind) :
    regionDisposition x v kind =
      if x.condition = .scrubQueued ∨ x.condition = .scrubbing then
        (if kind = .read then .zero else .refuse .scrubbing)
      else if v.right (if kind = .read then .read else .write) = .opened then .cipher
      else if kind = .read then (if x.conceal then .zero else .refuse .locked)
      else (if x.absorb then .absorb else .refuse .locked) := by
  cases kind <;> rfl

/-- The image blocks of an IMAGE segment from `first` to `last` (R9). -/
theorem State.imageCount_eq (first last : Nat) : s.imageCount first last =
    if s.window.state = .loading then last - first else min last s.work.window.l - first := rfl

/-! ### Refusal (R12) -/

theorem Segment.refusal_eq_some {x : Segment} {status : Status} :
    x.refusal = some status ↔ x.disposition = .refuse status := by
  unfold Segment.refusal
  split <;> simp_all

/-- The refusal of a transfer is that of its first refused segment. -/
theorem refusalOf_of_lowest {xs : List Segment} (hs : xs.Pairwise fun x y => x.first < y.first) {x : Segment}
    {status : Status} (hx : x ∈ xs) (hr : x.disposition = .refuse status)
    (low : ∀ y ∈ xs, ∀ st, y.disposition = .refuse st → x.first ≤ y.first) : refusalOf xs = some status := by
  obtain ⟨l, r, rfl⟩ := List.append_of_mem hx
  have before : ∀ y ∈ l, y.refusal = none := by
    intro y hy
    by_contra hne
    obtain ⟨st, hst⟩ := Option.ne_none_iff_exists'.mp hne
    have h1 := low y (List.mem_append_left _ hy) st (Segment.refusal_eq_some.mp hst)
    have h2 := (List.pairwise_append.mp hs).2.2 y hy x List.mem_cons_self
    omega
  have first : x.refusal = some status := Segment.refusal_eq_some.mpr hr
  rw [refusalOf, List.findSome?_append, List.findSome?_eq_none_iff.mpr before]
  simp [first]

theorem refusalOf_eq_none {xs : List Segment} (h : ∀ x ∈ xs, ∀ status, x.disposition ≠ .refuse status) :
    refusalOf xs = none := by
  refine List.findSome?_eq_none_iff.mpr fun x hx => ?_
  by_contra hne
  obtain ⟨st, hst⟩ := Option.ne_none_iff_exists'.mp hne
  exact h x hx st (Segment.refusal_eq_some.mp hst)

end Sys2Proof.Machine

namespace Sys2Proof.Proofs

open Sys2Proof Sys2Proof.Machine

/-- Settles O17: the segments stand in LBA order, so the lowest refused one is the first. -/
theorem refusedTransferMovesNothing : Obligations.RefusedTransferMovesNothing := by
  intro s i kind tag start count data x status hp hb free fits hx hr low
  obtain ⟨g, a, n, rfl, rfl, rfl, he⟩ := exec_blocks hp hb
  have tiles := s.plan_tiles kind (le_refl (a.toNat + n.toNat)) (by omega)
  have order := tiles.pairwise.imp_of_mem (S := fun x y => x.first < y.first)
    fun hx _ h => by have := (tiles.mem hx).2.1; omega
  rw [he, State.takeBlocks_refused free fits data (refusalOf_of_lowest order hx hr low)]

/-- Settles O20, from the owner and the end of the segment opened at each LBA of the walk. -/
theorem planCoversRange : Obligations.PlanCoversRange := by
  intro s kind start count hb
  refine ⟨s.plan_tiles kind le_rfl (by omega), fun x hx p h1 h2 => ?_⟩
  obtain ⟨hs, hx⟩ := State.mem_plan hx
  have hend := State.segmentAt_end (s := s) (kind := kind) hs
  rw [← hx] at hend
  have owns : s.Owns (s.ownerAt (start + count) x.first).1 p := State.ownerAt_owns hb h1 (hend ▸ h2)
  have owner : x.owner = some (s.ownerAt (start + count) x.first).1 := congrArg Segment.owner hx
  have disposition : x.disposition = s.dispositionOf kind (s.ownerAt (start + count) x.first).1 :=
    congrArg Segment.disposition hx
  have generation : x.generation = s.recordedGeneration (s.ownerAt (start + count) x.first).1 x.disposition := by
    rw [disposition]; exact congrArg Segment.generation hx
  have image : x.imageBlocks = if x.disposition = .image then s.imageCount x.first (x.first + x.count) else 0 := by
    rw [disposition, hend]; exact congrArg Segment.imageBlocks hx
  rw [owner]
  cases ho : (s.ownerAt (start + count) x.first).1 with
  | window =>
    rw [ho] at owns disposition
    have disposed := disposition.trans (windowDisposition_eq _ kind)
    obtain ⟨shown, below⟩ := State.windowOwns_iff.mp owns
    refine ⟨shown, below, disposed, fun hk => ?_⟩
    rw [image, disposed, if_pos hk, if_pos rfl, State.imageCount_eq, Nat.add_sub_cancel_left]
  | region r =>
    rw [ho] at owns disposition generation
    have inside (q : RegionIx) : s.work.regions[q].contains p = false ↔ ¬ (s.work.regions[q].enabled = true
        ∧ ∃ e, s.work.regions[q].extent = some e ∧ e.start ≤ p ∧ p < e.start + e.length) := by
      rw [← RegionRecord.contains_iff, Bool.not_eq_true]
    refine ⟨fun h => ?_, ?_, disposition.trans (regionDisposition_eq _ _ kind), fun hc => ?_⟩
    · have := State.windowOwns_iff.mpr h
      rw [owns.1] at this
      cases this
    · have := owns.2
      split at this
      · rename_i h0
        rw [if_pos h0]
        exact fun q hq => (inside q).mp (this q hq)
      · rename_i h0
        rw [if_neg h0]
        exact RegionRecord.contains_iff.mp this
    · rw [generation, hc]; rfl

/-- Settles O21: one segment for the window and for each region 1 to 15, and at most one more of region 0 than of
those, since each region 0 segment is followed by one of them. -/
theorem planWithinThirtyTwo : Obligations.PlanWithinThirtyTwo := by
  intro s kind start count hl fits
  have once {o : Owner} (ho : o ≠ .region 0) := State.plan_owner_once hl.1 kind (le_refl (start + count))
    (Nat.le_add_right start count) ho
  have window := once (o := .window) (by simp)
  have regions := State.plan_of_regions hl.1 kind (le_refl (start + count)) (Nat.le_add_right start count)
  have zero := State.plan_region_zero hl kind (start + count) count start
  have total := length_by_owner (s.plan kind (start + count) count start)
  have zero' : ((s.plan kind (start + count) count start).filter Segment.ofRegionZero).length
      ≤ ((s.plan kind (start + count) count start).filter Segment.ofRegion).length + 1 :=
    zero.trans (by split <;> omega)
  refine ⟨by omega, window, fun r hr => once (by simpa using hr), ?_, ?_⟩
  · exact zero'.trans (by omega)
  · exact zero'.trans (by rw [Nat.add_comm]; rfl)

end Sys2Proof.Proofs
end

section
/-! PROOFS. Admitted transfers (R13, R15, R17, R18) and FLUSH (R19): the entry, the places in the queue, the
admitted counts, and what moves at admission. -/

namespace Sys2Proof.Machine

variable {s : State}

/-! ### What one segment adds at admission -/

/-- The region whose admitted count a segment stands in (R13, R35). -/
def Segment.countedIn (x : Segment) (r : RegionIx) : Bool :=
  x.disposition == .cipher && x.owner == some (.region r)

theorem State.raiseAdmitted_regions (s : State) (x : Segment) (r : RegionIx) : (s.raiseAdmitted x).regions[r] =
    { s.regions[r] with admitted := s.regions[r].admitted + if x.countedIn r then 1 else 0 } := by
  unfold State.raiseAdmitted
  split
  · rename_i q hd ho
    by_cases hq : q = r
    · subst hq; simp [Segment.countedIn, hd, ho]
    · have : ¬ q.val = r.val := fun e => hq (Fin.ext e)
      simp [Segment.countedIn, hd, ho, hq, this]
  · rename_i hno
    have : x.countedIn r = false := by
      rw [← Bool.not_eq_true]
      intro hc
      simp only [Segment.countedIn, Bool.and_eq_true, beq_iff_eq] at hc
      exact hno r hc.1 hc.2
    simp [this]

/-- The admitted counts of a transfer's CIPHER segments, one each (R13). -/
theorem State.foldl_raiseAdmitted (xs : List Segment) (s : State) :
    (xs.foldl State.raiseAdmitted s) = { s with regions := (xs.foldl State.raiseAdmitted s).regions }
      ∧ ∀ r : RegionIx, (xs.foldl State.raiseAdmitted s).regions[r] = { s.regions[r] with
          admitted := s.regions[r].admitted + (xs.filter fun x => x.countedIn r).length } := by
  induction xs generalizing s with
  | nil => exact ⟨rfl, fun r => rfl⟩
  | cons x xs ih =>
    obtain ⟨frame, counts⟩ := ih (s.raiseAdmitted x)
    refine ⟨?_, fun r => ?_⟩
    · rw [List.foldl_cons, frame, State.raiseAdmitted_frame]
    · rw [List.foldl_cons, counts, State.raiseAdmitted_regions, List.filter_cons]
      cases x.countedIn r
      · simp
      · simp [Nat.add_assoc, Nat.add_comm 1]

/-- What a segment that is not media-bound moves on the upstream port at admission (R15, R17). -/
def Segment.moved (tag start : Nat) (kind : TransferKind) (x : Segment) : List PortEvent :=
  match kind with
  | .read => [.readData tag (x.first - start) [.zeros x.count]]
  | .write => [.dataTaken tag (x.first - start) x.count]
  | .discard | .flush => []

theorem State.serveAtAdmission_eq (s : State) (tag start : Nat) (kind : TransferKind) (x : Segment) :
    s.serveAtAdmission tag start kind x
      = { s with sent := s.sent ++ if x.mediaBound then [] else x.moved tag start kind } := by
  unfold State.serveAtAdmission Segment.moved
  split
  · simp
  · cases kind <;> simp [State.send]

/-- What a transfer's segments move at admission, in LBA order. -/
def movedAtAdmission (tag start : Nat) (kind : TransferKind) (xs : List Segment) : List PortEvent :=
  (xs.filter fun x => !x.mediaBound).flatMap (Segment.moved tag start kind)

theorem State.foldl_serveAtAdmission (tag start : Nat) (kind : TransferKind) (xs : List Segment) (s : State) :
    xs.foldl (State.serveAtAdmission tag start kind) s
      = { s with sent := s.sent ++ movedAtAdmission tag start kind xs } := by
  induction xs generalizing s with
  | nil => simp [movedAtAdmission]
  | cons x xs ih =>
    rw [List.foldl_cons, ih, State.serveAtAdmission_eq, movedAtAdmission, movedAtAdmission, List.filter_cons]
    cases x.mediaBound <;> simp

/-- The queue places of a transfer's media-bound segments: each its tag and its place in the segment list. -/
def boundPlaces (tag i : Nat) (xs : List Segment) : List (Nat × Nat) :=
  ((xs.zipIdx i).filter fun x => x.1.mediaBound).map fun x => (tag, x.2)

theorem queuePlaces_eq (tag i : Nat) (xs : List Segment) : queuePlaces tag i xs = boundPlaces tag i xs := by
  induction xs generalizing i with
  | nil => rfl
  | cons x xs ih =>
    rw [queuePlaces, ih, boundPlaces, boundPlaces, List.zipIdx_cons, List.filter_cons]
    cases x.mediaBound <;> rfl

/-! ### An admitted entry: its segments differ from the planned ones in their state alone (R13) -/

theorem foldl_onceAdmitted {β : Type} (f : β → Segment → β) (h : ∀ b x, f b x.onceAdmitted = f b x)
    (xs : List Segment) (b : β) : (xs.map Segment.onceAdmitted).foldl f b = xs.foldl f b := by
  simp only [List.foldl_map, h]

theorem boundPlaces_onceAdmitted (tag i : Nat) (xs : List Segment) :
    boundPlaces tag i (xs.map Segment.onceAdmitted) = boundPlaces tag i xs := by
  simp only [← queuePlaces_eq]
  induction xs generalizing i with
  | nil => rfl
  | cons x xs ih =>
    have same : x.onceAdmitted.mediaBound = x.mediaBound := rfl
    simp only [List.map_cons, queuePlaces, ih, same]

/-- An admitted transfer in its taking event, before any grant: the counts, what moves, and its entry with its
queue places, or its completion where nothing is outstanding (R13, R15, R17, R18). -/
theorem State.admitTransfer_eq (s : State) (tag : Nat) (kind : TransferKind) (start count : Nat) (data : List Block)
    (xs : List Segment) : s.admitTransfer (admittedEntry tag kind start count data xs) =
      let t := { s with
        regions := (xs.foldl State.raiseAdmitted s).regions
        sent := s.sent ++ movedAtAdmission tag start kind xs }
      if xs.filter Segment.mediaBound = [] then t.send (.completion tag .good)
      else { t with
        transfers := t.transfers ++ [admittedEntry tag kind start count data xs]
        port := { t.port with queue := t.port.queue ++ boundPlaces tag 0 xs } } := by
  have raised : (xs.map Segment.onceAdmitted).foldl State.raiseAdmitted s = xs.foldl State.raiseAdmitted s :=
    foldl_onceAdmitted State.raiseAdmitted (fun _ _ => rfl) xs s
  have served (u : State) : (xs.map Segment.onceAdmitted).foldl (State.serveAtAdmission tag start kind) u
      = { u with sent := u.sent ++ movedAtAdmission tag start kind xs } := by
    rw [foldl_onceAdmitted _ (fun _ _ => rfl), State.foldl_serveAtAdmission]
  have entry : (admittedEntry tag kind start count data xs).segments = xs.map Segment.onceAdmitted := rfl
  have none : (admittedEntry tag kind start count data xs).outstanding = 0 ↔ xs.filter Segment.mediaBound = [] :=
    List.length_eq_zero_iff
  rw [State.admitTransfer, State.enterTransfer, entry, raised]
  simp only [none]
  rw [show (admittedEntry tag kind start count data xs).tag = tag from rfl,
    show (admittedEntry tag kind start count data xs).start = start from rfl,
    show (admittedEntry tag kind start count data xs).kind = kind from rfl, served,
    queuePlaces_eq, boundPlaces_onceAdmitted, (State.foldl_raiseAdmitted xs s).1]
  rfl

/-- Where every slot is BUSY and no scrub walks, admission makes no grant. -/
theorem State.serveMedia_admitTransfer (hf : s.freeSlot = none) (hw : s.scrub.phase ≠ .walking) (tag : Nat)
    (kind : TransferKind) (start count : Nat) (data : List Block) (xs : List Segment) :
    (s.quiet.admitTransfer (admittedEntry tag kind start count data xs)).serveMedia
      = s.quiet.admitTransfer (admittedEntry tag kind start count data xs) := by
  refine State.serveMedia_of_still ⟨?_, ?_⟩
  · rw [State.admitTransfer_eq]; dsimp only; split <;> exact hw
  · have busy : (s.quiet.admitTransfer (admittedEntry tag kind start count data xs)).freeSlot = none := by
      rw [State.admitTransfer_eq]; dsimp only; split <;> exact hf
    rw [State.nextGrant, busy]

end Sys2Proof.Machine

namespace Sys2Proof.Proofs

open Sys2Proof Sys2Proof.Machine

/-- Settles O18: the plan holds no refusal, so the transfer is admitted, and no slot is free for a grant. -/
theorem admittedTransfer : Obligations.AdmittedTransfer := by
  intro s i kind tag start count data hp hb free fits hf hw segments accepted
  obtain ⟨g, a, n, rfl, rfl, rfl, he⟩ := exec_blocks hp hb
  rw [State.takeBlocks_admitted free fits data (refusalOf_eq_none accepted),
    State.serveMedia_admitTransfer hf hw, State.admitTransfer_eq] at he
  have counts := (State.foldl_raiseAdmitted segments s.quiet).2
  by_cases none : (s.plan kind (a.toNat + n.toNat) n.toNat a.toNat).filter Segment.mediaBound = []
  · rw [if_pos none] at he
    exact ⟨_, he, rfl, counts, fun _ => ⟨rfl, rfl, rfl⟩, fun some => absurd none some⟩
  · rw [if_neg none] at he
    exact ⟨_, he, rfl, counts, fun no => absurd no none, fun _ => ⟨rfl, rfl, rfl⟩⟩

/-- Settles O19: a FLUSH is admitted with its one PLAIN segment, and no slot is free for a grant. -/
theorem flushQueuesPlainSegment : Obligations.FlushQueuesPlainSegment := by
  intro s tag hp free hf hw
  have ht : s.quiet.tagCheck tag = none := (State.tagCheck_eq_none_iff tag).mpr free
  have one : [flushSegment].filter Segment.mediaBound ≠ [] := by decide
  rw [exec_transfer (i := .flush tag) rfl, State.request_ready hp, State.takeRequest, State.takeFlush, ht]
  dsimp only
  rw [State.serveMedia_admitTransfer hf hw, State.admitTransfer_eq, if_neg one]
  rfl

end Sys2Proof.Proofs
end

section
/-! PROOFS. The management channel's carriage (R21, R22, R173, R174) and requests that wait or are refused (R1,
R80, R163, R173). -/

namespace Sys2Proof.Machine

variable {s : State}

/-! ### What a message spells (R180) -/

/-- A body whose kind allows one or a few lengths reads only at such a length, as a request of its kind. -/
theorem readBody_of_fixed_length {k : Nat} {c : Byte} {body : List Byte} {i : Instr}
    (hk : k ∉ [0x02, 0x04, 0x16, 0x19]) (h : readBody k c body = some i) :
    (kindCode i).map BitVec.toNat = some k ∧ messageFits i = true := by
  by_cases small : k < 26
  · interval_cases k <;> simp at hk
    all_goals
      iterate 19
        rcases body with _ | ⟨b, body⟩
        · cases h <;> exact ⟨rfl, rfl⟩
      cases h
  · obtain ⟨n, rfl⟩ := Nat.exists_eq_add_of_le' (not_lt.mp small)
    cases h

/-- A body that reads as a request reads as one of its kind, with fields such a message can carry. -/
theorem readBody_spec {k : Nat} {c : Byte} {body : List Byte} {i : Instr} (h : readBody k c body = some i) :
    (kindCode i).map BitVec.toNat = some k ∧ messageFits i = true := by
  by_cases hk : k ∈ [0x02, 0x04, 0x16, 0x19]
  · have checked {j : Instr} {p : Prop} [Decidable p] (hj : (kindCode j).map BitVec.toNat = some k)
        (hf : p → messageFits j = true) (hr : readBody k c body = if p then some j else none) :
        (kindCode i).map BitVec.toNat = some k ∧ messageFits i = true := by
      obtain ⟨hp, hi⟩ := Option.ite_none_right_eq_some.mp (hr.symm.trans h)
      cases hi
      exact ⟨hj, hf hp⟩
    simp only [List.mem_cons, List.not_mem_nil, or_false] at hk
    rcases hk with rfl | rfl | rfl | rfl
    · iterate 6
        rcases body with _ | ⟨_, body⟩
        · cases h
      exact checked (by rfl) (fun hp => by exact decide_eq_true hp.2) rfl
    · rcases body with _ | ⟨_, body⟩
      · cases h
      · exact checked (by rfl) (by exact decide_eq_true) rfl
    · exact checked (by rfl) (by exact decide_eq_true) rfl
    · rcases body with _ | ⟨_, body⟩
      · cases h
      · exact checked (by rfl) (by exact decide_eq_true) rfl
  · exact readBody_of_fixed_length hk h

/-- A message that reads as a request carries its kind, and fields such a message can carry. -/
theorem readMessage_spec {message : List Byte} {i : Instr} (h : readMessage message = some i) :
    kindCode i = some (messageKind message) ∧ messageFits i = true := by
  unfold readMessage at h
  split at h
  · split at h
    · obtain ⟨hk, hf⟩ := readBody_spec h
      obtain ⟨k, hk, hn⟩ := Option.map_eq_some_iff.mp hk
      exact ⟨by rw [hk, BitVec.eq_of_toNat_eq hn]; rfl, hf⟩
    · cases h
  · cases h

/-- A command with well-formed operands has fields its message can carry. -/
theorem messageFits_of_wellFormed {i : Instr} (h : i.wellFormed = true) : messageFits i = true := by
  cases i <;> try rfl
  all_goals exact h

/-! ### Requests that wait or are refused (R1, R80, R163, R173) -/

/-- Every request of the upstream port is offered to it. -/
theorem exec_offered {i : Instr}
    (h : (requestTag i).isSome = true ∨ (kindCode i).isSome = true ∨ ∃ tag, i = .requestOfUnknownKind tag)
    (s : State) : exec i s = .next (s.quiet.request i) := by
  rcases h with h | h | ⟨tag, rfl⟩
  · exact exec_transfer (Option.get_mem h) s
  · exact exec_request (Option.get_mem h) s
  · rfl

/-- A request that fails check 2 or 3 of R174 is answered with the result of the first that fails. -/
theorem exec_request_checked {i : Instr} {k : Byte} {result : ResultCode} (hk : kindCode i = some k)
    (hf : messageFits i = true) (hp : s.startUp.portReady = true) (hw : s.management.slot ≠ .working)
    (hr : s.requestRefusal i = some result) : exec i s = .next (s.answered k result []) := by
  have refused : s.quiet.requestRefusal i = some result := hr
  rw [exec_request_offered hk hp hw, if_pos hf, State.takeMessage]
  simp only [refused]
  simp [State.reply, State.beginRequest, State.answered, State.quiet]

/-- A revert operation leaves only STATUS-QUERY and FETCH-ALERTS open (R163). -/
theorem openDuringRevert_of_kind {i : Instr} {kind : Byte} (hk : kindCode i = some kind) (h1 : kind ≠ 0x01)
    (h2 : kind ≠ 0x18) : openDuringRevert i = false := by
  cases i <;> try rfl
  all_goals cases hk; contradiction

/-- The requests that need the administrator (R80). -/
theorem authority_of_kind {i : Instr} {kind : Byte} (hk : kindCode i = some kind)
    (h : kind ∉ [0x01, 0x02, 0x03, 0x04, 0x17, 0x18, 0x19]) (s : State) : s.authority i = s.administrator := by
  cases i <;> cases hk <;> try rfl
  all_goals exact absurd (by decide) h

theorem State.anyPresented_eq_false (h : ∀ c : CredIx, s.credentials[c].presented = false) :
    s.anyPresented = false := by
  rw [State.anyPresented, List.any_eq_false]
  intro x hx
  obtain ⟨k, hk, rfl⟩ := List.mem_iff_getElem.mp hx
  have := h ⟨k, by simpa using hk⟩
  simpa using this

theorem State.targetPresented_eq_false {target : Byte}
    (h : ∀ c : CredIx, c.val = target.toNat → s.credentials[c].presented = false) :
    s.targetPresented target = false := by
  unfold State.targetPresented credIxOf
  split
  · rename_i c hc
    split at hc
    · cases hc; exact h _ rfl
    · cases hc
  · rfl

end Sys2Proof.Machine

namespace Sys2Proof.Proofs

open Sys2Proof Sys2Proof.Machine

/-- Settles O49: the length and the slot decide; a message that reads as a request is that request. -/
theorem manageSendCarries : Obligations.ManageSendCarries := by
  intro s tag message hp free
  have ht : s.quiet.tagCheck tag = none := (State.tagCheck_eq_none_iff tag).mpr free
  have taken : exec (.manageSend tag message) s = .next (s.quiet.takeManageSend tag message) := by
    rw [exec_transfer (i := .manageSend tag message) rfl, State.request_ready hp, State.takeRequest]
  have carried (h4 : 4 ≤ message.length) (h1028 : message.length ≤ 1028) (hw : s.management.slot ≠ .working) :
      s.quiet.takeManageSend tag message
        = (s.completes tag.toNat .good).takeMessage (messageKind message) (readMessage message) := by
    have hl : ¬ (message.length < 4 ∨ 1028 < message.length) := by omega
    rw [State.takeManageSend, ht]
    dsimp only
    rw [if_neg hl, State.quiet_management, if_neg hw, State.quiet_send_completion]
  rw [taken]
  refine ⟨fun hl => ?_, fun h4 h1028 hw => ?_, fun h4 h1028 hw => ⟨fun hn => ?_, fun i hi => ⟨?_, ?_⟩⟩⟩
  · rw [State.takeManageSend, ht]
    dsimp only
    rw [if_pos hl, State.quiet_send_completion]
  · have hl : ¬ (message.length < 4 ∨ 1028 < message.length) := by omega
    rw [State.takeManageSend, ht]
    dsimp only
    rw [if_neg hl, State.quiet_management, if_pos hw, State.quiet_send_completion]
  · rw [carried h4 h1028 hw, hn, State.takeMessage]
    simp [State.beginRequest, State.reply_current, State.completes, State.answered]
  · rw [carried h4 h1028 hw, hi]
  · obtain ⟨hk, hf⟩ := readMessage_spec hi
    rw [exec_request_offered hk hp hw, if_pos hf]
    rfl

/-- Settles O50, by the state of the slot. -/
theorem manageFetchDelivers : Obligations.ManageFetchDelivers := by
  intro s tag hp free
  have ht : s.quiet.tagCheck tag = none := (State.tagCheck_eq_none_iff tag).mpr free
  have taken : exec (.manageFetch tag) s = .next { s with
      management := s.management.afterFetch
      sent := [.reply tag.toNat s.management.fetched.message, .completion tag.toNat .good] } := by
    rw [exec_transfer (i := .manageFetch tag) rfl, State.request_ready hp, State.takeRequest, State.takeManageFetch,
      ht]
    rfl
  rw [taken]
  refine ⟨fun h => ?_, fun h => ?_, fun r h hb => ?_⟩
  · simp [ManagementChannel.afterFetch, ManagementChannel.fetched, h]
    rfl
  · simp [ManagementChannel.afterFetch, ManagementChannel.fetched, h]
    rfl
  · simp [ManagementChannel.afterFetch, ManagementChannel.fetched, h, hb, Reply.message, le]

end Sys2Proof.Proofs
end

section
/-! PROOFS. The event in which a resumed response's first key arrives and the start-up sequence ends (R100, R102,
R146): rights at power-on, and what waited for port ready. -/

namespace Sys2Proof.Machine

variable {s : State}

/-! ### Rights, region by region -/

theorem RegionStatus.setRight_locked {x : RegionStatus} {k : RightKind} (h : x.right k = .locked) :
    x.setRight k .locked = x := by
  cases x; cases k <;> (cases h; rfl)

/-- An entry of a table with one entry replaced. -/
theorem getElem_set_fin {α : Type} {n : Nat} (v : Vector α n) (r q : Fin n) (x : α) :
    (v.set r x)[q] = if q = r then x else v[q] := by
  by_cases hq : q = r
  · subst hq; simp
  · have : ¬ r.val = q.val := fun e => hq (Fin.ext e.symm)
    simp [hq, this]

theorem State.lockRight_regions (k : RightKind) (r q : RegionIx) : (s.lockRight k r).regions[q] =
    if q = r then s.regions[q].setRight k .locked else s.regions[q] := by
  unfold State.lockRight
  split
  · rename_i h
    split
    · rename_i hq
      rw [hq, RegionStatus.setRight_locked h]
    · rfl
  · rw [State.unloadTest_frame]
    dsimp only
    rw [State.setStatus_regions, getElem_set_fin]
    split
    · rename_i hq; rw [hq]
    · rfl

theorem State.lockBoth_regions (r q : RegionIx) : (s.lockBoth r).regions[q] =
    if q = r then { s.regions[q] with read := .locked, write := .locked } else s.regions[q] := by
  unfold State.lockBoth
  rw [State.lockRight_regions, State.lockRight_regions]
  split <;> rfl

/-- Equal tables have equal entries. -/
theorem getElem_congr_table {α : Type} {n : Nat} {v w : Vector α n} (h : v = w) (q : Fin n) : v[q] = w[q] :=
  congrArg (fun u : Vector α n => u[q]) h

theorem State.openRight_other {k : RightKind} {r q : RegionIx} (h : q ≠ r) :
    (s.openRight k r).regions[q] = s.regions[q] := by
  have loaded : (s.loadKey r).regions = s.regions := by simp
  unfold State.openRight
  split
  · rfl
  · dsimp only
    split
    · refine (getElem_congr_table (State.setStatus_regions _ _ _) q).trans ?_
      rw [getElem_set_fin, if_neg h]
      exact getElem_congr_table loaded q
    · exact getElem_congr_table loaded q

/-! ### Step 7: rights at power-on (R31) -/

/-- A region under erase hold opens no right at power-on, and no other region's rights move. -/
theorem State.powerOnRights_held {q : RegionIx} (h : s.regions[q].eraseHold = true) (r : RegionIx) :
    (s.powerOnRights r).regions[q] =
      if q = r then { s.regions[q] with read := .locked, write := .locked } else s.regions[q] := by
  unfold State.powerOnRights
  by_cases hq : q = r
  · subst hq
    have : s.openable q = false := by rw [State.openable, h]; simp
    simp only [this, Bool.false_eq_true, and_false, if_false, State.lockBoth_regions]
  · dsimp only
    rw [if_neg hq]
    repeat' split
    all_goals simp only [State.openRight_other hq, State.lockBoth_regions, if_neg hq]

/-- After step 7 a region under erase hold has both rights LOCKED (R31, R32). -/
theorem State.setPowerOnRights_held {q : RegionIx} (h : s.regions[q].eraseHold = true) :
    s.setPowerOnRights.regions[q] = { s.regions[q] with read := .locked, write := .locked } := by
  have locked (xs : List RegionIx) (t : State) (ht : t.regions[q].eraseHold = true) :
      (xs.foldl State.powerOnRights t).regions[q] =
        if q ∈ xs then { t.regions[q] with read := .locked, write := .locked } else t.regions[q] := by
    induction xs generalizing t with
    | nil => simp
    | cons r xs ih =>
      have held := State.powerOnRights_held ht r
      rw [List.foldl_cons, ih _ (by rw [held]; split <;> exact ht), held]
      by_cases hq : q = r <;> simp [hq]
  rw [State.setPowerOnRights, locked _ _ h, if_pos (mem_allRegions q)]

/-! ### The end of the draw that a resumed response awaits -/

/-- The awaited key has arrived: its record is complete, its crypto-erase commits, and the response controller has
answered the start-up controller (R49, R146, R150). -/
def State.keyArrived (s : State) (r : RegionIx) (g : Nat) (scrub : Bool) (bits : BitVec 512) : State :=
  { s with
    sent := []
    random := { s.random with queue := [] }
    work := { s.work with keys := s.work.keys.set r ⟨g, some ⟨bits, s.fuses.rootKey⟩⟩ }
    erases := [⟨r, .response, scrub, .committing⟩]
    response := { s.response with answerDue := false }
    store := { s.store with queue := s.store.queue ++ [.keyDestruction r] } }

theorem State.endDraw_keyArrived {r : RegionIx} {g : Nat} {scrub : Bool} {bits : BitVec 512}
    (hq : s.random.queue = [.key r g (.erase .response)]) (hw : s.random.waiting = [])
    (he : s.erases = [⟨r, .response, scrub, .destroyed g⟩]) (hh : s.holds .response = false)
    (hg : s.work.keys[r].generation < g) : s.quiet.endDraw bits = s.keyArrived r g scrub bits := by
  have free (t : State) (h : t.store = s.store) : t.holds .response = false := by rw [State.holds, h]; exact hh
  have drawn : s.quiet.endDraw bits = State.takeMaterial r g (.erase .response) bits
      { s.quiet with random := { s.random with queue := [] } } := by
    simp only [State.endDraw, State.quiet_random, hq, State.requestWaiting, hw, List.find?_nil]
  have awaited : State.awaitsDraw { s.quiet with random := { s.random with queue := [] } } r .response g = true := by
    simp [State.awaitsDraw, he]
  have wrapped : State.wrapMaterial r g bits { s.quiet with random := { s.random with queue := [] } }
      = { s.quiet with
          random := { s.random with queue := [] }
          work := { s.work with keys := s.work.keys.set r ⟨g, some ⟨bits, s.fuses.rootKey⟩⟩ } } :=
    if_pos hg
  rw [drawn, State.takeMaterial]
  dsimp only
  rw [if_pos awaited, wrapped, State.keyComplete]
  dsimp only
  rw [State.submit_free (free _ rfl)]
  simp [State.setEraseStage, State.keyArrived, State.quiet, he]

/-- Without a scrub list the sequence starts no walk in its last steps. -/
theorem State.lastSteps_of_no_list (h : s.work.scrubList = []) :
    s.lastSteps = s.setPowerOnRights.showAtPowerOn.startBackoffs.takeGateMode.assertReady := by
  have : s.setPowerOnRights.showAtPowerOn.startBackoffs.resumeScrub
      = s.setPowerOnRights.showAtPowerOn.startBackoffs := by
    simp [State.resumeScrub, h]
  rw [State.lastSteps, this]

/-- The event in which the key has arrived ends with steps 7 to 12 of the start-up sequence and the gate (R100,
R102). -/
theorem State.keyArrived_settle {r : RegionIx} {g : Nat} {scrub : Bool} {bits : BitVec 512}
    (hs : s.startUp.phase = .resuming) (hr : s.response.running.isSome = true) (hl : s.work.scrubList = [])
    (hn : s.nextGrant = .nothing) :
    (s.keyArrived r g scrub bits).settle = (s.keyArrived r g scrub bits).lastSteps.serveStore := by
  generalize ht : s.keyArrived r g scrub bits = t
  have still : t.ResponseStill := by
    refine State.responseStill_of_busy ?_
    obtain ⟨R, hR⟩ := Option.isSome_iff_exists.mp hr
    simp [← ht, State.keyArrived, State.responseFree, hR]
  have due (q : RegionIx) : t.destructionsDue q = [] := by
    simp [← ht, State.keyArrived, State.destructionsDue]
  have list : t.work.scrubList = [] := by rw [← ht]; exact hl
  have steps : t.progress = t.lastSteps := by
    rw [State.progress, if_pos (by rw [← ht]; exact ⟨hs, rfl⟩)]
  have list' : t.lastSteps.work.scrubList = [] := by rw [State.lastSteps_of_no_list list]; simpa using list
  have grant : t.lastSteps.nextGrant = .nothing := by
    rw [State.lastSteps_of_no_list list]
    refine State.nextGrant_nothing_congr hn ?_ ?_ ?_ <;> (rw [← ht]; simp [State.keyArrived])
  rw [State.settle, State.takeIfFree_of_still still, State.destroyAllDue_of_not_due due, steps,
    State.startWalkIfDue_of_not_due (State.walkDue_of_no_list list'), State.serveMedia_of_no_list list' grant]

/-- The state in which what waited for port ready is taken: the start-up sequence has ended (R1, R100). -/
def State.portAsserted (s : State) (r : RegionIx) (g : Nat) (scrub : Bool) (bits : BitVec 512) : State :=
  { (s.keyArrived r g scrub bits).lastSteps.serveStore with offered := [] }

theorem exec_awaited_draw {r : RegionIx} {g : Nat} {scrub : Bool} {bits : BitVec 512}
    (hs : s.startUp = ⟨true, false, .resuming⟩) (hr : s.response.running.isSome = true)
    (hready : s.random.ready = true) (hq : s.random.queue = [.key r g (.erase .response)])
    (hw : s.random.waiting = []) (he : s.erases = [⟨r, .response, scrub, .destroyed g⟩])
    (hl : s.work.scrubList = []) (hn : s.nextGrant = .nothing) (hh : s.holds .response = false)
    (hg : s.work.keys[r].generation < g) : exec (.randomDrawEnd bits) s
      = .next (s.offered.foldl (fun u i => u.takeRequest i) (s.portAsserted r g scrub bits)) := by
  have run : exec (.randomDrawEnd bits) s
      = .next (if s.random.ready then (s.quiet.endDraw bits).settle.takeOffered else s.quiet) := rfl
  have power : (s.keyArrived r g scrub bits).startUp.powerGood = true := by simp [State.keyArrived, hs]
  have ready : (s.keyArrived r g scrub bits).lastSteps.serveStore.startUp.portReady = true := by
    have steps := State.lastSteps_of_no_list (s := s.keyArrived r g scrub bits) hl
    simp [steps, State.assertReady, power]
  have waits : (s.keyArrived r g scrub bits).lastSteps.serveStore.offered = s.offered := by
    simp [State.keyArrived]
  rw [run, if_pos hready, State.endDraw_keyArrived hq hw he hh hg,
    State.keyArrived_settle (by rw [hs]) hr hl hn, State.takeOffered, if_pos ready, waits, State.portAsserted]

end Sys2Proof.Machine

namespace Sys2Proof.Proofs

open Sys2Proof Sys2Proof.Machine

/-- Settles O51: a request row offers its request; before port ready it waits, after it it is taken; what waited is
taken in the event that ends the start-up sequence; checks 2 and 3 of R174 give the two refusals. -/
theorem requestsHeldOrRefused : Obligations.RequestsHeldOrRefused := by
  refine ⟨fun s i hi => ⟨fun hp => ?_, fun hp => ?_⟩, ?_, fun s i kind hk hwf => ?_⟩
  · rw [exec_offered hi, State.request]; simp [hp, State.quiet]
  · rw [exec_offered hi, State.request_ready hp]; rfl
  · intro s r g scrub bits hs hd hr hready hq hw he hl hn hh hg
    have power : (s.keyArrived r g scrub bits).startUp.powerGood = true := by simp [State.keyArrived, hs]
    have steps := State.lastSteps_of_no_list (s := s.keyArrived r g scrub bits) hl
    refine ⟨_, exec_awaited_draw hs hr hready hq hw he hl hn hh hg, ?_⟩
    have held (q : RegionIx) (hq : s.regions[q].eraseHold = true) :
        (s.portAsserted r g scrub bits).regions[q] = { s.regions[q] with read := .locked, write := .locked } := by
      refine (getElem_congr_table ?_ q).trans (State.setPowerOnRights_held (s := s.keyArrived r g scrub bits) hq)
      simp [State.portAsserted, steps]
    refine ⟨?_, ?_, ?_, ?_, ?_, ?_, ?_, ?_, ?_, ?_, ?_, fun q hq => ?_⟩
    · simp [State.portAsserted, steps, State.assertReady, power]
    · rfl
    · simp [State.portAsserted, State.keyArrived]
    · simp [State.portAsserted, State.keyArrived]
    · simp only [State.portAsserted, steps]; simp; rfl
    · simp [State.portAsserted, State.keyArrived]
    · simp only [State.portAsserted, State.serveStore_queue, steps]; simp; rfl
    · simp [State.portAsserted, State.keyArrived]
    · simp [State.portAsserted, State.keyArrived]
    · simp [State.portAsserted, State.keyArrived]
    · simp only [State.portAsserted, steps]; simp [State.showAtPowerOn]; rfl
    · rw [held q hq]; exact ⟨rfl, rfl⟩
  · have fits := messageFits_of_wellFormed hwf
    have unauthorised (ht : s.TakesRequests) (ha : s.authority i = false) :=
      exec_request_refused hk fits ht ha
    refine ⟨exec_request_waits hk, exec_request_discarded hk, fun hp hw hr h1 h18 => ?_, fun ht ha h => ?_,
      fun target cost secret ht ha hi hc => ?_, fun ht hkind hc => ?_⟩
    · exact exec_request_checked hk fits hp hw
        (if_pos ⟨hr, openDuringRevert_of_kind hk h1 h18⟩)
    · exact unauthorised ht (by rw [authority_of_kind hk h, ha])
    · subst hi
      exact unauthorised ht (by simp [State.authority, State.targetPresented_eq_false hc, ha])
    · refine unauthorised ht ?_
      subst hkind
      cases i <;> cases hk
      exact State.anyPresented_eq_false hc

end Sys2Proof.Proofs
end

section
/-! PROOFS. The end of a host segment at the media (R16 to R18, R35, R69, R70): what the transfer table, the port, the
region table and the key slots make of it, and the merged status of a transfer in any order of its segments' ends. -/

namespace Sys2Proof.Machine

variable {s : State}

/-! ### The transfer table -/

theorem State.transfer_tag {tag : Nat} {t : Transfer} (h : s.transfer tag = some t) : t.tag = tag := by
  simpa using List.find?_some h

theorem State.completeIfDone_sent (t : Transfer) : (s.completeIfDone t).sent =
    s.sent ++ if t.outstanding = 0 then [.completion t.tag t.merged] else [] := by
  unfold State.completeIfDone
  split <;> simp [State.send, State.dropTransfer, State.setTransfer]

/-- The admission unit has taken a segment's end: read data first, then the entry or its completion (R16 to R18). -/
def State.segmentTaken (t : Transfer) (index : Nat) (g : Segment) (status : Status) (held : List Block)
    (s : State) : State :=
  State.completeIfDone (t.segmentDone index g status)
    (if t.kind = .read then s.send (.readData t.tag (g.first - t.start) (segmentData g status held)) else s)

theorem State.segmentTaken_frame (t : Transfer) (index : Nat) (g : Segment) (status : Status) (held : List Block) :
    s.segmentTaken t index g status held = { s with
      transfers := (s.segmentTaken t index g status held).transfers
      sent := (s.segmentTaken t index g status held).sent } := by
  unfold State.segmentTaken
  rw [State.completeIfDone_frame]
  split <;> rfl

theorem State.segmentTaken_transfers (t : Transfer) (index : Nat) (g : Segment) (status : Status)
    (held : List Block) : (s.segmentTaken t index g status held).transfers =
      if (t.segmentDone index g status).outstanding = 0 then s.transfers.filter fun y => y.tag != t.tag
      else s.transfers.map fun y => if y.tag = t.tag then t.segmentDone index g status else y := by
  have tag : (t.segmentDone index g status).tag = t.tag := rfl
  have same (e : PortEvent) : (if t.kind = .read then s.send e else s).transfers = s.transfers := by
    split <;> rfl
  rw [State.segmentTaken, State.completeIfDone_transfers, same, tag]

theorem State.segmentTaken_sent (t : Transfer) (index : Nat) (g : Segment) (status : Status) (held : List Block) :
    (s.segmentTaken t index g status held).sent = s.sent
      ++ (if t.kind = .read then [.readData t.tag (g.first - t.start) (segmentData g status held)] else [])
      ++ (if (t.segmentDone index g status).outstanding = 0 then
          [.completion t.tag (t.segmentDone index g status).merged] else []) := by
  have tag : (t.segmentDone index g status).tag = t.tag := rfl
  unfold State.segmentTaken
  rw [State.completeIfDone_sent, tag]
  split <;> simp [State.send]

/-! ### Admitted counts (R35) -/

theorem State.lowerAdmitted_regions (r q : RegionIx) : (s.lowerAdmitted r).regions[q] =
    if q = r then { s.regions[q] with admitted := s.regions[q].admitted - 1 } else s.regions[q] := by
  have set : (s.lowerAdmitted r).regions
      = s.regions.set r { s.regions[r] with admitted := s.regions[r].admitted - 1 } := by
    unfold State.lowerAdmitted
    dsimp only
    split <;> simp
  rw [getElem_congr_table set, getElem_set_fin]
  split
  · rename_i h; rw [h]
  · rfl

/-- A key is unloaded with a segment's end only where nothing holds it any more (R54). -/
theorem State.lowerAdmitted_keys (r q : RegionIx) :
    (s.lowerAdmitted r).keys[q].highestDrawn = s.keys[q].highestDrawn
      ∧ ((s.lowerAdmitted r).keys[q].loaded = s.keys[q].loaded
        ∨ (s.lowerAdmitted r).keys[q].loaded = none ∧ (s.lowerAdmitted r).regions[q].read = .locked
          ∧ (s.lowerAdmitted r).regions[q].write = .locked ∧ (s.lowerAdmitted r).regions[q].admitted = 0) := by
  unfold State.lowerAdmitted
  dsimp only
  split
  · simp only [State.unloadTest_keys, State.setStatus_keys]
    split
    · rename_i h
      obtain ⟨rfl, due⟩ := h
      simp only [State.unloadDue, Bool.and_eq_true, beq_iff_eq] at due
      obtain ⟨⟨⟨read, write⟩, admitted⟩, -⟩ := due
      refine ⟨rfl, .inr ⟨rfl, ?_⟩⟩
      have same := State.unloadTest_rest (s := s.setStatus q { s.regions[q] with
        admitted := s.regions[q].admitted - 1 }) q
      simp only [same]
      exact ⟨read, write, admitted⟩
    · exact ⟨rfl, .inl rfl⟩
  · exact ⟨rfl, .inl rfl⟩

/-! ### The taking of a segment's end -/

theorem State.takeSegment_cipher {tag index : Nat} {t : Transfer} {g : Segment} {r : RegionIx}
    (ht : s.transfer tag = some t) (hs : t.segments[index]? = some g) (hd : g.disposition = .cipher)
    (ho : g.owner = some (.region r)) (status : Status) (held : List Block) :
    s.takeSegment tag index status held = (s.segmentTaken t index g status held).lowerAdmitted r := by
  simp only [State.takeSegment, ht, hs, hd, ho, State.segmentTaken, State.transfer_tag ht]

theorem State.takeSegment_other {tag index : Nat} {t : Transfer} {g : Segment}
    (ht : s.transfer tag = some t) (hs : t.segments[index]? = some g)
    (h : ∀ r, ¬ (g.disposition = .cipher ∧ g.owner = some (.region r))) (status : Status) (held : List Block) :
    s.takeSegment tag index status held = s.segmentTaken t index g status held := by
  simp only [State.takeSegment, ht, hs, State.segmentTaken, State.transfer_tag ht]
  split
  · rename_i r hd ho
    exact absurd ⟨hd, ho⟩ (h r)
  · rfl

/-- Beyond the transfer table and what is sent, a segment's end reaches rights and keys alone (R35, R54). -/
theorem State.takeSegment_taken {tag index : Nat} {t : Transfer} {g : Segment}
    (ht : s.transfer tag = some t) (hs : t.segments[index]? = some g) (status : Status) (held : List Block) :
    s.takeSegment tag index status held = { s.segmentTaken t index g status held with
      regions := (s.takeSegment tag index status held).regions
      keys := (s.takeSegment tag index status held).keys } := by
  by_cases hc : ∃ r, g.disposition = .cipher ∧ g.owner = some (.region r)
  · obtain ⟨r, hd, ho⟩ := hc
    rw [State.takeSegment_cipher ht hs hd ho]
    exact State.lowerAdmitted_frame r
  · rw [State.takeSegment_other ht hs fun r h => hc ⟨r, h⟩]

theorem State.takeSegment_regions {tag index : Nat} {t : Transfer} {g : Segment}
    (ht : s.transfer tag = some t) (hs : t.segments[index]? = some g) (status : Status) (held : List Block)
    (q : RegionIx) : (s.takeSegment tag index status held).regions[q] =
      if g.disposition = .cipher ∧ g.owner = some (.region q) then
        { s.regions[q] with admitted := s.regions[q].admitted - 1 } else s.regions[q] := by
  have same : (s.segmentTaken t index g status held).regions = s.regions := by rw [State.segmentTaken_frame]
  by_cases hc : ∃ r, g.disposition = .cipher ∧ g.owner = some (.region r)
  · obtain ⟨r, hd, ho⟩ := hc
    rw [State.takeSegment_cipher ht hs hd ho, State.lowerAdmitted_regions, same]
    simp only [hd, ho, true_and, Option.some.injEq, Owner.region.injEq, eq_comm (a := q)]
  · rw [State.takeSegment_other ht hs fun r h => hc ⟨r, h⟩, same, if_neg fun h => hc ⟨q, h⟩]

theorem State.takeSegment_keys {tag index : Nat} {t : Transfer} {g : Segment}
    (ht : s.transfer tag = some t) (hs : t.segments[index]? = some g) (status : Status) (held : List Block)
    (q : RegionIx) : (s.takeSegment tag index status held).keys[q].highestDrawn = s.keys[q].highestDrawn
      ∧ ((s.takeSegment tag index status held).keys[q].loaded = s.keys[q].loaded
        ∨ (s.takeSegment tag index status held).keys[q].loaded = none
          ∧ (s.takeSegment tag index status held).regions[q].read = .locked
          ∧ (s.takeSegment tag index status held).regions[q].write = .locked
          ∧ (s.takeSegment tag index status held).regions[q].admitted = 0) := by
  have same : (s.segmentTaken t index g status held).keys = s.keys := by rw [State.segmentTaken_frame]
  by_cases hc : ∃ r, g.disposition = .cipher ∧ g.owner = some (.region r)
  · obtain ⟨r, hd, ho⟩ := hc
    rw [State.takeSegment_cipher ht hs hd ho]
    have keys := (s.segmentTaken t index g status held).lowerAdmitted_keys r q
    rwa [same] at keys
  · rw [State.takeSegment_other ht hs fun r h => hc ⟨r, h⟩, same]
    exact ⟨rfl, .inl rfl⟩

/-! ### Read data (R17, R69) -/

theorem segmentData_eq (g : Segment) (status : Status) (held : List Block) : segmentData g status held =
    if status = .good ∧ g.disposition = .cipher then [.blocks held]
    else if status = .good ∧ g.disposition = .image then [.blocks held, .zeros (g.count - g.imageBlocks)]
    else [.zeros g.count] := by
  unfold segmentData
  split
  · simp [*]
  · simp [*]
  · rename_i h1 h2
    rw [if_neg fun h => h1 h.2 h.1, if_neg fun h => h2 h.2 h.1]

theorem heldBlocks_length (operation : BitVec 32) (arrived : List (Nat × Block)) (count : Nat) :
    (heldBlocks operation arrived count).length = count := by
  simp [heldBlocks]

theorem heldBlocks_getElem? {operation : BitVec 32} {arrived : List (Nat × Block)} {count k : Nat} {b : Block}
    (hk : k < count) (h : (arrived.find? fun y => y.1 == k) = some (k, b)) :
    (heldBlocks operation arrived count)[k]? = some b := by
  simp [heldBlocks, arrivedBlock, hk, h]

theorem arrivedBlock_eq_none_iff (arrived : List (Nat × Block)) (k : Nat) :
    arrivedBlock arrived k = none ↔ ∀ y ∈ arrived, y.1 ≠ k := by
  simp [arrivedBlock]

/-- A READ that ends GOOD with a block missing is a MEDIA-ERROR (R69). -/
theorem SlotRecord.completionStatus_eq (x : SlotRecord) (good : Bool) : x.completionStatus good =
    if good = false then .mediaError
    else if x.kind = .read ∧ ∃ k < x.range.elim 0 (·.length), ∀ y ∈ x.arrived, y.1 ≠ k then .mediaError
    else .good := by
  have missing : (¬ (List.range (x.range.elim 0 (·.length))).all fun k => (arrivedBlock x.arrived k).isSome)
      ↔ ∃ k < x.range.elim 0 (·.length), ∀ y ∈ x.arrived, y.1 ≠ k := by
    simp only [← arrivedBlock_eq_none_iff]
    simp
  simp only [SlotRecord.completionStatus, missing]
  cases good <;> simp

/-! ### The release of a slot that holds a host segment (R69, R70) -/

/-- What the end of a host segment leaves behind, in the event that began with s. -/
def State.SegmentEnds (s : State) (i : SlotIx) (x : SlotRecord) (tag index : Nat) (t : Transfer) (g : Segment)
    (status : Status) (before : List PortEvent) (u : State) : Prop :=
  let t' := t.segmentDone index g status
  u = { s with
      port := { s.port with slots := s.port.slots.set i none }
      transfers := u.transfers, sent := u.sent, regions := u.regions, keys := u.keys }
  ∧ u.transfers = (if t'.outstanding = 0 then s.transfers.filter fun y => y.tag != tag
      else s.transfers.map fun y => if y.tag = tag then t' else y)
  ∧ u.sent = before
      ++ (if t.kind = .read then [.readData tag (g.first - t.start) (segmentData g status
          (heldBlocks x.operation x.arrived (x.range.elim 0 (·.length))))] else [])
      ++ (if t'.outstanding = 0 then [.completion tag t'.merged] else [])
  ∧ (∀ r : RegionIx, u.regions[r] =
      if g.disposition = .cipher ∧ g.owner = some (.region r) then
        { s.regions[r] with admitted := s.regions[r].admitted - 1 } else s.regions[r])
  ∧ ∀ r : RegionIx, u.keys[r].highestDrawn = s.keys[r].highestDrawn
      ∧ (u.keys[r].loaded = s.keys[r].loaded
        ∨ u.keys[r].loaded = none ∧ u.regions[r].read = .locked ∧ u.regions[r].write = .locked
          ∧ u.regions[r].admitted = 0)

/-- Nothing is due in the event of a media message beyond the end it brings. -/
def State.AwaitsMedia (s : State) : Prop :=
  s.ResponseStill ∧ s.erases = [] ∧ s.startUp.phase ≠ .resuming ∧ s.work.scrubList = []
    ∧ s.port.queue = [] ∧ s.offer = none ∧ s.StoreStill

theorem State.nextGrant_of_nothing_waiting (ho : s.offer = none) (hq : s.port.queue = []) :
    s.nextGrant = .nothing := by
  unfold State.nextGrant
  rw [ho, hq]
  split <;> rfl

variable {i : SlotIx} {x : SlotRecord} {tag index : Nat} {t : Transfer} {g : Segment} {status : Status}

theorem State.release_segment (ho : x.occupant = .segment tag index) : s.release i x status
    = (s.setSlot i none).takeSegment tag index status
        (heldBlocks x.operation x.arrived (x.range.elim 0 (·.length))) := by
  simp only [State.release, ho]

theorem State.release_segmentEnds (ho : x.occupant = .segment tag index) (ht : s.transfer tag = some t)
    (hg : t.segments[index]? = some g) :
    s.SegmentEnds i x tag index t g status s.sent (s.release i x status) := by
  obtain rfl := State.transfer_tag ht
  have ht' : (s.setSlot i none).transfer t.tag = some t := ht
  rw [State.release_segment ho]
  have frame := State.takeSegment_taken ht' hg status (heldBlocks x.operation x.arrived (x.range.elim 0 (·.length)))
  refine ⟨?_, (congrArg State.transfers frame).trans ?_, (congrArg State.sent frame).trans ?_,
    State.takeSegment_regions ht' hg _ _, State.takeSegment_keys ht' hg _ _⟩
  · rw [frame, State.segmentTaken_frame]; rfl
  · exact State.segmentTaken_transfers ..
  · exact State.segmentTaken_sent ..

/-- A release that nothing follows: the event ends there. -/
theorem State.release_segment_settle (h : s.AwaitsMedia) (ho : x.occupant = .segment tag index) :
    (s.release i x status).settle = s.release i x status := by
  obtain ⟨hr, he, hp, hl, hq, hf, hs⟩ := h
  rw [State.release_segment ho]
  generalize hu : (s.setSlot i none).takeSegment tag index status _ = u
  have calm : u.Calm := by
    refine ⟨State.responseStill_congr hr ?_ ?_ ?_ ?_, ?_, ?_, ?_, State.nextGrant_of_nothing_waiting ?_ ?_⟩ <;>
      subst hu
    · simp [State.setSlot]
    · simp [State.setSlot]
    · simp [State.setSlot]
    · simp [State.setSlot]
    · simpa [State.setSlot] using he
    · simpa [State.setSlot] using hp
    · simpa [State.setSlot] using hl
    · simpa [State.setSlot, State.offer] using hf
    · simpa [State.setSlot] using hq
  have still : u.StoreStill := by subst hu; simpa [State.StoreStill, State.setSlot] using hs
  rw [State.settle_of_calm calm, State.serveStore_of_still still]

/-- A completion of a host segment's operation (R69). -/
theorem exec_completion_segment {good : Bool} (hp : s.startUp.powerGood = true) (h : s.AwaitsMedia)
    (hi : s.slotOf x.operation = some i) (hx : s.port.slots[i] = some x) (ho : x.occupant = .segment tag index)
    (ht : s.transfer tag = some t) (hg : t.segments[index]? = some g) :
    ∃ u, exec (.mediaCompletion x.operation good) s = .next u
      ∧ s.SegmentEnds i x tag index t g (x.completionStatus good) [] u := by
  have run : exec (.mediaCompletion x.operation good) s = .next (if s.startUp.powerGood then
      s.quiet.takeCompletion x.operation good else s.quiet) := rfl
  have hi' : s.quiet.slotOf x.operation = some i := hi
  have hx' : s.quiet.port.slots[i] = some x := hx
  have taken : s.quiet.takeCompletion x.operation good
      = (s.quiet.release i x (x.completionStatus good)).settle := by
    simp only [State.takeCompletion, hi', hx']
  rw [run, if_pos hp, taken, State.release_segment_settle (s := s.quiet) h ho]
  exact ⟨_, rfl, State.release_segmentEnds (s := s.quiet) ho ht hg⟩

/-- The media timeout of a host segment's operation (R70). -/
theorem exec_timeout_segment (h : s.AwaitsMedia) (hx : s.port.slots[i] = some x) (hs : x.seconds ≤ 1)
    (ho : x.occupant = .segment tag index) (ht : s.transfer tag = some t) (hg : t.segments[index]? = some g) :
    ∃ u, exec (.mediaTimeout i) s = .next u
      ∧ s.SegmentEnds i x tag index t g .mediaTimeout [.operationAbort x.operation] u := by
  have run : exec (.mediaTimeout i) s = .next (if s.port.slots[i].any fun x => decide (x.seconds ≤ 1) then
      (s.quiet.expire i).settle else s.quiet) := rfl
  have hx' : s.quiet.port.slots[i] = some x := hx
  have expired : s.quiet.expire i
      = (s.quiet.send (.operationAbort x.operation)).release i x .mediaTimeout := by
    simp only [State.expire, hx']
  rw [run, if_pos (by rw [hx]; simpa using hs), expired,
    State.release_segment_settle (s := s.quiet.send _) h ho]
  exact ⟨_, rfl, State.release_segmentEnds (s := s.quiet.send _) ho ht hg⟩

/-! ### The merged status (R16, R18) -/

/-- The merged status with its first LBA, as one of the two sides of a merge. -/
theorem Transfer.segmentDone_merged (t : Transfer) (i : Nat) (x : Segment) (a : Status) :
    (t.segmentDone i x a).merged =
        (if a = .good then t.merged else if t.merged = .good ∨ x.first < t.mergedFrom then a else t.merged)
      ∧ (t.segmentDone i x a).mergedFrom =
        (if a = .good then t.mergedFrom else if t.merged = .good ∨ x.first < t.mergedFrom then x.first
          else t.mergedFrom) := by
  simp only [Transfer.segmentDone, mergeStatus]
  split
  · exact ⟨rfl, rfl⟩
  · split <;> exact ⟨rfl, rfl⟩

theorem Transfer.segmentDone_comm_of_lt {x y : Segment} (h : x.first < y.first) (t : Transfer) (i j : Nat)
    (a b : Status) :
    ((t.segmentDone i x a).segmentDone j y b).merged = ((t.segmentDone j y b).segmentDone i x a).merged
      ∧ ((t.segmentDone i x a).segmentDone j y b).mergedFrom
        = ((t.segmentDone j y b).segmentDone i x a).mergedFrom := by
  have not_lt : ¬ y.first < x.first := Nat.lt_asymm h
  simp only [Transfer.segmentDone_merged]
  by_cases ha : a = .good
  · simp only [ha, if_true, and_self]
  by_cases hb : b = .good
  · simp only [hb, if_true, and_self]
  by_cases hm : t.merged = .good
  · simp [ha, hb, hm, h, not_lt]
  by_cases hx : x.first < t.mergedFrom
  · by_cases hy : y.first < t.mergedFrom <;> simp [ha, hb, hm, h, hx, hy, not_lt]
  · have hy : ¬ y.first < t.mergedFrom := fun hy => hx (h.trans hy)
    simp [ha, hb, hm, hx, hy]

/-- Two segments of different first LBAs merge to the same status in either order. -/
theorem Transfer.segmentDone_comm {x y : Segment} (h : x.first ≠ y.first) (t : Transfer) (i j : Nat) (a b : Status) :
    ((t.segmentDone i x a).segmentDone j y b).merged = ((t.segmentDone j y b).segmentDone i x a).merged
      ∧ ((t.segmentDone i x a).segmentDone j y b).mergedFrom
        = ((t.segmentDone j y b).segmentDone i x a).mergedFrom := by
  rcases Nat.lt_or_gt_of_ne h with hlt | hlt
  · exact t.segmentDone_comm_of_lt hlt i j a b
  · obtain ⟨merged, mergedFrom⟩ := t.segmentDone_comm_of_lt hlt j i b a
    exact ⟨merged.symm, mergedFrom.symm⟩

/-- The done segments of an entry once the segment at an index, not yet done, is replaced by a done one. -/
theorem mem_set_done {xs : List Segment} {i : Nat} {x x' y : Segment} (hx : xs[i]? = some x) (hs : x.state ≠ .done)
    (hy : y.state = .done) : y ∈ xs.set i x' ↔ y = x' ∨ y ∈ xs := by
  obtain ⟨hi, rfl⟩ := List.getElem?_eq_some_iff.mp hx
  constructor
  · exact fun h => (List.mem_or_eq_of_mem_set h).symm
  · rintro (rfl | h)
    · exact List.mem_set hi y
    · obtain ⟨k, hk, rfl⟩ := List.mem_iff_getElem.mp h
      have apart : i ≠ k := by rintro rfl; exact hs hy
      exact List.mem_iff_getElem.mpr ⟨k, by simpa using hk, List.getElem_set_ne apart _⟩

/-- The merged status stays right with every segment's end (R16). -/
theorem Transfer.MergedRight.segmentDone {t : Transfer} {i : Nat} {x : Segment} (h : t.MergedRight)
    (hx : t.segments[i]? = some x) (hs : x.state ≠ .done) (a : Status) : (t.segmentDone i x a).MergedRight := by
  obtain ⟨merged, mergedFrom⟩ := t.segmentDone_merged i x a
  have done (y : Segment) (hy : y.state = .done) : y ∈ (t.segmentDone i x a).segments
      ↔ y = { x with state := .done, status := a } ∨ y ∈ t.segments := mem_set_done hx hs hy
  unfold Transfer.MergedRight
  rw [merged, mergedFrom]
  by_cases ha : a = .good
  · simp only [if_pos ha]
    rcases h with ⟨hm, hgood⟩ | ⟨hm, y, hy, hyd, hst, hf, hlow⟩
    · refine .inl ⟨hm, fun y hy hyd => ?_⟩
      rcases (done y hyd).mp hy with rfl | hy
      · exact ha
      · exact hgood y hy hyd
    · refine .inr ⟨hm, y, (done y hyd).mpr (.inr hy), hyd, hst, hf, fun z hz hzd hzg => ?_⟩
      rcases (done z hzd).mp hz with rfl | hz
      · exact absurd ha hzg
      · exact hlow z hz hzd hzg
  · simp only [if_neg ha]
    have lowest (low : ∀ z ∈ t.segments, z.state = .done → z.status ≠ .good → x.first ≤ z.first) :
        ∃ y ∈ (t.segmentDone i x a).segments, y.state = .done ∧ y.status = a ∧ y.first = x.first
          ∧ ∀ z ∈ (t.segmentDone i x a).segments, z.state = .done → z.status ≠ .good → y.first ≤ z.first := by
      refine ⟨_, (done _ rfl).mpr (.inl rfl), rfl, rfl, rfl, fun z hz hzd hzg => ?_⟩
      rcases (done z hzd).mp hz with rfl | hz
      · exact le_refl _
      · exact low z hz hzd hzg
    rcases h with ⟨hm, hgood⟩ | ⟨hm, y, hy, hyd, hst, hf, hlow⟩
    · simp only [if_pos (Or.inl hm : t.merged = .good ∨ x.first < t.mergedFrom)]
      exact .inr ⟨ha, lowest fun z hz hzd hzg => absurd (hgood z hz hzd) hzg⟩
    · by_cases hlt : x.first < t.mergedFrom
      · simp only [if_pos (Or.inr hlt : t.merged = .good ∨ x.first < t.mergedFrom)]
        refine .inr ⟨ha, lowest fun z hz hzd hzg => ?_⟩
        have := hlow z hz hzd hzg
        omega
      · simp only [if_neg (not_or.mpr ⟨hm, hlt⟩)]
        refine .inr ⟨hm, y, (done y hyd).mpr (.inr hy), hyd, hst, hf, fun z hz hzd hzg => ?_⟩
        rcases (done z hzd).mp hz with rfl | hz
        · exact hf ▸ Nat.le_of_not_lt hlt
        · exact hlow z hz hzd hzg

/-- Once a segment has failed, the merged status is that of the failed segment with the lowest first LBA (R18). -/
theorem Transfer.MergedRight.lowest_failed {t : Transfer} (h : t.MergedRight)
    (failed : ∃ y ∈ t.segments, y.state = .done ∧ y.status ≠ .good) :
    ∃ y ∈ t.segments, y.state = .done ∧ y.status ≠ .good ∧ y.status = t.merged
      ∧ ∀ z ∈ t.segments, z.state = .done → z.status ≠ .good → y.first ≤ z.first := by
  rcases h with ⟨-, hgood⟩ | ⟨hm, y, hy, hyd, hst, -, hlow⟩
  · obtain ⟨y, hy, hyd, hyg⟩ := failed
    exact absurd (hgood y hy hyd) hyg
  · exact ⟨y, hy, hyd, hst ▸ hm, hst, hlow⟩

end Sys2Proof.Machine

namespace Sys2Proof.Proofs

open Sys2Proof Sys2Proof.Machine

/-- Settles O26: the release of the slot hands the segment's status and blocks to the admission unit, and nothing
else is due in the event. -/
theorem hostSegmentEnds : Obligations.HostSegmentEnds := by
  intro s i x tag index t g good hp hr he hresuming hl hq hf hs hi hx ho ht hg ends
  have awaits : s.AwaitsMedia := ⟨hr, he, hresuming, hl, hq, hf, hs⟩
  have of_ends {status : Status} {before : List PortEvent} {u : State}
      (h : s.SegmentEnds i x tag index t g status before u) : ends status before u := by
    obtain ⟨frame, transfers, sent, regions, keys⟩ := h
    exact ⟨frame, transfers, ⟨_, _, sent, segmentData_eq .., heldBlocks_length ..,
      fun k b hk hb => heldBlocks_getElem? hk hb⟩, regions, keys⟩
  constructor
  · obtain ⟨u, run, h⟩ := exec_completion_segment (good := good) hp awaits hi hx ho ht hg
    rw [SlotRecord.completionStatus_eq] at h
    exact ⟨u, run, of_ends h⟩
  · intro hsec
    obtain ⟨u, run, h⟩ := exec_timeout_segment awaits hx hsec ho ht hg
    exact ⟨u, run, of_ends h⟩

/-- Settles O27: the merge compares first LBAs alone, and a failed read segment's data is zero fill. -/
theorem mergeOrderFree : Obligations.MergeOrderFree := by
  refine ⟨fun t i j x y a b h => t.segmentDone_comm h i j a b, fun t i x a h hx hs => h.segmentDone hx hs a, ?_⟩
  intro s i x tag index t g hp hr he hresuming hl hq hf hs hi hx ho ht hg hread hmerged hgs fails
  have awaits : s.AwaitsMedia := ⟨hr, he, hresuming, hl, hq, hf, hs⟩
  have of_ends {status : Status} {before : List PortEvent} {u : State} (hbad : status ≠ .good)
      (h : s.SegmentEnds i x tag index t g status before u) : fails status u := by
    obtain ⟨-, -, sent, -, -⟩ := h
    rw [if_pos hread, segmentData_eq, if_neg fun e => hbad e.1, if_neg fun e => hbad e.1] at sent
    refine ⟨by simp [sent], fun hout => ?_⟩
    have last : (t.segmentDone index g status).outstanding = 0 := Nat.sub_eq_zero_of_le hout
    have ended : ({ g with state := .done, status := status } : Segment) ∈ (t.segmentDone index g status).segments :=
      (mem_set_done hg hgs rfl).mpr (.inl rfl)
    obtain ⟨y, hy, hyd, hyg, hst, hlow⟩ := (hmerged.segmentDone hg hgs status).lowest_failed ⟨_, ended, rfl, hbad⟩
    exact ⟨y, hy, hyd, hyg, by simp [sent, last, hst], hlow⟩
  constructor
  · obtain ⟨u, run, h⟩ := exec_completion_segment (good := false) hp awaits hi hx ho ht hg
    exact ⟨u, run, of_ends (by decide) h⟩
  · intro hsec
    obtain ⟨u, run, h⟩ := exec_timeout_segment awaits hx hsec ho ht hg
    exact ⟨u, run, of_ends (by decide) h⟩

end Sys2Proof.Proofs
end

section
/-! PROOFS. A link reset (R23, R35, R72, R87, R94, R175): what every block makes of it, and the event's end. -/

namespace Sys2Proof.Machine

variable {s : State}

/-! ### Admitted counts (R35, R36, R54) -/

/-- The end of region r's admitted count makes its key unload. -/
abbrev State.DrainUnloads (s : State) (r : RegionIx) : Prop :=
  s.regions[r].admitted ≠ 0 ∧ s.regions[r].read = .locked ∧ s.regions[r].write = .locked ∧ s.scrubHead ≠ some r

theorem State.zeroAdmitted_frame (r : RegionIx) : RightsFrame s (s.zeroAdmitted r) := by
  unfold RightsFrame State.zeroAdmitted
  split
  · rfl
  · rw [State.unloadTest_frame]; rfl

theorem State.zeroAdmitted_regions (r q : RegionIx) : (s.zeroAdmitted r).regions[q] =
    if q = r then { s.regions[q] with admitted := 0 } else s.regions[q] := by
  unfold State.zeroAdmitted
  split
  · rename_i h
    split
    · rename_i hq
      have : { s.regions[r] with admitted := 0 } = { s.regions[r] with admitted := s.regions[r].admitted } := by
        rw [h]
      rw [hq]
      exact this.symm
    · rfl
  · rw [State.unloadTest_frame]
    dsimp only
    rw [State.setStatus_regions, getElem_set_fin]
    split
    · rename_i hq; rw [hq]
    · rfl

theorem State.zeroAdmitted_keys (r q : RegionIx) : (s.zeroAdmitted r).keys[q] =
    if q = r ∧ s.DrainUnloads q then { s.keys[q] with loaded := none } else s.keys[q] := by
  by_cases h : s.regions[r].admitted = 0
  · have kept : ¬ (q = r ∧ s.DrainUnloads q) := by
      rintro ⟨rfl, hd, -⟩
      exact hd h
    rw [State.zeroAdmitted, if_pos h, if_neg kept]
  · have due : (s.setStatus r { s.regions[r] with admitted := 0 }).unloadDue r = true
        ↔ s.regions[r].read = .locked ∧ s.regions[r].write = .locked ∧ s.scrubHead ≠ some r := by
      have head : (s.setStatus r { s.regions[r] with admitted := 0 }).scrubHead = s.scrubHead := rfl
      rw [State.unloadDue, head]
      simp [and_assoc]
    rw [State.zeroAdmitted, if_neg h, State.unloadTest_keys, State.setStatus_keys]
    refine if_congr (and_congr_right fun hq => due.trans ?_) rfl rfl
    rw [hq]
    exact ⟨fun g => ⟨h, g⟩, fun g => g.2⟩

theorem State.zeroAdmitted_foldl (xs : List RegionIx) (q : RegionIx) :
    ∀ s : State, (xs.foldl State.zeroAdmitted s).regions[q]
        = (if q ∈ xs then { s.regions[q] with admitted := 0 } else s.regions[q])
      ∧ (xs.foldl State.zeroAdmitted s).keys[q]
        = if q ∈ xs ∧ s.DrainUnloads q then { s.keys[q] with loaded := none } else s.keys[q] := by
  induction xs with
  | nil => intro s; simp
  | cons r xs ih =>
    intro s
    have head : (s.zeroAdmitted r).scrubHead = s.scrubHead := by simp [State.scrubHead]
    obtain ⟨regions, keys⟩ := ih (s.zeroAdmitted r)
    rw [List.foldl_cons, regions, keys, State.zeroAdmitted_keys]
    unfold State.DrainUnloads
    rw [head, State.zeroAdmitted_regions]
    by_cases hq : q = r
    · simp [hq]
    · simp [hq]

/-- Every admitted count has become 0. -/
@[irreducible] def State.countsZeroed (s : State) : State := allRegions.foldl State.zeroAdmitted s

theorem State.countsZeroed_eq : s.countsZeroed = allRegions.foldl State.zeroAdmitted s := by
  unfold State.countsZeroed; rfl

theorem State.countsZeroed_frame : s.countsZeroed = { s with
    regions := s.countsZeroed.regions, keys := s.countsZeroed.keys } := by
  rw [State.countsZeroed_eq]
  exact foldl_relates RightsFrame RightsFrame.refl (fun _ _ _ => RightsFrame.trans) _
    (fun _ r => State.zeroAdmitted_frame r) _ _

theorem State.countsZeroed_regions (q : RegionIx) :
    s.countsZeroed.regions[q] = { s.regions[q] with admitted := 0 } := by
  rw [State.countsZeroed_eq, (State.zeroAdmitted_foldl allRegions q s).1, if_pos (mem_allRegions q)]

theorem State.countsZeroed_keys (q : RegionIx) : s.countsZeroed.keys[q] =
    if s.DrainUnloads q then { s.keys[q] with loaded := none } else s.keys[q] := by
  rw [State.countsZeroed_eq, (State.zeroAdmitted_foldl allRegions q s).2]
  exact if_congr (and_iff_right (mem_allRegions q)) rfl rfl

/-! ### The blocks of a link reset -/

/-- What the blocks make of a link reset, but for the failed presentation. -/
def State.linkCleared (s : State) : State :=
  { s.emptyPort.abandonChunks.countsZeroed.resetChannel with
    derivation := none
    random := { s.random with waiting := s.random.waiting.filter Draw.isKey } }

theorem State.linkCleared_frame : s.linkCleared = { s with
    transfers := [], sent := s.sent ++ .mediaAbort :: s.abandonedFills
    regions := s.linkCleared.regions, keys := s.linkCleared.keys
    port := { s.port with queue := [], slots := tabMap (fun _ => none) s.port.slots, acc := 0, credit := 0 }
    management := { s.management with slot := .idle, buffer := none, current := none }
    random := { s.random with waiting := s.random.waiting.filter Draw.isKey }
    scrub := s.abandonChunks.scrub
    derivation := none } := by
  unfold State.linkCleared
  rw [State.countsZeroed_frame]
  rfl

theorem State.linkCleared_regions (q : RegionIx) :
    s.linkCleared.regions[q] = { s.regions[q] with admitted := 0 } :=
  State.countsZeroed_regions (s := s.emptyPort.abandonChunks) q

theorem State.linkCleared_keys (q : RegionIx) : s.linkCleared.keys[q] =
    if s.DrainUnloads q then { s.keys[q] with loaded := none } else s.keys[q] :=
  State.countsZeroed_keys (s := s.emptyPort.abandonChunks) q

/-- A head's key stays loaded over a link reset (R54). -/
theorem State.linkCleared_keys_head {h : RegionIx} (hd : s.scrubHead = some h) :
    s.linkCleared.keys[h] = s.keys[h] := by
  rw [State.linkCleared_keys, if_neg fun ⟨_, _, _, hn⟩ => hn hd]

theorem State.linkReset_stops : s.linkReset
    = (s.emptyPort.abandonChunks.countsZeroed.resetChannel.stopDerivation.dropWaitingSalts).settle := by
  rw [State.countsZeroed_eq]; rfl

/-- A link reset without a PRESENT's derivation (R94). -/
theorem State.linkReset_of_no_present (h : ∀ d, s.derivation = some d → ∃ q, d.use = .secret q) :
    s.linkReset = s.linkCleared.settle := by
  have stopped (t : State) (ht : t.derivation = s.derivation) : t.stopDerivation = { t with derivation := none } := by
    unfold State.stopDerivation
    split
    · rename_i hn
      rw [← hn]
    · rename_i d hd
      obtain ⟨q, hq⟩ := h d (ht ▸ hd)
      simp only [hq]
  rw [State.linkReset_stops, stopped _ (by rw [State.countsZeroed_frame]; rfl)]
  unfold State.dropWaitingSalts State.linkCleared
  rw [State.countsZeroed_frame]
  rfl

/-- A presentation that fails with its request detached: its back-off is set, and at the limit the ATTEMPTS trigger
and alert are raised (R84, R92). -/
theorem State.presentFails_detached (h : s.management.current = none) (p : PresentRequest) (a : Nat) :
    s.presentFails p a = { s with
      credentials := s.credentials.set p.credential { s.credentials[p.credential] with backoff := backoffFor a }
      response := if a = s.work.credentials[p.credential].limit then
        (s.trigger (attemptsSource p.credential)).response else s.response
      alerts := if a = s.work.credentials[p.credential].limit then
        (s.attemptsTrigger p.credential).alerts else s.alerts } := by
  have detached (t : State) (ht : t.management = s.management) (k : Byte) (c : ResultCode) (b : List Byte) :
      t.reply p.id k c b = t := State.reply_detached (by rw [ht, h]; simp) k c b
  unfold State.presentFails
  dsimp only
  split
  · refine (detached _ ?_ _ _ _).trans ?_ <;> rfl
  · refine (detached _ ?_ _ _ _).trans ?_ <;> rfl

/-- A link reset that stops a PRESENT's derivation (R87, R92). -/
theorem State.linkReset_of_present {d : Derivation} {p : PresentRequest} {a : Nat} (hd : s.derivation = some d)
    (hu : d.use = .present p a) : s.linkReset = State.settle { s.linkCleared with
      credentials := s.credentials.set p.credential { s.credentials[p.credential] with backoff := backoffFor a }
      response := if a = s.work.credentials[p.credential].limit then
        (s.trigger (attemptsSource p.credential)).response else s.response
      alerts := if a = s.work.credentials[p.credential].limit then
        (s.attemptsTrigger p.credential).alerts else s.alerts } := by
  have stopped (t : State) (ht : t.derivation = s.derivation) (hc : t.management.current = none) :
      t.stopDerivation = State.presentFails p a { t with derivation := none } := by
    rw [hd] at ht
    simp only [State.stopDerivation, ht, hu]
  rw [State.linkReset_stops, stopped _ (by rw [State.countsZeroed_frame]; rfl) rfl, State.presentFails_detached rfl]
  unfold State.dropWaitingSalts State.linkCleared
  rw [State.countsZeroed_frame]
  rfl

/-! ### What the start of a response keeps (R138) -/

/-- What the event of a new response still looks at is as it was: the pending set, the running response's sources, level
and severity, the back-offs, the erase holds and the scrub list. -/
def State.KeptByRelock (s t : State) : Prop :=
  t.response.triggers = s.response.triggers
  ∧ (∀ R, s.response.running = some R → ∃ R', t.response.running = some R' ∧ R'.sources = R.sources
      ∧ R'.level = R.level ∧ R'.severity = R.severity)
  ∧ (∀ c : CredIx, t.credentials[c].backoff = s.credentials[c].backoff)
  ∧ (∀ r : RegionIx, t.regions[r].eraseHold = s.regions[r].eraseHold)
  ∧ t.work.scrubList = s.work.scrubList

theorem State.KeptByRelock.refl (s : State) : s.KeptByRelock s :=
  ⟨rfl, fun R h => ⟨R, h, rfl, rfl, rfl⟩, fun _ => rfl, fun _ => rfl, rfl⟩

theorem State.KeptByRelock.trans {a b c : State} (h : a.KeptByRelock b) (g : b.KeptByRelock c) : a.KeptByRelock c := by
  obtain ⟨h1, h2, h3, h4, h5⟩ := h
  obtain ⟨g1, g2, g3, g4, g5⟩ := g
  refine ⟨g1.trans h1, fun R hR => ?_, fun k => (g3 k).trans (h3 k), fun r => (g4 r).trans (h4 r), g5.trans h5⟩
  obtain ⟨R', hR', sources, level, severity⟩ := h2 R hR
  obtain ⟨R'', hR'', sources', level', severity'⟩ := g2 R' hR'
  exact ⟨R'', hR'', sources'.trans sources, level'.trans level, severity'.trans severity⟩

theorem State.lockAll_eraseHold (r : RegionIx) : s.lockAll.regions[r].eraseHold = s.regions[r].eraseHold := by
  have step (t : State) (q : RegionIx) : (t.lockBoth q).regions[r].eraseHold = t.regions[r].eraseHold := by
    rw [State.lockBoth_regions]
    split <;> rfl
  have steps := foldl_relates (fun a b : State => b.regions[r].eraseHold = a.regions[r].eraseHold) (fun _ => rfl)
    (fun _ _ _ h g => g.trans h) _ step
  unfold State.lockAll
  exact steps _ s

theorem State.relockIfDue_kept : s.KeptByRelock s.relockIfDue := by
  unfold State.relockIfDue
  split
  · rename_i R hR
    split
    · refine ⟨by simp [State.relock, State.relockKeepingMode, State.lockDown], fun R' hR' => ?_, fun c => ?_,
        fun r => ?_, ?_⟩
      · obtain rfl := Option.some.inj (hR.symm.trans hR')
        refine ⟨{ R with relockDone := true }, ?_, rfl, rfl, rfl⟩
        simp [State.relock, State.relockKeepingMode, State.lockDown, hR]
      · simp [State.relock, State.relockKeepingMode, State.lockDown]
      · have same : s.relock.regions = s.lockAll.regions := by
          simp [State.relock, State.relockKeepingMode, State.lockDown]
        rw [getElem_congr_table same, State.lockAll_eraseHold]
      · simp [State.relock, State.relockKeepingMode, State.lockDown]
    · exact .refl s
  · exact .refl s

theorem State.setResponsePhase_kept (p : ResponsePhase) (u : CommitUnit) :
    s.KeptByRelock ((s.setResponsePhase p).submit u) := by
  refine ⟨?_, fun R hR => ⟨{ R with phase := p }, ?_, rfl, rfl, rfl⟩, fun c => ?_, fun r => ?_, ?_⟩
  all_goals rw [State.submit_frame]
  · rfl
  · simp [State.setResponsePhase, State.setRunning, hR]
  · rfl
  · rfl
  · rfl

/-- The response that an entry starts, and what its start keeps (R138). -/
theorem State.startResponse_kept (e : PendingTrigger) :
    (s.startResponse e).response.triggers = s.response.triggers.filter (fun x => x.source != e.source)
    ∧ (∃ R, (s.startResponse e).response.running = some R ∧ R.sources = bit e.source.val ∧ R.level = e.level
        ∧ R.severity = e.severity)
    ∧ (∀ c : CredIx, (s.startResponse e).credentials[c].backoff = s.credentials[c].backoff)
    ∧ (∀ r : RegionIx, (s.startResponse e).regions[r].eraseHold = s.regions[r].eraseHold)
    ∧ (s.startResponse e).work.scrubList = s.work.scrubList := by
  unfold State.startResponse
  dsimp only
  generalize hb : State.alert .responseBegun _ _ _ _ _ _ = b
  have kept : b.KeptByRelock (if Level.rank .relock ≤ e.level.rank then b.relockIfDue.record
      else b.relockIfDue.close) := by
    split
    · exact State.relockIfDue_kept.trans (State.setResponsePhase_kept _ _)
    · exact State.relockIfDue_kept.trans (State.setResponsePhase_kept _ _)
  obtain ⟨triggers, running, backoffs, holds, list⟩ := kept
  subst hb
  exact ⟨triggers, running _ rfl, backoffs, holds, list⟩

/-! ### The event's end without a walk -/

theorem State.destructionsDue_of_none_begun (h : ∀ e ∈ s.erases, e.stage ≠ .begun) (r : RegionIx) :
    s.destructionsDue r = [] := by
  unfold State.destructionsDue
  split
  · rw [List.map_eq_nil_iff, List.filter_eq_nil_iff]
    intro e he
    simp [h e he]
  · rfl

/-- Neither a destruction, nor a walk, nor a grant is due. -/
def State.WalkRests (s : State) : Prop :=
  (∀ e ∈ s.erases, e.stage ≠ .begun) ∧ s.startUp.phase ≠ .resuming ∧ s.scrub.phase ≠ .walking ∧ s.offer = none
    ∧ s.port.queue = []
    ∧ ∀ h : RegionIx, s.scrubHead = some h → s.scrub.phase = .finishing ∨ s.regions[h].eraseHold = true

theorem State.walkDue_of_head_rests
    (hh : ∀ h : RegionIx, s.scrubHead = some h → s.scrub.phase = .finishing ∨ s.regions[h].eraseHold = true) :
    s.walkDue = false := by
  unfold State.walkDue
  split
  · rename_i h hd
    rcases hh h hd with hf | he
    · simp [hf]
    · have held : s.headHeld h = true := by rw [State.headHeld, he]; rfl
      simp [held]
  · rfl

theorem State.settle_of_walk_rests (h : s.WalkRests) (hr : s.ResponseStill) : s.settle = s.serveStore := by
  obtain ⟨he, hp, hw, ho, hq, hh⟩ := h
  exact State.settle_to_gate hr (State.destructionsDue_of_none_begun he) hp (State.walkDue_of_head_rests hh)
    ⟨hw, State.nextGrant_of_nothing_waiting ho hq⟩

theorem State.WalkRests.startResponse (h : s.WalkRests) (e : PendingTrigger) : (s.startResponse e).WalkRests := by
  obtain ⟨he, hp, hw, ho, hq, hh⟩ := h
  refine ⟨by simpa using he, by simpa using hp, by simpa using hw, by simpa [State.offer] using ho, by simpa using hq,
    fun r hr => ?_⟩
  obtain ⟨-, -, -, holds, list⟩ := s.startResponse_kept e
  have head : s.scrubHead = some r := by rwa [State.scrubHead, list] at hr
  rw [holds]
  simpa using hh r head

/-- A free controller with one entry pending starts its response (R136, R138). -/
theorem State.settle_of_trigger {e : PendingTrigger} (h : s.WalkRests) (hf : s.responseFree = true)
    (ht : s.response.triggers = [e]) : s.settle = (s.startResponse e).serveStore := by
  have best : nextTrigger [e] = some e := by
    cases hs : e.severity <;> simp [nextTrigger, hs]
  have taken : s.takeIfFree = s.startResponse e := by
    rw [State.takeIfFree, if_pos hf, ht, best]
  obtain ⟨-, ⟨R, running, -⟩, -⟩ := s.startResponse_kept e
  have still : (s.startResponse e).ResponseStill :=
    State.responseStill_of_busy (by simp [State.responseFree, running])
  rw [← State.settle_of_walk_rests (h.startResponse e) still, State.settle, State.settle, taken,
    State.takeIfFree_of_still still]

/-! ### The chunks of a link reset (R72, R155, R157) -/

/-- A chunk at the media stays with the scrub engine over a link reset: it waits for reissue. -/
theorem State.abandonChunks_scrub {keeps : FormedChunk → Bool}
    (h : ∀ f, keeps f = true ↔ (f.place = .atMedia → s.stale f.chunk = false ∧ s.walkOver = false)) :
    s.abandonChunks.scrub = { s.scrub with formed := (s.scrub.formed.filter keeps).map fun f =>
      if f.place = .atMedia then { f with place := .reissue } else f, earlier := [] } := by
  have keep (f : FormedChunk) : (!(f.place == .atMedia && (s.stale f.chunk || s.walkOver))) = keeps f := by
    rw [Bool.eq_iff_iff, h, Bool.not_eq_true', Bool.and_eq_false_imp, beq_iff_eq, Bool.or_eq_false_iff]
  simp only [State.abandonChunks, keep]

theorem State.abandonChunks_offer : s.abandonChunks.offer = s.offer := by
  unfold State.offer State.abandonChunks
  dsimp only
  induction s.scrub.formed with
  | nil => rfl
  | cons f fs ih =>
    rw [List.filter_cons]
    cases hp : f.place with
    | offered => simp [hp]
    | reissue => simpa [hp] using ih
    | atMedia =>
      split
      · simpa [hp] using ih
      · simpa [hp] using ih

/-! ### A link reset that no walk follows -/

/-- The chunk belongs to a walk that goes on: neither stale nor of one that has ended (R72, R157). -/
def State.OfWalk (s : State) (c : Chunk) : Prop :=
  s.scrub.phase ≠ .finishing ∧ s.stored.keys[c.region].generation = c.generation ∧ c ∉ s.scrub.earlier
    ∧ ∃ e ∈ s.work.scrubList, e.region = c.region

theorem State.stale_eq_false_iff (c : Chunk) : s.stale c = false ↔
    s.stored.keys[c.region].generation = c.generation ∧ c ∉ s.scrub.earlier
      ∧ ∃ e ∈ s.work.scrubList, e.region = c.region := by
  rw [← Bool.not_eq_true, State.stale_iff]
  push Not
  tauto

/-- Outside WALKING, a listed chunk's walk is over exactly in FINISHING. -/
theorem State.ofWalk_iff (hw : s.scrub.phase ≠ .walking) (c : Chunk) :
    s.OfWalk c ↔ s.stale c = false ∧ s.walkOver = false := by
  have ended (e : ScrubEntry) (he : e ∈ s.work.scrubList) : s.walkOver = false ↔ s.scrub.phase ≠ .finishing := by
    obtain ⟨h, hd⟩ : ∃ h, s.scrubHead = some h := by
      cases hl : s.work.scrubList with
      | nil => rw [hl] at he; cases he
      | cons d rest => exact ⟨d.region, by rw [State.scrubHead, hl]; rfl⟩
    simp [State.walkOver, hd, hw]
  rw [State.stale_eq_false_iff, State.OfWalk]
  constructor
  · rintro ⟨hf, hg, hn, e, he, hr⟩
    exact ⟨⟨hg, hn, e, he, hr⟩, (ended e he).mpr hf⟩
  · rintro ⟨⟨hg, hn, e, he, hr⟩, ho⟩
    exact ⟨(ended e he).mp ho, hg, hn, e, he, hr⟩

/-- The state after a link reset's blocks, with its failed presentation's back-off, trigger and alert. -/
def State.linkAnswered (s : State) (credentials : Vector CredentialStatus 8) (response : ResponseController)
    (alerts : AlertQueue) : State :=
  { s.linkCleared with credentials := credentials, response := response, alerts := alerts }

theorem State.linkAnswered_frame (credentials : Vector CredentialStatus 8) (response : ResponseController)
    (alerts : AlertQueue) : s.linkAnswered credentials response alerts = { s with
      transfers := [], sent := s.sent ++ .mediaAbort :: s.abandonedFills
      regions := s.linkCleared.regions, keys := s.linkCleared.keys
      port := { s.port with queue := [], slots := tabMap (fun _ => none) s.port.slots, acc := 0, credit := 0 }
      management := { s.management with slot := .idle, buffer := none, current := none }
      random := { s.random with waiting := s.random.waiting.filter Draw.isKey }
      scrub := s.abandonChunks.scrub
      derivation := none, credentials := credentials, response := response, alerts := alerts } := by
  rw [State.linkAnswered, State.linkCleared_frame]

/-- No walk follows a link reset of this state: none goes on, and none is due to start. -/
def State.NoWalkFollows (s : State) : Prop :=
  (∀ e ∈ s.erases, e.stage ≠ .begun) ∧ s.startUp.phase ≠ .resuming ∧ s.scrub.phase ≠ .walking ∧ s.offer = none
    ∧ ∀ h : RegionIx, s.scrubHead = some h → s.scrub.phase = .finishing ∨ s.regions[h].eraseHold = true

theorem State.NoWalkFollows.linkAnswered (h : s.NoWalkFollows) (credentials : Vector CredentialStatus 8)
    (response : ResponseController) (alerts : AlertQueue) :
    (s.quiet.linkAnswered credentials response alerts).WalkRests := by
  obtain ⟨he, hp, hw, ho, hh⟩ := h
  have holds (h : RegionIx) : s.quiet.linkCleared.regions[h].eraseHold = s.regions[h].eraseHold := by
    rw [State.linkCleared_regions]; rfl
  rw [State.linkAnswered_frame]
  refine ⟨he, hp, hw, State.abandonChunks_offer.trans ho, rfl, fun h hd => ?_⟩
  exact (hh h hd).imp_right fun g => (holds h).trans g

/-- The blocks' answer to a link reset is the end of its event. -/
theorem State.linkAnswered_settle (h : s.NoWalkFollows) (hs : s.StoreStill) {credentials : Vector CredentialStatus 8}
    {response : ResponseController} {alerts : AlertQueue}
    (hr : (s.quiet.linkAnswered credentials response alerts).ResponseStill) :
    (s.quiet.linkAnswered credentials response alerts).settle = s.quiet.linkAnswered credentials response alerts := by
  rw [State.settle_of_walk_rests (h.linkAnswered ..) hr, State.serveStore_of_still]
  rw [State.linkAnswered_frame]
  exact hs

theorem State.linkAnswered_responseFree (credentials : Vector CredentialStatus 8) (response : ResponseController)
    (alerts : AlertQueue) (h1 : response.running = s.response.running) (h2 : response.released = s.response.released) :
    (s.linkAnswered credentials response alerts).responseFree = s.responseFree := by
  rw [State.linkAnswered_frame, State.responseFree, State.responseFree]
  dsimp only
  rw [h1, h2]

/-- What the link reset of s leaves in t, but for back-off, trigger and alert; `keeps` says which formed chunks stay. -/
def State.LinkReset (s t : State) (keeps : FormedChunk → Bool) : Prop :=
  (∃ fills : List PortEvent, t.sent = .mediaAbort :: fills ∧ fills.length ≤ 16
    ∧ ∀ e, e ∈ fills ↔ Config.fillsAbandoned = true ∧ ∃ i, s.slotFill i = some e)
  ∧ t = { s with
      transfers := [], sent := t.sent, regions := t.regions, keys := t.keys
      port := { s.port with queue := [], slots := t.port.slots, acc := 0, credit := 0 }
      management := { s.management with slot := .idle, buffer := none, current := none }
      random := { s.random with waiting := s.random.waiting.filter Draw.isKey }
      scrub := { s.scrub with formed := (s.scrub.formed.filter keeps).map fun f =>
        if f.place = .atMedia then { f with place := .reissue } else f, earlier := [] }
      derivation := none, credentials := t.credentials, response := t.response, alerts := t.alerts }
  ∧ (∀ i : SlotIx, t.port.slots[i] = none)
  ∧ ∀ r : RegionIx, t.regions[r] = { s.regions[r] with admitted := 0 }
      ∧ t.keys[r].highestDrawn = s.keys[r].highestDrawn
      ∧ t.keys[r].loaded = if s.DrainUnloads r then none else s.keys[r].loaded

theorem State.linkAnswered_reset {keeps : FormedChunk → Bool} (hw : s.scrub.phase ≠ .walking)
    (hk : ∀ f, keeps f = true ↔ (f.place = .atMedia → s.OfWalk f.chunk))
    (credentials : Vector CredentialStatus 8) (response : ResponseController) (alerts : AlertQueue) :
    s.LinkReset (s.quiet.linkAnswered credentials response alerts) keeps := by
  have scrub := State.abandonChunks_scrub (s := s) (keeps := keeps) fun f =>
    (hk f).trans (imp_congr_right fun _ => State.ofWalk_iff hw f.chunk)
  have keys (r : RegionIx) : s.quiet.linkCleared.keys[r] =
      if s.DrainUnloads r then { s.keys[r] with loaded := none } else s.keys[r] := State.linkCleared_keys r
  have frame := s.quiet.linkAnswered_frame credentials response alerts
  refine ⟨⟨s.abandonedFills, ?_, State.abandonedFills_length, State.mem_abandonedFills⟩, ?_, fun i => ?_, fun r =>
    ⟨State.linkCleared_regions (s := s.quiet) r, ?_, ?_⟩⟩
  · rw [frame]; rfl
  · rw [frame]
    simp only [← scrub]
    rfl
  · rw [frame]
    exact getElem_tabMap _ _ i.val i.isLt
  · refine (congrArg KeySlot.highestDrawn (keys r)).trans ?_
    split <;> rfl
  · refine (congrArg KeySlot.loaded (keys r)).trans ?_
    split <;> rfl

/-! ### The three ends of a link reset's event that no walk follows -/

variable {d : Derivation} {p : PresentRequest} {a : Nat}

theorem exec_linkReset_no_present (hr : s.ResponseStill) (h : s.NoWalkFollows) (hs : s.StoreStill)
    (hd : ∀ d, s.derivation = some d → ∃ q, d.use = .secret q) :
    exec .linkReset s = .next (s.quiet.linkAnswered s.credentials s.response s.alerts) := by
  have run : exec .linkReset s = .next s.quiet.linkReset := rfl
  have answered : s.quiet.linkCleared = s.quiet.linkAnswered s.credentials s.response s.alerts := by
    rw [State.linkAnswered_frame, State.linkCleared_frame]; rfl
  have still : (s.quiet.linkAnswered s.credentials s.response s.alerts).ResponseStill :=
    State.responseStill_congr hr rfl rfl rfl (by rw [State.linkAnswered_frame]; rfl)
  rw [run, State.linkReset_of_no_present (s := s.quiet) hd, answered, State.linkAnswered_settle h hs still]

/-- The response controller and the alert queue once a PRESENT with charged counter a has failed (R92). -/
def State.triggersAfter (s : State) (c : CredIx) (a : Nat) : ResponseController :=
  if a = s.work.credentials[c].limit then (s.trigger (attemptsSource c)).response else s.response

def State.alertsAfter (s : State) (c : CredIx) (a : Nat) : AlertQueue :=
  if a = s.work.credentials[c].limit then (s.attemptsTrigger c).alerts else s.alerts

def State.backoffsAfter (s : State) (c : CredIx) (a : Nat) : Vector CredentialStatus 8 :=
  s.credentials.set c { s.credentials[c] with backoff := backoffFor a }

theorem State.triggersAfter_at_limit {c : CredIx} (h : a = s.work.credentials[c].limit) :
    (s.triggersAfter c a).triggers = enterTrigger (attemptsSource c) (s.entryOf (attemptsSource c)).level
      (s.entryOf (attemptsSource c)).severity 0 s.response.triggers := by
  rw [State.triggersAfter, if_pos h]; rfl

theorem State.triggersAfter_controller (c : CredIx) (a : Nat) : (s.triggersAfter c a).running = s.response.running
    ∧ (s.triggersAfter c a).released = s.response.released := by
  unfold State.triggersAfter
  split <;> exact ⟨rfl, rfl⟩

theorem State.linkReset_present (hd : s.derivation = some d) (hu : d.use = .present p a) : s.linkReset
    = (s.linkAnswered (s.backoffsAfter p.credential a) (s.triggersAfter p.credential a)
        (s.alertsAfter p.credential a)).settle :=
  State.linkReset_of_present hd hu

theorem exec_linkReset_present (hr : s.ResponseStill) (h : s.NoWalkFollows) (hs : s.StoreStill)
    (hd : s.derivation = some d) (hu : d.use = .present p a)
    (hn : a = s.work.credentials[p.credential].limit → s.responseFree = true →
      (s.entryOf (attemptsSource p.credential)).level = .none) :
    exec .linkReset s = .next (s.quiet.linkAnswered (s.backoffsAfter p.credential a)
      (s.triggersAfter p.credential a) (s.alertsAfter p.credential a)) := by
  have run : exec .linkReset s = .next s.quiet.linkReset := rfl
  rw [run, State.linkReset_present (s := s.quiet) hd hu]
  refine congrArg _ (State.linkAnswered_settle h hs fun free => ?_)
  obtain ⟨running, released⟩ := s.triggersAfter_controller p.credential a
  have free' : s.responseFree = true :=
    (State.linkAnswered_responseFree (s := s.quiet) _ _ _ running released).symm.trans free
  have triggers : (s.triggersAfter p.credential a).triggers = [] := by
    by_cases ha : a = s.work.credentials[p.credential].limit
    · rw [State.triggersAfter_at_limit ha, hn ha free', enterTrigger_none]
      exact hr free'
    · rw [State.triggersAfter, if_neg ha]
      exact hr free'
  rw [State.linkAnswered_frame]
  exact triggers

theorem exec_linkReset_trigger (hr : s.ResponseStill) (h : s.NoWalkFollows)
    (hd : s.derivation = some d) (hu : d.use = .present p a) (ha : a = s.work.credentials[p.credential].limit)
    (hf : s.responseFree = true) (hl : (s.entryOf (attemptsSource p.credential)).level ≠ .none) :
    ∃ t, exec .linkReset s = .next t ∧ t.derivation = none ∧ t.transfers = []
      ∧ t.credentials[p.credential].backoff = backoffFor a ∧ t.response.triggers = []
      ∧ ∃ R, t.response.running = some R ∧ R.sources = bit (attemptsSource p.credential).val
        ∧ R.level = (s.entryOf (attemptsSource p.credential)).level
        ∧ R.severity = (s.entryOf (attemptsSource p.credential)).severity := by
  have run : exec .linkReset s = .next s.quiet.linkReset := rfl
  let e : PendingTrigger := ⟨attemptsSource p.credential, (s.entryOf (attemptsSource p.credential)).level,
    (s.entryOf (attemptsSource p.credential)).severity, 0, 0⟩
  rw [run, State.linkReset_present (s := s.quiet) hd hu]
  generalize hq : s.quiet.linkAnswered _ _ _ = q
  have frame := hq.symm.trans (s.quiet.linkAnswered_frame _ _ _)
  obtain ⟨running, released⟩ := s.triggersAfter_controller p.credential a
  have free : q.responseFree = true := by
    rw [← hq]
    exact (State.linkAnswered_responseFree (s := s.quiet) _ _ _ running released).trans hf
  have entered : (s.triggersAfter p.credential a).triggers = [e] := by
    rw [State.triggersAfter_at_limit ha, hr hf, enterTrigger_new hl (by simp)]
    rfl
  have triggers : q.response.triggers = [e] := by
    rw [frame]
    exact entered
  have backoff : q.credentials[p.credential].backoff = backoffFor a := by
    rw [frame]
    dsimp only
    rw [State.backoffsAfter, getElem_set_fin, if_pos rfl]
  have rests : q.WalkRests := by
    rw [← hq]
    exact h.linkAnswered ..
  obtain ⟨left, ⟨R, hR, sources, level, severity⟩, backoffs, -⟩ := q.startResponse_kept e
  rw [State.settle_of_trigger rests free triggers]
  refine ⟨_, rfl, ?_, ?_, ?_, ?_, R, ?_, sources, level, severity⟩ <;> rw [State.serveStore_frame]
  · simp [frame]
  · simp [frame]
  · exact (backoffs _).trans backoff
  · simp only [left, triggers]
    simp
  · exact hR

/-- The back-off after a failed attempt with charged counter a (R90). -/
theorem backoffFor_eq (a : Nat) : backoffFor a = min (2 ^ (a - 1)) 64 := by
  unfold backoffFor
  split
  · rename_i h
    have : 2 ^ 6 ≤ 2 ^ (a - 1) := Nat.pow_le_pow_right (by omega) (by omega)
    omega
  · rename_i h
    have : 2 ^ (a - 1) ≤ 2 ^ 5 := Nat.pow_le_pow_right (by omega) (by omega)
    omega

/-! ### The scrub engine's offer (R155) -/

theorem State.offer_eq_none_iff : s.offer = none ↔ ∀ f ∈ s.scrub.formed, f.place ≠ .offered := by
  simp [State.offer]

/-- The lower of the chunk found so far and one that waits for reissue. -/
def lowerReissue (best : Option Chunk) (f : FormedChunk) : Option Chunk :=
  if f.place = .reissue then
    match best with
    | some c => if f.chunk.first < c.first then some f.chunk else best
    | none => some f.chunk
  else best

theorem lowestReissue_eq_foldl (formed : List FormedChunk) : lowestReissue formed = formed.foldl lowerReissue none := rfl

theorem lowerReissue_lowest {best : Option Chunk} {f : FormedChunk} {c : Chunk}
    (hb : ∀ d, best = some d → d = c ∨ c.first < d.first)
    (hf : f.place = .reissue → f.chunk = c ∨ c.first < f.chunk.first) :
    (∀ d, lowerReissue best f = some d → d = c ∨ c.first < d.first)
      ∧ (best = some c ∨ f = ⟨c, .reissue⟩ → lowerReissue best f = some c) := by
  obtain ⟨d, place⟩ := f
  by_cases hp : place = .reissue
  · subst hp
    have hd := hf rfl
    cases best with
    | none => simpa [lowerReissue] using hd
    | some b =>
      have hb' := hb b rfl
      by_cases hlt : d.first < b.first
      · have taken : lowerReissue (some b) ⟨d, .reissue⟩ = some d := by simp [lowerReissue, hlt]
        rw [taken]
        refine ⟨fun e he => Option.some.inj he ▸ hd, ?_⟩
        rintro (h | h)
        · cases h
          exact hd.elim (congrArg some) fun g => absurd hlt (Nat.lt_asymm g)
        · cases h; rfl
      · have kept : lowerReissue (some b) ⟨d, .reissue⟩ = some b := by simp [lowerReissue, hlt]
        rw [kept]
        refine ⟨hb, ?_⟩
        rintro (h | h)
        · exact h
        · cases h
          exact hb'.elim (congrArg some) fun g => absurd g hlt
  · have kept : lowerReissue best ⟨d, place⟩ = best := if_neg hp
    rw [kept]
    refine ⟨hb, ?_⟩
    rintro (h | h)
    · exact h
    · cases h; exact absurd rfl hp

/-- The lowest chunk that waits for reissue, by its properties. -/
theorem lowestReissue_eq {formed : List FormedChunk} {c : Chunk} (hc : ⟨c, .reissue⟩ ∈ formed)
    (low : ∀ f ∈ formed, f.place = .reissue → f.chunk = c ∨ c.first < f.chunk.first) :
    lowestReissue formed = some c := by
  have found (l : List FormedChunk) : ∀ best : Option Chunk, (∀ d, best = some d → d = c ∨ c.first < d.first) →
      (∀ f ∈ l, f.place = .reissue → f.chunk = c ∨ c.first < f.chunk.first) →
      best = some c ∨ ⟨c, .reissue⟩ ∈ l → l.foldl lowerReissue best = some c := by
    induction l with
    | nil => intro best _ _ h; simpa using h
    | cons f l ih =>
      intro best hb hl hin
      obtain ⟨bound, keep⟩ := lowerReissue_lowest hb (hl f List.mem_cons_self)
      refine ih _ bound (fun g hg => hl g (List.mem_cons_of_mem f hg)) ?_
      rcases hin with h | h
      · exact .inl (keep (.inl h))
      · rcases List.mem_cons.mp h with h | h
        · exact .inl (keep (.inr h.symm))
        · exact .inr h
  exact found formed none (by simp) low (.inr hc)

theorem exists_mem_placeChunk (c : Chunk) (p : ChunkPlace) {formed : List FormedChunk} {f : FormedChunk}
    (hf : f ∈ formed) : ∃ g ∈ placeChunk c p formed, g.chunk = f.chunk ∧ (f.chunk = c → g.place = p) := by
  refine ⟨_, List.mem_map.mpr ⟨f, hf, rfl⟩, ?_⟩
  split
  · exact ⟨rfl, fun _ => rfl⟩
  · rename_i h
    exact ⟨rfl, fun e => absurd e h⟩

theorem of_mem_placeChunk {c : Chunk} {p : ChunkPlace} {formed : List FormedChunk} {g : FormedChunk}
    (hg : g ∈ placeChunk c p formed) : ∃ f ∈ formed, f.chunk = g.chunk ∧ (g.chunk = c ∨ g = f) := by
  obtain ⟨f, hf, rfl⟩ := List.mem_map.mp hg
  refine ⟨f, hf, ?_⟩
  split
  · rename_i h
    exact ⟨rfl, .inl h⟩
  · exact ⟨rfl, .inr rfl⟩

/-- The chunk placed as the offer, where none stood, is the offer. -/
theorem State.offer_placeChunk {c : Chunk} (ho : s.offer = none) (hc : ∃ f ∈ s.scrub.formed, f.chunk = c) :
    State.offer { s with scrub := { s.scrub with formed := placeChunk c .offered s.scrub.formed } } = some c := by
  have none_offered := State.offer_eq_none_iff.mp ho
  cases ho' : State.offer { s with scrub := { s.scrub with formed := placeChunk c .offered s.scrub.formed } } with
  | none =>
    obtain ⟨f, hf, hfc⟩ := hc
    obtain ⟨g, hg, -, hp⟩ := exists_mem_placeChunk c .offered hf
    exact absurd (hp hfc) (State.offer_eq_none_iff.mp ho' g hg)
  | some d =>
    obtain ⟨g, found, rfl⟩ := Option.map_eq_some_iff.mp ho'
    have hp : g.place = .offered := by simpa using List.find?_some found
    obtain ⟨f, hf, hfg, hg | rfl⟩ := of_mem_placeChunk (List.mem_of_find?_eq_some found)
    · rw [hg]
    · exact absurd hp (none_offered g hf)

/-- An offer in place stays. -/
theorem State.placeOffer_offered {c : Chunk} (ho : s.offer = some c) : s.placeOffer = s := by
  unfold State.placeOffer
  split <;> simp [ho]

/-- The lowest chunk that waits for reissue is offered (R155). -/
theorem State.placeOffer_reissue {h : RegionIx} {c : Chunk} (hd : s.scrubHead = some h) (hw : s.scrub.phase = .walking)
    (ho : s.offer = none) (hk : s.keys[h].loaded.isSome = true) (hc : lowestReissue s.scrub.formed = some c) :
    s.placeOffer = { s with scrub := { s.scrub with formed := placeChunk c .offered s.scrub.formed } } := by
  simp only [State.placeOffer, hd]
  rw [if_pos ⟨hw, ho, hk⟩]
  simp only [hc]

/-- A new chunk is formed at the issue position and offered (R155). -/
theorem State.placeOffer_new {h : RegionIx} {p a b : Nat} (hd : s.scrubHead = some h) (hw : s.scrub.phase = .walking)
    (hk : s.keys[h].loaded.isSome = true) (hf : s.scrub.formed = []) (hi : s.scrub.issue = some p)
    (hn : s.nextChunk h p = some (a, b)) :
    s.placeOffer = { s with scrub := { s.scrub with
      formed := [⟨⟨h, a, b - a, s.scrub.walkGeneration⟩, .offered⟩], issue := some b } } := by
  have ho : s.offer = none := by simp [State.offer, hf]
  simp only [State.placeOffer, hd]
  rw [if_pos ⟨hw, ho, hk⟩]
  simp only [hf, lowestReissue, List.foldl_nil, hi, hn, List.nil_append]

/-! ### Grants to the scrub engine (R64, R67) -/

/-- From s to t the port has issued chunks of the walk of h: slots in use stay, formed chunks stay, and new ones are of
the walk. -/
def State.ScrubServes (h : RegionIx) (s t : State) : Prop :=
  t = { s with
      port := { s.port with slots := t.port.slots, credit := t.port.credit, nextOperation := t.port.nextOperation }
      sent := t.sent
      scrub := { s.scrub with formed := t.scrub.formed, issue := t.scrub.issue } }
  ∧ s.sent <+: t.sent
  ∧ (∀ (i : SlotIx) (x : SlotRecord), s.port.slots[i] = some x → t.port.slots[i] = some x)
  ∧ (∀ f ∈ s.scrub.formed, ∃ g ∈ t.scrub.formed, g.chunk = f.chunk)
  ∧ ∀ g ∈ t.scrub.formed, (∃ f ∈ s.scrub.formed, f.chunk = g.chunk)
      ∨ g.chunk.region = h ∧ g.chunk.generation = s.scrub.walkGeneration

theorem State.ScrubServes.refl (h : RegionIx) (s : State) : State.ScrubServes h s s :=
  ⟨rfl, List.prefix_refl _, fun _ _ h => h, fun f hf => ⟨f, hf, rfl⟩, fun g hg => .inl ⟨g, hg, rfl⟩⟩

theorem State.ScrubServes.trans {h : RegionIx} {a b c : State} (hab : State.ScrubServes h a b)
    (hbc : State.ScrubServes h b c) : State.ScrubServes h a c := by
  obtain ⟨frame, sent, slots, stay, new⟩ := hab
  obtain ⟨frame', sent', slots', stay', new'⟩ := hbc
  have walk : b.scrub.walkGeneration = a.scrub.walkGeneration := by rw [frame]
  refine ⟨?_, sent.trans sent', fun i x hx => slots' i x (slots i x hx), fun f hf => ?_, fun g hg => ?_⟩
  · rw [frame', frame]
  · obtain ⟨g, hg, hgf⟩ := stay f hf
    obtain ⟨k, hk, hkg⟩ := stay' g hg
    exact ⟨k, hk, hkg.trans hgf⟩
  · rcases new' g hg with ⟨f, hf, hfg⟩ | ⟨region, generation⟩
    · exact hfg ▸ new f hf
    · exact .inr ⟨region, generation.trans walk⟩

theorem State.placeChunk_serves (h : RegionIx) (c : Chunk) (p : ChunkPlace) : State.ScrubServes h s
    { s with scrub := { s.scrub with formed := placeChunk c p s.scrub.formed } } := by
  refine ⟨rfl, List.prefix_refl _, fun _ _ h => h, fun f hf => ?_, fun g hg => .inl ?_⟩
  · obtain ⟨g, hg, hgf, -⟩ := exists_mem_placeChunk c p hf
    exact ⟨g, hg, hgf⟩
  · obtain ⟨f, hf, hfg, -⟩ := of_mem_placeChunk hg
    exact ⟨f, hf, hfg⟩

theorem State.placeOffer_serves {h : RegionIx} (hd : s.scrubHead = some h) : State.ScrubServes h s s.placeOffer := by
  simp only [State.placeOffer, hd]
  repeat' split
  · exact State.placeChunk_serves h _ _
  · exact .refl h s
  · refine ⟨rfl, List.prefix_refl _, fun _ _ h => h, fun f hf => ⟨f, List.mem_append_left _ hf, rfl⟩, fun g hg => ?_⟩
    rcases List.mem_append.mp hg with hg | hg
    · exact .inl ⟨g, hg, rfl⟩
    · obtain rfl := List.mem_singleton.mp hg
      exact .inr ⟨rfl, rfl⟩
  · exact ⟨rfl, List.prefix_refl _, fun _ _ h => h, fun f hf => ⟨f, hf, rfl⟩, fun g hg => .inl ⟨g, hg, rfl⟩⟩
  · exact .refl h s

/-- The record of a slot into which a chunk is issued now (R67). -/
def State.chunkSlot (s : State) (c : Chunk) : SlotRecord :=
  ⟨.chunk c, .write, some ⟨c.first, c.count⟩, s.port.nextOperation, s.work.mediaTimeout, []⟩

/-- A grant to the scrub engine but for its next offer. -/
def State.chunkIssued (i : SlotIx) (c : Chunk) (s : State) : State :=
  State.issue i (.chunk c) .write (some ⟨c.first, c.count⟩) (s.chunkData c)
    { s with scrub := { s.scrub with formed := placeChunk c .atMedia s.scrub.formed } }

theorem State.grantChunk_eq (i : SlotIx) (c : Chunk) : s.grantChunk i c = (s.chunkIssued i c).placeOffer := rfl

theorem State.chunkIssued_slots (i j : SlotIx) (c : Chunk) :
    (s.chunkIssued i c).port.slots[j] = if j = i then some (s.chunkSlot c) else s.port.slots[j] :=
  getElem_set_fin ..

/-- A chunk is issued into a free slot (R67). -/
theorem State.grantChunk_serves {h : RegionIx} {i : SlotIx} (hd : s.scrubHead = some h) (hi : s.port.slots[i] = none)
    (c : Chunk) : State.ScrubServes h s (s.grantChunk i c) := by
  obtain ⟨-, -, -, stay, new⟩ := State.placeChunk_serves (s := s) h c .atMedia
  have issued : State.ScrubServes h s (s.chunkIssued i c) := by
    refine ⟨rfl, List.prefix_append _ _, fun j x hx => ?_, stay, new⟩
    have other : j ≠ i := by
      rintro rfl
      rw [hi] at hx
      cases hx
    rw [State.chunkIssued_slots, if_neg other, hx]
  exact issued.trans (State.placeOffer_serves hd)

theorem State.grantChunk_slot (i : SlotIx) (c : Chunk) :
    (s.grantChunk i c).port.slots[i] = some (s.chunkSlot c) := by
  have port : (s.grantChunk i c).port = (s.chunkIssued i c).port := by
    rw [State.grantChunk_eq, State.placeOffer_frame]
  refine (getElem_congr_table (congrArg MediaPort.slots port) i).trans ?_
  rw [State.chunkIssued_slots, if_pos rfl]

theorem State.freeSlot_free {i : SlotIx} (h : s.freeSlot = some i) : s.port.slots[i] = none := by
  simpa using List.find?_some h

/-- Without host segments the arbiter grants chunks alone. -/
theorem State.grantOnce_serves {h : RegionIx} (hd : s.scrubHead = some h) (hq : s.port.queue = []) :
    State.ScrubServes h s (s.grantOnce s.nextGrant) := by
  unfold State.nextGrant
  rw [hq]
  cases hi : s.freeSlot with
  | none => exact .refl h s
  | some i =>
    cases ho : s.offer with
    | none => exact .refl h s
    | some c =>
      have free := State.freeSlot_free hi
      dsimp only
      split
      · have charged : State.ScrubServes h s { s with port := { s.port with credit := s.port.credit - 1 } } :=
          ⟨rfl, List.prefix_refl _, fun _ _ h => h, fun f hf => ⟨f, hf, rfl⟩, fun g hg => .inl ⟨g, hg, rfl⟩⟩
        refine charged.trans ?_
        exact State.grantChunk_serves (s := { s with port := { s.port with credit := s.port.credit - 1 } }) hd free c
      · exact State.grantChunk_serves hd free c

theorem State.arbitrate_serves {h : RegionIx} (n : Nat) : ∀ s : State, s.scrubHead = some h → s.port.queue = [] →
    State.ScrubServes h s (s.arbitrate n) := by
  induction n with
  | zero => intro s _ _; exact .refl h s
  | succ n ih =>
    intro s hd hq
    have first := State.grantOnce_serves hd hq
    obtain ⟨frame, -⟩ := id first
    have rest : State.ScrubServes h (s.grantOnce s.nextGrant) ((s.grantOnce s.nextGrant).arbitrate n) :=
      ih _ (by rw [frame]; exact hd) (by rw [frame]; exact hq)
    unfold State.arbitrate
    split
    · exact .refl h s
    · exact first.trans rest

/-- A walk with a chunk formed and its key loaded has not ended (R160). -/
theorem State.tryFinish_of_formed {h : RegionIx} {f : FormedChunk} (hd : s.scrubHead = some h)
    (hf : f ∈ s.scrub.formed) (hk : s.keys[h].loaded.isSome = true) : s.tryFinish = s := by
  rw [State.tryFinish_of_head hd, if_neg]
  rintro ⟨ended, -⟩
  obtain ⟨-, -, formed | loaded⟩ := (State.walkEnded_iff h).mp ended
  · rw [formed] at hf
    cases hf
  · rw [loaded] at hk
    cases hk

/-- While the head's walk has an offer to make, serving the port only issues its chunks. -/
theorem State.serveMedia_serves {h : RegionIx} {f : FormedChunk} (hd : s.scrubHead = some h) (hq : s.port.queue = [])
    (hk : s.keys[h].loaded.isSome = true) (hf : f ∈ s.placeOffer.scrub.formed) :
    s.serveMedia = s.placeOffer.arbitrate 16 ∧ State.ScrubServes h s s.serveMedia := by
  have placed := State.placeOffer_serves hd
  have head : s.placeOffer.scrubHead = some h := by rw [State.placeOffer_frame]; exact hd
  have granted := State.arbitrate_serves 16 s.placeOffer head (by rw [State.placeOffer_frame]; exact hq)
  obtain ⟨frame, -, -, stay, -⟩ := id granted
  obtain ⟨g, hg, -⟩ := stay f hf
  have ends : s.serveMedia = s.placeOffer.arbitrate 16 := by
    refine State.tryFinish_of_formed (h := h) ?_ hg ?_
    · rw [frame]; exact head
    · rw [frame, State.placeOffer_frame]; exact hk
  exact ⟨ends, ends ▸ placed.trans granted⟩

/-- With every slot free, no host segment and no credit, the chunk on offer takes slot 0 (R64). -/
theorem State.serveMedia_first {h : RegionIx} {c : Chunk} (hd : s.scrubHead = some h)
    (hk : s.keys[h].loaded.isSome = true) (hfree : ∀ i : SlotIx, s.port.slots[i] = none) (hq : s.port.queue = [])
    (hc : s.port.credit = 0) (ho : s.placeOffer.offer = some c) :
    State.ScrubServes h s s.serveMedia ∧ s.serveMedia.port.slots[(0 : SlotIx)] = some (s.chunkSlot c) := by
  obtain ⟨f, found, -⟩ := Option.map_eq_some_iff.mp ho
  obtain ⟨ends, serves⟩ := State.serveMedia_serves hd hq hk (List.mem_of_find?_eq_some found)
  refine ⟨serves, ?_⟩
  rw [ends]
  have port : s.placeOffer.port = s.port := by rw [State.placeOffer_frame]
  have slot : s.placeOffer.chunkSlot c = s.chunkSlot c := by rw [State.placeOffer_frame]; rfl
  have head : s.placeOffer.scrubHead = some h := by rw [State.placeOffer_frame]; exact hd
  generalize s.placeOffer = p at *
  have free : p.freeSlot = some 0 := by
    have empty : s.port.slots[(0 : SlotIx)].isNone = true := by rw [hfree]; rfl
    rw [State.freeSlot, port]
    exact List.find?_cons_of_pos empty
  have grant : p.nextGrant = .chunk 0 c := by
    simp [State.nextGrant, free, ho, port, hq, hc]
  have first : p.arbitrate 16 = (p.grantChunk 0 c).arbitrate 15 := by
    rw [State.arbitrate, grant]; rfl
  have empty : p.port.slots[(0 : SlotIx)] = none := by rw [port]; exact hfree 0
  obtain ⟨frame, -⟩ := State.grantChunk_serves head empty c
  obtain ⟨-, -, slots, -⟩ := State.arbitrate_serves (h := h) 15 (p.grantChunk 0 c) (by rw [frame]; exact head)
    (by rw [frame, port]; exact hq)
  rw [first, ← slot]
  exact slots 0 _ (State.grantChunk_slot 0 c)

/-! ### A link reset that a walk follows -/

theorem State.settle_to_walk (hr : s.ResponseStill) (he : ∀ e ∈ s.erases, e.stage ≠ .begun)
    (hp : s.startUp.phase ≠ .resuming) : s.settle = s.startWalkIfDue.serveMedia.serveStore := by
  rw [State.settle, State.takeIfFree_of_still hr,
    State.destroyAllDue_of_not_due (State.destructionsDue_of_none_begun he), State.progress_of_not_resuming hp]

/-- Without a derivation a link reset's event goes on with the walk and the port. -/
theorem exec_linkReset_to_walk (hr : s.ResponseStill) (he : ∀ e ∈ s.erases, e.stage ≠ .begun)
    (hp : s.startUp.phase ≠ .resuming) (hd : s.derivation = none) :
    exec .linkReset s = .next s.quiet.linkCleared.startWalkIfDue.serveMedia.serveStore := by
  have run : exec .linkReset s = .next s.quiet.linkReset := rfl
  have frame := State.linkCleared_frame (s := s.quiet)
  have no_present : ∀ d, s.quiet.derivation = some d → ∃ q, d.use = .secret q := fun d h => by
    rw [State.quiet, hd] at h
    cases h
  rw [run, State.linkReset_of_no_present no_present, State.settle_to_walk]
  · exact State.responseStill_congr hr (by rw [frame]; rfl) (by rw [frame]; rfl) (by rw [frame]; rfl)
      (by rw [frame]; rfl)
  · rw [frame]; exact he
  · rw [frame]; exact hp

/-- A link reset while the head's walk goes on: the chunk on offer takes slot 0 (R64, R72, R155). -/
theorem exec_linkReset_walking {h : RegionIx} {c : Chunk} (hr : s.ResponseStill)
    (he : ∀ e ∈ s.erases, e.stage ≠ .begun) (hp : s.startUp.phase ≠ .resuming) (hd : s.derivation = none)
    (hs : s.StoreStill) (head : s.scrubHead = some h) (hw : s.scrub.phase = .walking)
    (hk : s.keys[h].loaded.isSome = true)
    (hc : ∃ f ∈ s.abandonChunks.scrub.formed, f.chunk = c)
    (ho : s.offer = some c ∨ s.offer = none
      ∧ ∀ f ∈ s.abandonChunks.scrub.formed, f.chunk = c ∨ c.first < f.chunk.first) :
    ∃ t, exec .linkReset s = .next t ∧ State.ScrubServes h s.quiet.linkCleared t
      ∧ t.port.slots[(0 : SlotIx)] = some (s.chunkSlot c) := by
  have frame := State.linkCleared_frame (s := s.quiet)
  have keys : s.quiet.linkCleared.keys[h] = s.keys[h] := State.linkCleared_keys_head (s := s.quiet) head
  refine ⟨_, exec_linkReset_to_walk hr he hp hd, ?_⟩
  generalize hK : s.quiet.linkCleared = k at *
  have headK : k.scrubHead = some h := by rw [frame]; exact head
  have walking : k.scrub.phase = .walking := by rw [frame]; exact hw
  have loaded : k.keys[h].loaded.isSome = true := by rw [keys]; exact hk
  have scrub : k.scrub = s.abandonChunks.scrub := by rw [frame]; rfl
  have offerK : k.offer = s.offer := by
    rw [State.offer, scrub]
    exact State.abandonChunks_offer
  have slot : k.chunkSlot c = s.chunkSlot c := by rw [frame]; rfl
  have offered : k.placeOffer.offer = some c := by
    rcases ho with ho | ⟨ho, low⟩
    · rw [State.placeOffer_offered (offerK.trans ho)]
      exact offerK.trans ho
    · have none_offered := State.offer_eq_none_iff.mp (offerK.trans ho)
      have reissue (f : FormedChunk) (hf : f ∈ k.scrub.formed) : f.place = .reissue := by
        have kept : f ∈ s.abandonChunks.scrub.formed := scrub ▸ hf
        rcases (State.mem_abandonChunks f).mp kept with ⟨media, -⟩ | ⟨place, -⟩
        · cases hp : f.place with
          | offered => exact absurd hp (none_offered f hf)
          | atMedia => exact absurd hp media
          | reissue => rfl
        · exact place
      have chunk : ∃ f ∈ k.scrub.formed, f.chunk = c := scrub ▸ hc
      have lowest : lowestReissue k.scrub.formed = some c := by
        obtain ⟨⟨d, place⟩, hf, rfl⟩ := chunk
        obtain rfl : place = .reissue := reissue _ hf
        exact lowestReissue_eq hf fun f hf _ => low f (scrub ▸ hf)
      rw [State.placeOffer_reissue headK walking (offerK.trans ho) loaded lowest]
      exact State.offer_placeChunk (offerK.trans ho) chunk
  have notDue : k.walkDue = false := by
    simp [State.walkDue, headK, walking]
  obtain ⟨serves, first⟩ := State.serveMedia_first headK loaded (fun i => by rw [frame]; exact getElem_tabMap ..)
    (by rw [frame]) (by rw [frame]) offered
  have store : k.serveMedia.StoreStill := by
    obtain ⟨served, -⟩ := serves
    rw [served, frame]
    exact hs
  rw [State.startWalkIfDue_of_not_due notDue, State.serveStore_of_still store, ← slot]
  exact ⟨serves, first⟩

/-! ### The start of a walk (R155) -/

/-- Where the next chunk lies depends on the regions' ranges alone. -/
theorem State.nextChunk_congr {t : State} (hg : t.geometry = s.geometry) (hb : t.boundary = s.boundary)
    (hr : ∀ r : RegionIx, t.work.regions[r].enabled = s.work.regions[r].enabled
      ∧ t.work.regions[r].extent = s.work.regions[r].extent) (h : RegionIx) (p : Nat) :
    t.nextChunk h p = s.nextChunk h p := by
  have extent (r : RegionIx) : t.work.regions[r].extent = s.work.regions[r].extent := (hr r).2
  have regionAt (q : Nat) : t.regionAt q = s.regionAt q := by
    refine congrArg (List.find? · allRegions) (funext fun r => ?_)
    rw [RegionRecord.contains, RegionRecord.contains, (hr r).1, extent r]
  have nextStart (q : Nat) : t.nextStart q = s.nextStart q := by rw [State.nextStart, hb]; rfl
  have skip (n : Nat) : ∀ q, t.skipEnabled n q = s.skipEnabled n q := by
    induction n with
    | zero => intro q; rfl
    | succ n ih => intro q; simp only [State.skipEnabled, regionAt, extent, ih]
  simp only [State.nextChunk, skip, nextStart, extent, hg]

/-- The walk of a head that nothing holds and whose key can be loaded starts (R155). -/
theorem State.startWalk_of_loadable {h : RegionIx} (hd : s.scrubHead = some h) (hn : s.headHeld h = false)
    (hk : (s.loadKey h).keys[h].loaded.isSome = true) : s.startWalk = { s with
      keys := s.startWalk.keys
      work := { s.work with regions := s.work.regions.set h { s.work.regions[h] with condition := .scrubbing } }
      scrub := { s.scrub with phase := .walking, walkGeneration := s.stored.keys[h].generation } }
    ∧ s.startWalk.keys[h].loaded.isSome = true := by
  generalize ht : (s.setRegion h { s.work.regions[h] with condition := .scrubbing }).loadKey h = t
  have frame := ht.symm.trans (State.loadKey_frame h)
  have key : t.keys[h] = (s.loadKey h).keys[h] := by
    rw [← ht, State.loadKey_keys, State.loadKey_keys]; rfl
  have loaded : t.keys[h].loaded.isSome = true := by rw [key]; exact hk
  have started : s.startWalk = { t with scrub := { t.scrub with
      phase := .walking, walkGeneration := t.stored.keys[h].generation } } := by
    simp only [State.startWalk, hd, hn, Bool.false_eq_true, if_false, ht, loaded, if_true]
  rw [started]
  refine ⟨?_, loaded⟩
  rw [frame]
  rfl

/-- A link reset that removes every formed chunk of a held head: the head's walk starts (R155, R157). -/
theorem exec_linkReset_held {h : RegionIx} {p : Nat} (hr : s.ResponseStill)
    (he : ∀ e ∈ s.erases, e.stage ≠ .begun) (hp : s.startUp.phase = .running) (hd : s.derivation = none)
    (hs : s.StoreStill) (head : s.scrubHead = some h) (hw : s.scrub.phase = .held)
    (hold : s.regions[h].eraseHold = false) (hdef : s.define = none) (hf : s.abandonChunks.scrub.formed = [])
    (hi : s.scrub.issue = some p) (hn : (s.nextChunk h p).isSome = true)
    (hk : (s.loadKey h).keys[h].loaded.isSome = true) :
    ∃ w t, exec .linkReset s = .next t ∧ State.ScrubServes h w t
      ∧ w = { s.quiet.linkCleared with
        keys := w.keys
        work := { s.work with regions := s.work.regions.set h { s.work.regions[h] with condition := .scrubbing } }
        scrub := { s.abandonChunks.scrub with phase := .walking, walkGeneration := s.stored.keys[h].generation } } := by
  have frame := State.linkCleared_frame (s := s.quiet)
  have keys : s.quiet.linkCleared.keys[h] = s.keys[h] := State.linkCleared_keys_head (s := s.quiet) head
  have regions : s.quiet.linkCleared.regions[h].eraseHold = s.regions[h].eraseHold := by
    rw [State.linkCleared_regions]; rfl
  rw [exec_linkReset_to_walk hr he (by rw [hp]; decide) hd]
  generalize hK : s.quiet.linkCleared = k at *
  have headK : k.scrubHead = some h := by rw [frame]; exact head
  have scrub : k.scrub = s.abandonChunks.scrub := by rw [frame]; rfl
  have formed : k.scrub.formed = [] := by rw [scrub]; exact hf
  have unheld : k.headHeld h = false := by
    have define : k.defineHolds = false := by rw [frame]; simp [State.defineHolds, State.quiet, hdef]
    rw [State.headHeld, regions, hold, formed, define]
    rfl
  have due : k.walkDue = true := by
    have held : k.scrub.phase = .held := by rw [scrub]; exact hw
    have running : k.isRunning = true := by rw [frame, State.isRunning]; simp [State.quiet, hp]
    simp [State.walkDue, headK, unheld, held, running]
  have loadable : (k.loadKey h).keys[h].loaded.isSome = true := by
    have same : (k.loadKey h).keys[h] = (s.loadKey h).keys[h] := by
      have unwrapped : k.unwrapped h = s.unwrapped h := by rw [frame]; rfl
      rw [State.loadKey_keys, State.loadKey_keys, keys, unwrapped]
    rw [same]
    exact hk
  obtain ⟨started, loaded⟩ := State.startWalk_of_loadable headK unheld loadable
  obtain ⟨⟨a, b⟩, next⟩ := Option.isSome_iff_exists.mp hn
  rw [State.startWalkIfDue, if_pos due]
  generalize k.startWalk = w at *
  have headW : w.scrubHead = some h := by rw [started]; exact headK
  have work : k.work = s.work := by rw [frame]; rfl
  have nextW : w.nextChunk h p = some (a, b) := by
    rw [← next]
    refine State.nextChunk_congr (by rw [started, frame]; rfl) (by rw [started, frame]; rfl) (fun r => ?_) h p
    rw [started]
    dsimp only
    rw [getElem_set_fin, work]
    split
    · rename_i hr; rw [hr]; exact ⟨rfl, rfl⟩
    · exact ⟨rfl, rfl⟩
  have offered : w.placeOffer = { w with scrub := { w.scrub with
      formed := [⟨⟨h, a, b - a, w.scrub.walkGeneration⟩, .offered⟩], issue := some b } } := by
    refine State.placeOffer_new headW (by rw [started]) loaded (by rw [started]; exact formed) ?_ nextW
    rw [started, scrub]
    exact hi
  obtain ⟨-, serves⟩ := State.serveMedia_serves headW (by rw [started, frame]) loaded
    (by rw [offered]; exact List.mem_singleton.mpr rfl)
  have store : w.serveMedia.StoreStill := by
    obtain ⟨served, -⟩ := serves
    rw [served, started, frame]
    exact hs
  refine ⟨w, _, rfl, ?_, ?_⟩
  · rw [State.serveStore_of_still store]
    exact serves
  · have stored : k.stored = s.stored := by rw [frame]; rfl
    have generation : k.stored.keys[h].generation = s.stored.keys[h].generation := by rw [stored]
    rw [work, scrub, generation] at started
    exact started

end Sys2Proof.Machine

namespace Sys2Proof.Proofs

open Sys2Proof Sys2Proof.Machine

/-- Settles O28: the blocks' answers to the reset, and what still follows in its event: nothing, the start of a
response, the start of the head's walk, or the issue of the walk's chunks. -/
theorem linkResetDiscards : Obligations.LinkResetDiscards := by
  refine ⟨?_, ?_, ?_⟩
  · intro s hr he hp hw ho hs hh ofWalk fill reset
    have follows : s.NoWalkFollows := ⟨he, hp, hw, ho, hh⟩
    have is_reset (cs : Vector CredentialStatus 8) (rc : ResponseController) (al : AlertQueue) :
        reset (s.quiet.linkAnswered cs rc al) := by
      obtain ⟨⟨fills, sent, short, mem⟩, frame, slots, rest⟩ :=
        State.linkAnswered_reset (keeps := fun f => decide (f.place = .atMedia → ofWalk f.chunk)) hw
          (fun _ => decide_eq_true_iff) cs rc al
      simp only [State.slotFill_eq_some] at mem
      exact ⟨⟨fills, sent, short, mem⟩, frame, slots, rest⟩
    refine ⟨fun hd => ?_, fun d p a hd hu _ => ?_⟩
    · refine ⟨_, exec_linkReset_no_present hr follows hs hd, is_reset .., ?_⟩
      rw [State.linkAnswered_frame]
      exact ⟨rfl, rfl, rfl⟩
    · intro c n e atLimit backoff
      have count : backoffFor a = backoff := backoffFor_eq a
      refine ⟨fun hn => ?_, fun hl hf hn => ?_⟩
      · refine ⟨_, exec_linkReset_present hr follows hs hd hu hn, is_reset .., ?_⟩
        rw [State.linkAnswered_frame, ← count]
        exact ⟨rfl, rfl, rfl⟩
      · rw [← count]
        exact exec_linkReset_trigger hr follows hd hu hl hf hn
  · intro s h p hr he hp hd hs head hw hold hdef hstale hi hn hk
    have formed : s.abandonChunks.scrub.formed = [] := by
      refine List.eq_nil_iff_forall_not_mem.mpr fun f hf => ?_
      rcases (State.mem_abandonChunks f).mp hf with ⟨place, mem⟩ | ⟨-, fresh, -, mem⟩
      · exact place (hstale f mem).1
      · have stale : s.stale f.chunk = true := (State.stale_iff _).mpr ((hstale _ mem).2.imp_right .inr)
        rw [stale] at fresh
        cases fresh
    obtain ⟨w, t, run, ⟨served, -, -, -, chunks⟩, started⟩ :=
      exec_linkReset_held hr he hp hd hs head hw hold hdef formed hi hn hk
    have of_walk (f : FormedChunk) (hf : f ∈ t.scrub.formed) :
        f.chunk.region = h ∧ f.chunk.generation = s.stored.keys[h].generation := by
      rcases chunks f hf with ⟨g, hg, -⟩ | ⟨region, generation⟩
      · rw [started] at hg
        rw [show _ = [] from formed] at hg
        cases hg
      · exact ⟨region, generation.trans (by rw [started])⟩
    have blocks := State.linkCleared_frame (s := s.quiet)
    refine ⟨t, run, ?_, ?_, ?_, ?_, ?_, ?_, ?_, of_walk, fun f _ hgen hf => hgen ?_⟩
    · rw [served, started]
    · rw [served, started]
    · rw [served, started]
    · rw [served, started, blocks]; rfl
    · rw [served, started, blocks]; rfl
    · rw [served, started, blocks]
    · rw [served, started]; rfl
    · obtain ⟨region, generation⟩ := of_walk f hf
      rw [generation]
      exact congrArg (fun r : RegionIx => s.stored.keys[r].generation) region
  · intro s h c hr he hp hd hs head hw hk stays hc ho
    have goesOn : s.walkOver = false := by
      have written : s.unwritten h = false := by rw [State.unwritten, ← Option.not_isSome, hk]; rfl
      simp [State.walkOver, head, hw, written]
    have kept (f : FormedChunk) (hf : f ∈ s.scrub.formed) (hst : stays f) :
        ∃ g ∈ s.abandonChunks.scrub.formed, g.chunk = f.chunk := by
      by_cases place : f.place = .atMedia
      · obtain ⟨d, p⟩ := f
        obtain rfl : p = .atMedia := place
        exact ⟨⟨d, .reissue⟩, (State.mem_abandonChunks _).mpr
          (.inr ⟨rfl, (State.stale_eq_false_iff d).mpr (hst rfl), goesOn, hf⟩), rfl⟩
      · exact ⟨f, (State.mem_abandonChunks f).mpr (.inl ⟨place, hf⟩), rfl⟩
    have of_kept (g : FormedChunk) (hg : g ∈ s.abandonChunks.scrub.formed) :
        ∃ f ∈ s.scrub.formed, stays f ∧ f.chunk = g.chunk := by
      rcases (State.mem_abandonChunks g).mp hg with ⟨place, mem⟩ | ⟨-, fresh, -, mem⟩
      · exact ⟨g, mem, fun e => absurd e place, rfl⟩
      · exact ⟨_, mem, fun _ => (State.stale_eq_false_iff _).mp fresh, rfl⟩
    have chunk : ∃ f ∈ s.abandonChunks.scrub.formed, f.chunk = c := by
      obtain ⟨f, hf, rfl, hst⟩ := hc
      exact kept f hf hst
    have lowest (low : ∀ f ∈ s.scrub.formed, stays f → f.chunk = c ∨ c.first < f.chunk.first) :
        ∀ f ∈ s.abandonChunks.scrub.formed, f.chunk = c ∨ c.first < f.chunk.first := fun g hg => by
      obtain ⟨f, hf, hst, hfg⟩ := of_kept g hg
      exact hfg ▸ low f hf hst
    obtain ⟨t, run, ⟨served, sent, -, chunks, -⟩, slot⟩ := exec_linkReset_walking hr he hp hd hs head hw hk chunk
      (ho.imp_right (And.imp_right lowest))
    have blocks := State.linkCleared_frame (s := s.quiet)
    refine ⟨t, run, ?_, ?_, ?_, ?_, ?_, ?_, ?_, slot, fun f hf hst => ?_⟩
    · rw [served, blocks]; rfl
    · rw [served, blocks]; rfl
    · rw [served, blocks]; rfl
    · rw [served, blocks]; rfl
    · rw [served, blocks]
    · rw [blocks] at sent
      obtain ⟨more, hmore⟩ := sent
      rw [← hmore]
      rfl
    · rw [served, blocks]
      exact hw
    · obtain ⟨g, hg, hgf⟩ := kept f hf hst
      obtain ⟨k, hk, hkg⟩ := chunks g (by rw [blocks]; exact hg)
      exact ⟨k, hk, hkg.trans hgf⟩

end Sys2Proof.Proofs
end

section
/-! PROOFS. The moves that leave the region bounds as they are (R27): what a DEFINE-REGION waits for, the law across
such a move, and rights, crypto-erases and draws as such moves; no right opens in LOCKDOWN (R31). -/

namespace Sys2Proof.Machine

variable {s t u : State}

/-! ### Rights in LOCKDOWN -/

/-- A right is OPEN only where it is in another state. -/
def State.RightsWithin (t s : State) : Prop :=
  ∀ (r : RegionIx) (k : RightKind), t.regions[r].right k = .opened → s.regions[r].right k = .opened

/-- No right is OPEN. -/
def State.AllLocked (s : State) : Prop := ∀ (r : RegionIx) (k : RightKind), s.regions[r].right k ≠ .opened

/-- A move that ends in LOCKDOWN began there and opened no right, or it leaves every right LOCKED (R31, R86, R105). -/
def State.Seals (s t : State) : Prop :=
  t.work.mode = .lockdown → s.work.mode = .lockdown ∧ t.RightsWithin s ∨ t.AllLocked

theorem State.RightsWithin.refl (s : State) : s.RightsWithin s := fun _ _ h => h

theorem State.RightsWithin.trans (h : t.RightsWithin s) (g : u.RightsWithin t) : u.RightsWithin s :=
  fun r k hr => h r k (g r k hr)

theorem State.RightsWithin.of_regions (h : t.regions = s.regions) : t.RightsWithin s := by
  intro r k hr; rw [h] at hr; exact hr

theorem State.AllLocked.of_within (h : s.AllLocked) (g : t.RightsWithin s) : t.AllLocked :=
  fun r k hr => h r k (g r k hr)

theorem State.Seals.refl (s : State) : s.Seals s := fun h => .inl ⟨h, .refl s⟩

theorem State.Seals.trans (h : s.Seals t) (g : t.Seals u) : s.Seals u := by
  intro hm
  rcases g hm with ⟨ht, hw⟩ | hl
  · rcases h ht with ⟨hs, hv⟩ | hl
    · exact .inl ⟨hs, hv.trans hw⟩
    · exact .inr (hl.of_within hw)
  · exact .inr hl

/-- A move that keeps the mode and opens nothing. -/
theorem State.Seals.of_within (hm : t.work.mode = s.work.mode) (h : t.RightsWithin s) : s.Seals t :=
  fun ht => .inl ⟨hm ▸ ht, h⟩

theorem State.Seals.of_regions (hm : t.work.mode = s.work.mode) (h : t.regions = s.regions) : s.Seals t :=
  .of_within hm (.of_regions h)

/-! ### What a DEFINE-REGION waits for -/

/-- A draw of key material for an enabling (R38). -/
def Draw.enables : Draw → Bool
  | .key _ _ .enabling => true
  | _ => false

/-- A disabling's crypto-erase that has not handed over its unit (R40). -/
def EraseOperation.disables (e : EraseOperation) : Bool := e.party == .disabling && e.stage != .committing

/-- The unit of a DEFINE-REGION (R165). -/
def CommitUnit.defines : CommitUnit → Bool
  | .regionDefinition _ => true
  | _ => false

/-- Draws requested for an enabling. -/
def State.enablings (s : State) : Nat := (s.random.queue ++ s.random.waiting).countP Draw.enables

/-- Crypto-erases of a disabling under way. -/
def State.disablings (s : State) : Nat := s.erases.countP EraseOperation.disables

/-- Units in the commit queue, and behind it. -/
def State.units (s : State) : List CommitUnit := s.store.queue ++ s.store.deferred

/-- Region-definition units submitted. -/
def State.definitions (s : State) : Nat := s.units.countP CommitUnit.defines

theorem State.defineWaits_eq (s : State) : s.defineWaits = s.enablings + s.disablings + s.definitions := by
  simp only [State.enablings, State.disablings, State.definitions, List.countP_eq_length_filter]
  rfl

/-! ### Moves that define no region -/

/-- A move that leaves the bounds, the store's copy and the DEFINE-REGION in progress as they were; a region-definition
unit that comes in is that DEFINE-REGION's own, a write under way is the same head's, and no right opens in LOCKDOWN
(R27, R31, R37 to R40). -/
structure State.Moves (s t : State) : Prop where
  geometry : t.geometry = s.geometry
  stored : t.stored = s.stored
  boundary : t.boundary = s.boundary
  define : t.define = s.define
  bounds : ∀ r : RegionIx, t.work.regions[r].enabled = s.work.regions[r].enabled
    ∧ t.work.regions[r].extent = s.work.regions[r].extent
  units : ∀ d, .regionDefinition d ∈ t.units → .regionDefinition d ∈ s.units ∨ s.define = some d
  draws : ∀ (r : RegionIx) (g : Nat), .key r g (.erase .disabling) ∈ t.random.queue ++ t.random.waiting →
    .key r g (.erase .disabling) ∈ s.random.queue ++ s.random.waiting
  writing : ∀ image, t.store.writing = some image →
    s.store.writing = some image ∧ (s.store.queue = [] ∨ t.store.queue.head? = s.store.queue.head?)
  seals : s.Seals t

/-- A move as above under which what a DEFINE-REGION waits for does not grow. -/
structure State.Follows (s t : State) : Prop extends State.Moves s t where
  waits : t.defineWaits ≤ s.defineWaits

theorem State.Moves.refl (s : State) : s.Moves s where
  geometry := rfl
  stored := rfl
  boundary := rfl
  define := rfl
  bounds _ := ⟨rfl, rfl⟩
  units _ h := .inl h
  draws _ _ h := h
  writing _ h := ⟨h, .inr rfl⟩
  seals := .refl s

theorem State.Moves.trans (f : s.Moves t) (g : t.Moves u) : s.Moves u where
  geometry := g.geometry.trans f.geometry
  stored := g.stored.trans f.stored
  boundary := g.boundary.trans f.boundary
  define := g.define.trans f.define
  bounds r := ⟨(g.bounds r).1.trans (f.bounds r).1, (g.bounds r).2.trans (f.bounds r).2⟩
  units d h := (g.units d h).elim (f.units d) fun h => .inr (f.define ▸ h)
  draws r n h := f.draws r n (g.draws r n h)
  writing image h := by
    obtain ⟨hw, hq⟩ := g.writing image h
    obtain ⟨hv, hp⟩ := f.writing image hw
    refine ⟨hv, hp.elim .inl fun hp => hq.elim (fun hq => .inl ?_) fun hq => .inr (hq.trans hp)⟩
    rw [hq] at hp
    exact List.head?_eq_none_iff.mp hp.symm
  seals := f.seals.trans g.seals

theorem State.Follows.refl (s : State) : s.Follows s := ⟨.refl s, le_refl _⟩

theorem State.Follows.trans (f : s.Follows t) (g : t.Follows u) : s.Follows u :=
  ⟨f.toMoves.trans g.toMoves, g.waits.trans f.waits⟩

/-- The last of two moves named first, so that it says where the first one ends. -/
theorem State.Follows.after (g : t.Follows u) (f : s.Follows t) : s.Follows u := f.trans g

/-- A move that reaches, of what `Follows` looks at, at most the volatile fields of regions, region records without
their bounds, and crypto-erases. -/
theorem State.Follows.of_parts (hl : (t.geometry, t.stored, t.boundary, t.define, t.random, t.store.queue,
      t.store.deferred, t.store.writing) = (s.geometry, s.stored, s.boundary, s.define, s.random, s.store.queue,
      s.store.deferred, s.store.writing))
    (hb : ∀ r : RegionIx, t.work.regions[r].enabled = s.work.regions[r].enabled
      ∧ t.work.regions[r].extent = s.work.regions[r].extent)
    (he : t.disablings ≤ s.disablings) (hs : s.Seals t) : s.Follows t := by
  simp only [Prod.mk.injEq] at hl
  obtain ⟨geometry, stored, boundary, define, random, queue, deferred, writing⟩ := hl
  refine ⟨⟨geometry, stored, boundary, define, hb, ?_, ?_, ?_, hs⟩, ?_⟩
  · intro d h; simp only [State.units, queue, deferred] at h ⊢; exact .inl h
  · intro r g h; rw [random] at h; exact h
  · intro image h; rw [writing] at h; rw [queue]; exact ⟨h, .inr rfl⟩
  · simp only [State.defineWaits_eq, State.enablings, State.definitions, State.units, random, queue, deferred]
    omega

/-- What `Follows` looks at. -/
def State.look (s : State) : Geometry × Records × List Nat × Option DefineRequest × RandomSource × List CommitUnit
    × List CommitUnit × Option Records × Vector RegionRecord 16 × Mode × Vector RegionStatus 16 × List EraseOperation :=
  (s.geometry, s.stored, s.boundary, s.define, s.random, s.store.queue, s.store.deferred, s.store.writing,
    s.work.regions, s.work.mode, s.regions, s.erases)

theorem State.Follows.of_look (h : t.look = s.look) : s.Follows t := by
  simp only [State.look, Prod.mk.injEq] at h
  obtain ⟨geometry, stored, boundary, define, random, queue, deferred, writing, records, mode, regions, erases⟩ := h
  refine .of_parts (by simp [*]) (fun r => by simp [records]) ?_ (.of_regions mode regions)
  rw [State.disablings, erases, State.disablings]

/-- Rights and keys move, and no right opens. -/
theorem State.Follows.of_rights (f : RightsFrame s t) (h : t.RightsWithin s) : s.Follows t := by
  refine .of_parts ?_ (fun r => ?_) ?_ (.of_within ?_ h) <;> rw [f]
  · exact ⟨rfl, rfl⟩
  · exact le_refl _

/-- A region record is written with its bounds as they were. -/
theorem State.follows_setRegion {r : RegionIx} {x : RegionRecord} (he : x.enabled = s.work.regions[r].enabled)
    (hx : x.extent = s.work.regions[r].extent) : s.Follows (s.setRegion r x) := by
  refine .of_parts rfl (fun q => ?_) (le_refl _) (.of_regions rfl rfl)
  rw [State.setRegion_work]
  dsimp only
  rw [getElem_set_fin]
  split
  · rename_i hq; subst hq; exact ⟨he, hx⟩
  · exact ⟨rfl, rfl⟩

theorem State.mem_units_submit {v w : CommitUnit} : w ∈ (s.submit v).units ↔ w ∈ s.units ∨ w = v := by
  unfold State.submit State.units
  split <;> simp only [List.mem_append, List.mem_singleton] <;> tauto

theorem State.definitions_submit (v : CommitUnit) :
    (s.submit v).definitions = s.definitions + if v.defines then 1 else 0 := by
  unfold State.submit State.definitions State.units
  split <;> simp only [List.countP_append, List.countP_singleton] <;> omega

theorem State.defineWaits_submit (v : CommitUnit) :
    (s.submit v).defineWaits = s.defineWaits + if v.defines then 1 else 0 := by
  have same : (s.submit v).enablings = s.enablings ∧ (s.submit v).disablings = s.disablings := by
    simp [State.enablings, State.disablings]
  rw [State.defineWaits_eq, State.defineWaits_eq, State.definitions_submit, same.1, same.2]
  omega

/-- A unit is submitted: one that defines no region, or that of the DEFINE-REGION in progress (R166). -/
theorem State.moves_submit {v : CommitUnit} (h : ∀ d, v = .regionDefinition d → s.define = some d) :
    s.Moves (s.submit v) := by
  refine ⟨by simp, by simp, by simp, by simp, by simp, fun d hd => ?_, by simp, fun image hw => ?_,
    .of_regions (by simp) (by simp)⟩
  · exact (State.mem_units_submit.mp hd).imp_right fun e => h d e.symm
  · unfold State.submit at hw ⊢
    split
    · exact ⟨by simpa [*] using hw, .inr rfl⟩
    · refine ⟨by simpa [*] using hw, ?_⟩
      cases s.store.queue <;> simp

theorem State.follows_submit {v : CommitUnit} (h : v.defines = false) : s.Follows (s.submit v) := by
  refine ⟨State.moves_submit fun d e => ?_, ?_⟩
  · subst e; cases h
  · simp [State.defineWaits_submit, h]

/-! ### The law across such moves -/

/-- What a region record means for the boundary list: whether it is enabled, and its bounds. -/
def RegionRecord.bounds (x : RegionRecord) : Bool × Option Extent := (x.enabled, x.extent)

/-- The boundary list depends on the bounds of regions 1 to 15 alone (R27). -/
theorem boundaryOf_congr {v w : Vector RegionRecord 16} (h : ∀ r : RegionIx, r ≠ 0 → v[r].enabled = w[r].enabled
    ∧ v[r].extent = w[r].extent) : boundaryOf v = boundaryOf w := by
  have listed (xs ys : List RegionRecord) (e : xs.map RegionRecord.bounds = ys.map RegionRecord.bounds) :
      xs.foldr RegionRecord.listStart [] = ys.foldr RegionRecord.listStart [] := by
    induction xs generalizing ys with
    | nil => cases ys with
      | nil => rfl
      | cons y ys => cases e
    | cons x xs ih => cases ys with
      | nil => cases e
      | cons y ys =>
        simp only [List.map_cons, List.cons.injEq, RegionRecord.bounds, Prod.mk.injEq] at e
        obtain ⟨⟨he, hx⟩, hl⟩ := e
        simp only [List.foldr_cons, RegionRecord.listStart, he, hx, ih ys hl]
  refine listed _ _ (List.ext_getElem (by simp) fun k hk _ => ?_)
  have hk : k < 15 := by simpa using hk
  have := h ⟨k + 1, by omega⟩ (by simp [Fin.ext_iff])
  simpa [RegionRecord.bounds, Nat.add_comm] using this

theorem RegionRecord.contains_congr {x y : RegionRecord} (he : x.enabled = y.enabled) (hx : x.extent = y.extent)
    (p : Nat) : x.contains p = y.contains p := by
  simp only [RegionRecord.contains, he, hx]

/-- The law of the bounds itself, where they and the boundary list are as they were (R27). -/
theorem State.BoundsLaw.congr (h : s.BoundsLaw) (hg : t.geometry = s.geometry) (hl : t.boundary = s.boundary)
    (hb : t.work.SameBounds s.work) : t.BoundsLaw := by
  obtain ⟨list, part, apart⟩ := h
  refine ⟨hl.trans (list.trans (boundaryOf_congr hb).symm), fun r hr he => ?_, fun q r p hq hr hn hc => ?_⟩
  · obtain ⟨se, sx⟩ := hb r hr
    rw [hg, sx]
    exact part r hr (se ▸ he)
  · rw [RegionRecord.contains_congr (hb q hq).1 (hb q hq).2] at hc
    rw [RegionRecord.contains_congr (hb r hr).1 (hb r hr).2]
    exact apart q r p hq hr hn hc

theorem Records.SameBounds.refl (p : Records) : p.SameBounds p := fun _ _ => ⟨rfl, rfl⟩

theorem Records.SameBounds.symm {p q : Records} (h : p.SameBounds q) : q.SameBounds p :=
  fun r hr => ⟨(h r hr).1.symm, (h r hr).2.symm⟩

theorem Records.SameBounds.trans {p q w : Records} (h : p.SameBounds q) (g : q.SameBounds w) : p.SameBounds w :=
  fun r hr => ⟨(h r hr).1.trans (g r hr).1, (h r hr).2.trans (g r hr).2⟩

/-- Fields that fit go on fitting while the bounds stand (R37). -/
theorem State.Fits.congr {r : RegionIx} {f : RegionFields} (h : s.Fits r f) (hg : t.geometry = s.geometry)
    (hb : t.work.SameBounds s.work) : t.Fits r f := by
  obtain ⟨e, he, hp, hc, apart⟩ := h
  refine ⟨e, he, hp, hg ▸ hc, fun q x hq hr hn hx => apart q x hq hr ?_ ?_⟩
  · exact (hb q hq).1 ▸ hn
  · exact (hb q hq).2 ▸ hx

theorem State.Moves.sameBounds (f : s.Moves t) : t.work.SameBounds s.work := fun r _ => f.bounds r

/-- A DEFINE-REGION in progress is as the law has it across a move. -/
theorem State.DefineLaw.moves (h : s.DefineLaw) (f : s.Moves t)
    (hw : t.defineWaits ≤ if s.define.isSome then 1 else 0) : t.DefineLaw := by
  obtain ⟨fits, -, units, draws⟩ := h
  refine ⟨fun d g hd hr hk => ?_, ?_, fun d hd => ?_, fun r g hd => draws r g (f.draws r g hd)⟩
  · exact (fits d g (f.define ▸ hd) hr hk).congr f.geometry f.sameBounds
  · rw [f.define]; exact hw
  · rw [f.define]; exact (f.units d hd).elim (units d) id

theorem State.WriteLaw.moves (h : s.WriteLaw) (f : s.Moves t) : t.WriteLaw := by
  intro image hw
  obtain ⟨hv, hq⟩ := f.writing image hw
  have law := h image hv
  cases hs : s.store.queue with
  | nil => simp [hs] at law
  | cons v vs =>
    obtain ⟨ws, ht⟩ : ∃ ws, t.store.queue = v :: ws := by
      simp only [hs, reduceCtorEq, false_or, List.head?_cons] at hq
      exact List.head?_eq_some_iff.mp hq
    simp only [hs] at law
    simp only [ht]
    cases v <;> simpa only [f.stored, (f.bounds _).1] using law

/-- The law stays across a move that leaves a DEFINE-REGION at most one thing to wait for. -/
theorem State.RegionLaw.moves (h : s.RegionLaw) (f : s.Moves t)
    (hw : t.defineWaits ≤ if s.define.isSome then 1 else 0) : t.RegionLaw := by
  obtain ⟨bounds, copies, define, write⟩ := h
  refine ⟨bounds.congr f.geometry f.boundary f.sameBounds, ?_, define.moves f hw, write.moves f⟩
  rw [f.stored]
  exact f.sameBounds.trans copies

theorem State.RegionLaw.follows (h : s.RegionLaw) (f : s.Follows t) : t.RegionLaw := by
  obtain ⟨-, -, ⟨-, waits, -⟩, -⟩ := id h
  exact h.moves f.toMoves (f.waits.trans waits)

/-! ### Rights -/

theorem RegionStatus.right_of_setRight_locked {x : RegionStatus} {j k : RightKind}
    (h : (x.setRight j .locked).right k = .opened) : x.right k = .opened := by
  cases j <;> cases k <;> first | exact h | cases h

theorem State.follows_lockRight (k : RightKind) (r : RegionIx) : s.Follows (s.lockRight k r) := by
  refine .of_rights (State.lockRight_frame k r) fun q j h => ?_
  rw [State.lockRight_regions] at h
  split at h
  · exact RegionStatus.right_of_setRight_locked h
  · exact h

theorem State.follows_lockBoth (r : RegionIx) : s.Follows (s.lockBoth r) :=
  (State.follows_lockRight .read r).trans (State.follows_lockRight .write r)

theorem State.foldl_follows {α : Type} {f : State → α → State} (h : ∀ (t : State) (a : α), t.Follows (f t a))
    (l : List α) (s : State) : s.Follows (l.foldl f s) :=
  foldl_relates State.Follows State.Follows.refl (fun _ _ _ => State.Follows.trans) f h l s

theorem State.follows_lockAll : s.Follows s.lockAll :=
  State.foldl_follows (fun _ r => State.follows_lockBoth r) _ s

theorem State.lockAll_regions (q : RegionIx) :
    s.lockAll.regions[q] = { s.regions[q] with read := .locked, write := .locked } := by
  have locked (xs : List RegionIx) (t : State) : (xs.foldl (fun u r => u.lockBoth r) t).regions[q] =
      if q ∈ xs then { t.regions[q] with read := .locked, write := .locked } else t.regions[q] := by
    induction xs generalizing t with
    | nil => simp
    | cons r xs ih =>
      rw [List.foldl_cons, ih, State.lockBoth_regions]
      by_cases hq : q = r <;> simp [hq]
  rw [State.lockAll, locked, if_pos (mem_allRegions q)]

/-- After every right was LOCKED none is OPEN (R32). -/
theorem State.lockAll_locked : s.lockAll.AllLocked := by
  intro r k h
  rw [State.lockAll_regions] at h
  cases k <;> cases h

/-- The volatile fields of a region are written, and no right opens. -/
theorem State.follows_setStatus {r : RegionIx} {x : RegionStatus}
    (h : ∀ k, x.right k = .opened → s.regions[r].right k = .opened) : s.Follows (s.setStatus r x) := by
  refine .of_rights rfl fun q k hr => ?_
  rw [State.setStatus_regions, getElem_set_fin] at hr
  split at hr
  · rename_i hq; exact hq ▸ h k hr
  · exact hr

theorem State.follows_setHold (r : RegionIx) (v : Bool) : s.Follows (s.setHold r v) :=
  State.follows_setStatus fun k h => by cases k <;> exact h

theorem State.follows_releaseHold (r : RegionIx) : s.Follows (s.releaseHold r) := by
  unfold State.releaseHold
  split
  · exact .refl s
  · exact State.follows_setHold r false

theorem State.follows_unloadTest (r : RegionIx) : s.Follows (s.unloadTest r) := .of_look (by simp [State.look])

theorem State.follows_lowerAdmitted (r : RegionIx) : s.Follows (s.lowerAdmitted r) := by
  have lowered : s.Follows (s.setStatus r { s.regions[r] with admitted := s.regions[r].admitted - 1 }) :=
    State.follows_setStatus fun k h => by cases k <;> exact h
  unfold State.lowerAdmitted
  dsimp only
  split
  · exact lowered.trans (State.follows_unloadTest r)
  · exact lowered

theorem State.follows_zeroAdmitted (r : RegionIx) : s.Follows (s.zeroAdmitted r) := by
  unfold State.zeroAdmitted
  split
  · exact .refl s
  · refine State.Follows.trans ?_ (State.follows_unloadTest r)
    exact State.follows_setStatus fun k h => by cases k <;> exact h

theorem State.follows_raiseAdmitted (x : Segment) : s.Follows (s.raiseAdmitted x) := by
  unfold State.raiseAdmitted
  split
  · exact State.follows_setStatus fun k h => by cases k <;> exact h
  · exact .refl s

/-- A right opens where the mode is not LOCKDOWN. -/
theorem State.follows_openRight (h : s.work.mode ≠ .lockdown) (k : RightKind) (r : RegionIx) :
    s.Follows (s.openRight k r) := by
  refine .of_parts (by simp) (fun q => by simp) (by simp [State.disablings]) fun hm => ?_
  rw [(s.openRight_rest k r).2.2.2.1] at hm
  exact absurd hm h

/-! ### Crypto-erases -/

/-- The crypto-erases under way change, with no more disablings among them. -/
theorem State.follows_erases {l : List EraseOperation} (h : l.countP EraseOperation.disables ≤ s.disablings) :
    s.Follows { s with erases := l } :=
  .of_parts rfl (fun _ => ⟨rfl, rfl⟩) h (.of_regions rfl rfl)

theorem State.follows_beginErase {p : Party} (h : p ≠ .disabling) (r : RegionIx) (scrub : Bool) :
    s.Follows (s.beginErase r p scrub) := by
  have held : s.Follows (((s.lockBoth r).setHold r true).holdHead r) :=
    ((State.follows_lockBoth r).trans (State.follows_setHold r true)).trans (.of_look (by simp [State.look]))
  refine held.trans (State.follows_erases ?_)
  simp [State.disablings, EraseOperation.disables, h]

theorem State.follows_dropErase (r : RegionIx) (p : Party) : s.Follows (s.dropErase r p) :=
  State.follows_erases (List.filter_sublist.countP_le)

theorem State.follows_setEraseStage {p : Party} {x : EraseStage} (h : p ≠ .disabling ∨ x = .committing)
    (r : RegionIx) : s.Follows (s.setEraseStage r p x) := by
  refine State.follows_erases ?_
  rw [List.countP_map]
  refine List.countP_mono_left fun e _ he => ?_
  simp only [Function.comp_apply] at he
  split at he
  · rename_i hp
    rcases h with h | h <;> simp [EraseOperation.disables, h, hp.2] at he
  · exact he

/-! ### Draws -/

theorem State.mem_draws_requestDraw {c d : Draw} :
    c ∈ (s.requestDraw d).random.queue ++ (s.requestDraw d).random.waiting ↔
      c ∈ s.random.queue ++ s.random.waiting ∨ c = d := by
  unfold State.requestDraw
  split <;> simp only [List.mem_append, List.mem_singleton] <;> tauto

theorem State.enablings_requestDraw (d : Draw) :
    (s.requestDraw d).enablings = s.enablings + if d.enables then 1 else 0 := by
  unfold State.requestDraw State.enablings
  split <;> simp only [List.countP_append, List.countP_singleton] <;> omega

theorem State.defineWaits_requestDraw (d : Draw) :
    (s.requestDraw d).defineWaits = s.defineWaits + if d.enables then 1 else 0 := by
  have same : (s.requestDraw d).disablings = s.disablings ∧ (s.requestDraw d).definitions = s.definitions := by
    simp [State.disablings, State.definitions, State.units]
  rw [State.defineWaits_eq, State.defineWaits_eq, State.enablings_requestDraw, same.1, same.2]
  omega

/-- A draw is requested, not one for a disabling (R48, R50). -/
theorem State.moves_requestDraw {d : Draw} (hd : ∀ (r : RegionIx) (g : Nat), d ≠ .key r g (.erase .disabling)) :
    s.Moves (s.requestDraw d) := by
  refine ⟨by simp, by simp, by simp, by simp, by simp, fun d h => .inl ?_, fun r g h => ?_, fun image h => ?_,
    .of_regions (by simp) (by simp)⟩
  · simpa [State.units] using h
  · exact (State.mem_draws_requestDraw.mp h).resolve_right (hd r g).symm
  · exact ⟨by simpa using h, .inr (by simp)⟩

/-- A draw that is not of key material for a DEFINE-REGION is requested (R48). -/
theorem State.follows_requestDraw {d : Draw} (he : d.enables = false)
    (hd : ∀ (r : RegionIx) (g : Nat), d ≠ .key r g (.erase .disabling)) : s.Follows (s.requestDraw d) :=
  ⟨State.moves_requestDraw hd, by rw [State.defineWaits_requestDraw, he]; exact le_refl _⟩

theorem State.follows_drawKey {use : DrawUse} (he : use ≠ .enabling) (hd : use ≠ .erase .disabling) (r : RegionIx) :
    s.Follows (s.drawKey r use) := by
  have taken : s.Follows (s.takeGeneration r) := .of_look (by simp [State.look])
  refine taken.trans (State.follows_requestDraw ?_ fun q g h => ?_)
  · cases use with
    | enabling => exact absurd rfl he
    | erase p => rfl
  · cases h; exact hd rfl

end Sys2Proof.Machine

end

section
/-! PROOFS. The shared operations of an event as moves that leave the region bounds as they are: destruction steps
(R50, R150), the response controller, the scrub engine and the media port, and the start-up sequence. -/

namespace Sys2Proof.Machine

variable {s t u : State}

theorem State.follows_keyComplete {p : Party} (h : p ≠ .disabling) (r : RegionIx) : s.Follows (s.keyComplete r p) := by
  have staged : s.Follows (s.setEraseStage r p .committing) := State.follows_setEraseStage (.inl h) r
  unfold State.keyComplete
  cases p with
  | response =>
    dsimp only
    exact .after (State.follows_submit rfl) (staged.trans (.of_look rfl))
  | disabling => exact absurd rfl h
  | revert =>
    dsimp only
    repeat' split
    · exact staged.trans (State.follows_submit rfl)
    · exact staged
    · exact staged

/-- A disabling hands over its unit: it is that of the DEFINE-REGION in progress (R40, R150). -/
theorem State.moves_keyComplete_disabling (r : RegionIx) : s.Moves (s.keyComplete r .disabling) := by
  have staged : s.Moves (s.setEraseStage r .disabling .committing) :=
    (State.follows_setEraseStage (.inr rfl) r).toMoves
  unfold State.keyComplete
  dsimp only
  split
  · rename_i d hd
    exact staged.trans (State.moves_submit fun e he => by cases he; exact hd)
  · exact staged

/-- Disablings of one region under way. -/
def State.disablingsOf (s : State) (r : RegionIx) : Nat :=
  s.erases.countP fun e => e.region == r && e.disables

theorem State.setEraseStage_erases (r : RegionIx) (p : Party) (x : EraseStage) : (s.setEraseStage r p x).erases
    = s.erases.map fun e => if e.region = r ∧ e.party = p then { e with stage := x } else e := rfl

/-- Once the stage of a region's disablings is COMMITTING they wait no longer. -/
theorem State.disablings_setEraseStage (r : RegionIx) :
    (s.setEraseStage r .disabling .committing).disablings + s.disablingsOf r = s.disablings := by
  simp only [State.disablings, State.disablingsOf, State.setEraseStage_erases]
  induction s.erases with
  | nil => rfl
  | cons e l ih =>
    simp only [List.map_cons, List.countP_cons]
    by_cases hr : e.region = r <;> by_cases hp : e.party = .disabling <;>
      simp [EraseOperation.disables, hr, hp] at ih ⊢ <;> omega

theorem State.disablingsOf_setEraseStage {p : Party} (h : p ≠ .disabling) (r q : RegionIx) (x : EraseStage) :
    (s.setEraseStage r p x).disablingsOf q = s.disablingsOf q := by
  simp only [State.disablingsOf, State.setEraseStage_erases, List.countP_map]
  refine List.countP_congr fun e _ => ?_
  simp only [Function.comp_apply]
  split
  · rename_i he; simp [EraseOperation.disables, he.2, h]
  · rfl

theorem State.keyComplete_disabling_waits (r : RegionIx) :
    (s.keyComplete r .disabling).defineWaits + s.disablingsOf r ≤ s.defineWaits + 1 := by
  have staged : (s.setEraseStage r .disabling .committing).defineWaits + s.disablingsOf r = s.defineWaits := by
    have same : (s.setEraseStage r .disabling .committing).enablings = s.enablings
      ∧ (s.setEraseStage r .disabling .committing).definitions = s.definitions := ⟨rfl, rfl⟩
    have := s.disablings_setEraseStage r
    simp only [State.defineWaits_eq]
    omega
  unfold State.keyComplete
  dsimp only
  split
  · rw [State.defineWaits_submit]
    simp only [CommitUnit.defines, if_true]
    omega
  · omega

/-- A destruction step of a response or a REVERT (R50). -/
theorem State.follows_destroyKey {p : Party} (h : p ≠ .disabling) (r : RegionIx) : s.Follows (s.destroyKey r p) := by
  unfold State.destroyKey
  dsimp only
  repeat' split
  · exact .after (State.follows_keyComplete h r) (.of_look (by simp [State.look]))
  · refine .after (State.follows_drawKey (by simp) (by simpa using h) r) ?_
    exact .after (State.follows_setEraseStage (.inl h) r) (.of_look (by simp [State.look]))
  · exact .after (State.follows_keyComplete h r) (.of_look (by simp [State.look]))

theorem State.disablingsOf_congr (h : t.erases = s.erases) (r : RegionIx) : t.disablingsOf r = s.disablingsOf r := by
  rw [State.disablingsOf, h, State.disablingsOf]

/-- A destruction step of a disabling (R40, R50): the key is gone, and it hands over its unit. -/
theorem State.destroyKey_disabling_eq (r : RegionIx) :
    ∃ t : State, s.Follows t ∧ t.erases = s.erases ∧ s.destroyKey r .disabling = t.keyComplete r .disabling := by
  unfold State.destroyKey
  dsimp only [drawsMaterial]
  split
  · refine ⟨_, ?_, ?_, rfl⟩
    · exact .of_look (by simp [State.look])
    · simp
  · refine ⟨_, ?_, ?_, rfl⟩
    · exact .of_look (by simp [State.look])
    · simp

theorem State.moves_destroyKey (r : RegionIx) (p : Party) : s.Moves (s.destroyKey r p) := by
  by_cases h : p = .disabling
  · subst h
    obtain ⟨t, f, -, e⟩ := s.destroyKey_disabling_eq r
    exact e ▸ f.toMoves.trans (t.moves_keyComplete_disabling r)
  · exact (State.follows_destroyKey h r).toMoves

theorem State.destroyKey_disabling_waits (r : RegionIx) :
    (s.destroyKey r .disabling).defineWaits + s.disablingsOf r ≤ s.defineWaits + 1 := by
  obtain ⟨t, f, he, e⟩ := s.destroyKey_disabling_eq r
  have := t.keyComplete_disabling_waits r
  rw [e, ← State.disablingsOf_congr he]
  exact this.trans (Nat.add_le_add_right f.waits 1)

theorem State.keyComplete_erases (r : RegionIx) (p : Party) :
    (s.keyComplete r p).erases = (s.setEraseStage r p .committing).erases := by
  unfold State.keyComplete
  dsimp only
  repeat' split
  all_goals simp

theorem State.drawKey_erases (r : RegionIx) (use : DrawUse) : (s.drawKey r use).erases = s.erases := by simp

/-- A destruction step moves the crypto-erase on, to await its draw or to hand over its unit (R50, R150). -/
theorem State.destroyKey_erases (r : RegionIx) (p : Party) :
    ∃ x, (s.destroyKey r p).erases = (s.setEraseStage r p x).erases := by
  unfold State.destroyKey
  dsimp only
  repeat' split
  · exact ⟨.committing, State.keyComplete_erases r p⟩
  · exact ⟨_, (State.drawKey_erases r _).trans rfl⟩
  · exact ⟨.committing, (State.keyComplete_erases r p).trans (by simp [State.setEraseStage_erases])⟩

theorem State.disablingsOf_destroyKey {p : Party} (h : p ≠ .disabling) (r q : RegionIx) :
    (s.destroyKey r p).disablingsOf q = s.disablingsOf q := by
  obtain ⟨x, e⟩ := s.destroyKey_erases r p
  rw [State.disablingsOf_congr e, State.disablingsOf_setEraseStage h]

/-- What destruction steps of a region add to what a DEFINE-REGION waits for, its disablings of that region taken
off. -/
theorem State.foldl_destroyKey_waits (r : RegionIx) (l : List Party) (s : State) :
    (l.foldl (fun t p => t.destroyKey r p) s).defineWaits ≤ s.defineWaits + l.count .disabling
    ∧ (.disabling ∈ l → (l.foldl (fun t p => t.destroyKey r p) s).defineWaits + s.disablingsOf r
      ≤ s.defineWaits + l.count .disabling) := by
  induction l generalizing s with
  | nil => simp
  | cons p l ih =>
    obtain ⟨all, some⟩ := ih (s.destroyKey r p)
    rw [List.foldl_cons]
    by_cases h : p = .disabling
    · subst h
      have := s.destroyKey_disabling_waits r
      rw [List.count_cons_self]
      exact ⟨by omega, fun _ => by omega⟩
    · have := (State.follows_destroyKey (s := s) h r).waits
      rw [State.disablingsOf_destroyKey h] at some
      rw [List.count_cons_of_ne h]
      exact ⟨by omega, fun hm => by have := some (by simpa [Ne.symm h] using hm); omega⟩

/-- The destruction steps that are due: a disabling among them trades its crypto-erase for its unit (R40, R150). -/
theorem State.follows_destroyIfDue (r : RegionIx) : s.Follows (s.destroyIfDue r) := by
  refine ⟨foldl_relates State.Moves State.Moves.refl (fun _ _ _ => State.Moves.trans) _
    (fun t p => t.moves_destroyKey r p) _ s, ?_⟩
  obtain ⟨all, some⟩ := State.foldl_destroyKey_waits r (s.destructionsDue r) s
  have counted : (s.destructionsDue r).count .disabling ≤ s.disablingsOf r := by
    unfold State.destructionsDue State.disablingsOf
    split
    · rw [List.count_eq_countP, List.countP_map, List.countP_filter]
      refine List.countP_mono_left fun e _ he => ?_
      simp only [Function.comp_apply, Bool.and_eq_true, beq_iff_eq] at he
      obtain ⟨hp, hr, hs⟩ := he
      simp [EraseOperation.disables, hp, hr, hs]
    · simp
  by_cases hm : .disabling ∈ s.destructionsDue r
  · have := some hm
    unfold State.destroyIfDue
    omega
  · rw [List.count_eq_zero_of_not_mem hm] at all
    exact all

theorem State.follows_destroyAllDue : s.Follows s.destroyAllDue :=
  State.foldl_follows (fun _ r => State.follows_destroyIfDue r) _ s

/-! ### The response controller -/

/-- A move that leaves every right LOCKED, whatever it makes of the mode. -/
theorem State.Follows.of_locked (hl : (t.geometry, t.stored, t.boundary, t.define, t.random, t.store.queue,
      t.store.deferred, t.store.writing) = (s.geometry, s.stored, s.boundary, s.define, s.random, s.store.queue,
      s.store.deferred, s.store.writing))
    (hb : t.work.regions = s.work.regions) (he : t.erases = s.erases) (h : t.AllLocked) : s.Follows t := by
  refine .of_parts hl (fun r => ?_) ?_ fun _ => .inr h
  · rw [hb]; exact ⟨rfl, rfl⟩
  · rw [State.disablings, he, State.disablings]

theorem State.relockKeepingMode_regions : s.relockKeepingMode.regions = s.lockAll.regions := by
  simp [State.relockKeepingMode]

theorem State.follows_relockKeepingMode : s.Follows s.relockKeepingMode :=
  .of_locked (by simp) (by simp) (by simp) (State.lockAll_locked.of_within (.of_regions s.relockKeepingMode_regions))

/-- A relock leaves every right LOCKED, whatever the mode was (R105, R138). -/
theorem State.follows_relock : s.Follows s.relock := by
  refine .of_locked (by simp) ?_ (by simp) ((State.lockAll_locked (s := s)).of_within (.of_regions ?_))
  · simp [State.relock, State.lockDown]
  · simp [State.relock, State.relockKeepingMode_regions]

theorem State.follows_relockIfDue : s.Follows s.relockIfDue := by
  unfold State.relockIfDue
  repeat' split
  · exact State.follows_relock
  · exact .refl s
  · exact .refl s

theorem State.follows_record : s.Follows s.record :=
  .after (State.follows_submit rfl) (.of_look (by simp [State.look]))

theorem State.follows_close : s.Follows s.close :=
  .after (State.follows_submit rfl) (.of_look (by simp [State.look]))

theorem State.follows_startResponse (e : PendingTrigger) : s.Follows (s.startResponse e) := by
  unfold State.startResponse
  dsimp only
  split
  · refine State.follows_record.after (State.follows_relockIfDue.after (.of_look (by simp [State.look])))
  · refine State.follows_close.after (State.follows_relockIfDue.after (.of_look (by simp [State.look])))

theorem State.follows_takeIfFree : s.Follows s.takeIfFree := by
  unfold State.takeIfFree
  repeat' split
  · exact State.follows_startResponse _
  · exact .refl s
  · exact .refl s

theorem State.follows_handOver (r : RegionIx) (scrub : Bool) : s.Follows (s.handOver r scrub) := by
  unfold State.handOver
  split
  · refine State.follows_erases ?_
    simp [State.disablings, EraseOperation.disables]
  · exact State.follows_beginErase (by simp) r scrub

theorem State.follows_escalate (r : RunningResponse) (l : List PendingTrigger) : s.Follows (s.escalate r l) :=
  State.follows_record.after (State.follows_relockIfDue.after (.of_look rfl))

theorem State.follows_setRunning (r : Option RunningResponse) : s.Follows (s.setRunning r) := .of_look rfl

theorem State.follows_markErased (r : RegionIx) : s.Follows (s.markErased r) := .of_look rfl

theorem State.follows_boundaryStep (n : Nat) (s : State) : s.Follows (s.boundaryStep n) := by
  induction n generalizing s with
  | zero => exact .refl s
  | succ n ih =>
    unfold State.boundaryStep
    split
    · exact .refl s
    · dsimp only
      split
      · split
        · exact State.follows_close
        · split
          · exact (State.follows_handOver _ _).after (State.follows_setRunning _)
          · exact (ih _).after ((State.follows_markErased _).after (State.follows_setRunning _))
      · exact State.follows_escalate _ _

theorem State.follows_stepBoundary : s.Follows s.stepBoundary := State.follows_boundaryStep 17 s

theorem State.follows_passOver (r : RegionIx) : s.Follows (s.passOver r) :=
  State.follows_stepBoundary.after ((State.follows_markErased r).after (State.follows_dropErase r .response))

theorem State.follows_resume (p : InProgress) : s.Follows (s.resume p) := by
  unfold State.resume
  dsimp only
  split
  · exact State.follows_relockKeepingMode.after (.of_look rfl)
  · exact .of_look rfl

theorem State.follows_releaseController : s.Follows s.releaseController := by
  have released : s.Follows { s with response := { s.response with released := true } } := .of_look rfl
  unfold State.releaseController
  dsimp only
  split
  · exact released
  · rename_i p _
    exact State.follows_stepBoundary.after ((released.trans (State.follows_resume p)).trans (.of_look rfl))

theorem State.follows_submitCountReset : s.Follows s.submitCountReset := by
  unfold State.submitCountReset
  split
  · exact .after (State.follows_submit rfl) (.of_look rfl)
  · exact .refl s

theorem State.follows_resubmit {v : CommitUnit} (h : v.defines = false) : s.Follows (s.resubmit v) := by
  unfold State.resubmit
  split
  · exact .after (State.follows_submit h) State.follows_submitCountReset
  · exact State.follows_submitCountReset

theorem State.follows_administratorRefund : s.Follows s.administratorRefund := by
  unfold State.administratorRefund
  dsimp only
  split
  · exact .of_look rfl
  · exact .after (State.follows_submit rfl) (.of_look rfl)

/-! ### The scrub engine and the media port -/

theorem State.follows_alert (kind : AlertKind) (severity : Severity) (source : Option SourceIx)
    (mask : Option (BitVec 16)) (value : Option Nat) (repeats : Nat) :
    s.Follows (s.alert kind severity source mask value repeats) := .of_look rfl

theorem State.follows_loadKey (r : RegionIx) : s.Follows (s.loadKey r) := .of_look (by simp [State.look])

theorem State.follows_tryFinish : s.Follows s.tryFinish := by
  unfold State.tryFinish
  repeat' split
  · exact .after (State.follows_submit rfl) (.of_look rfl)
  · exact .refl s
  · exact .refl s

theorem State.follows_tryCheckpoint : s.Follows s.tryCheckpoint := by
  unfold State.tryCheckpoint
  repeat' split
  · exact .after (State.follows_submit rfl) (.of_look rfl)
  · exact .refl s
  · exact .refl s

theorem State.follows_scrubFault (r : RegionIx) (n : Nat) : s.Follows (s.scrubFault r n) :=
  (State.follows_alert _ _ _ _ _ _).after (State.follows_setRegion rfl rfl)

theorem State.follows_startWalk : s.Follows s.startWalk := by
  unfold State.startWalk
  split
  · exact .of_look rfl
  · rename_i h _
    split
    · exact .of_look rfl
    · have loaded : s.Follows ((s.setRegion h { s.work.regions[h] with condition := .scrubbing }).loadKey h) :=
        (State.follows_loadKey h).after (State.follows_setRegion rfl rfl)
      dsimp only
      split
      · exact loaded.trans (.of_look rfl)
      · exact State.follows_tryFinish.after ((State.follows_scrubFault h 0).after (loaded.trans (.of_look rfl)))

theorem State.follows_startWalkIfDue : s.Follows s.startWalkIfDue := by
  unfold State.startWalkIfDue
  split
  · exact State.follows_startWalk
  · exact .refl s

theorem State.follows_placeOffer : s.Follows s.placeOffer := .of_look (by simp [State.look])

theorem State.follows_serveMedia : s.Follows s.serveMedia :=
  State.follows_tryFinish.after (.after (.of_look (by simp [State.look])) State.follows_placeOffer)

theorem State.follows_moveCursor (p : Nat) : s.Follows (s.moveCursor p) := by
  unfold State.moveCursor
  split
  · exact .refl s
  · refine State.follows_tryCheckpoint.after (.of_look ?_)
    unfold State.setCursor
    split <;> rfl

theorem State.follows_chunkEnd (c : Chunk) (status : Status) : s.Follows (s.chunkEnd c status) := by
  unfold State.chunkEnd
  dsimp only
  split
  · exact .of_look rfl
  · refine State.follows_tryFinish.after ((State.follows_moveCursor _).after ?_)
    split
    · exact .of_look rfl
    · exact (State.follows_scrubFault _ _).after (.of_look rfl)

theorem State.follows_completeIfDone (x : Transfer) : s.Follows (s.completeIfDone x) := .of_look (by simp [State.look])

theorem State.follows_takeSegment (tag index : Nat) (status : Status) (held : List Block) :
    s.Follows (s.takeSegment tag index status held) := by
  unfold State.takeSegment
  split
  · exact .refl s
  · split
    · exact .refl s
    · rename_i x _ _ g _
      have done : s.Follows (State.completeIfDone (x.segmentDone index g status) (if x.kind = .read then
          s.send (.readData tag (g.first - x.start) (segmentData g status held)) else s)) := by
        refine (State.follows_completeIfDone _).after ?_
        split
        · exact .of_look rfl
        · exact .refl s
      dsimp only
      split
      · exact (State.follows_lowerAdmitted _).after done
      · exact done

theorem State.follows_release (i : SlotIx) (x : SlotRecord) (status : Status) : s.Follows (s.release i x status) := by
  unfold State.release
  dsimp only
  split
  · exact (State.follows_takeSegment _ _ _ _).after (.of_look rfl)
  · exact (State.follows_chunkEnd _ _).after (.of_look rfl)

theorem State.follows_expire (i : SlotIx) : s.Follows (s.expire i) := by
  unfold State.expire
  split
  · exact .refl s
  · exact (State.follows_release _ _ _).after (.of_look rfl)

/-! ### The start-up sequence -/

/-- Step 7: outside LOCKDOWN alone a right opens (R31). -/
theorem State.follows_powerOnRights (r : RegionIx) : s.Follows (s.powerOnRights r) := by
  have locked : s.Follows (s.lockBoth r) := State.follows_lockBoth r
  unfold State.powerOnRights
  dsimp only
  split
  · rename_i h
    have opened {t : State} (f : s.Follows t) (hm : t.work.mode = s.work.mode) (k : RightKind) :
        s.Follows (t.openRight k r) := f.trans (State.follows_openRight (hm ▸ h.1) k r)
    repeat' split
    · exact opened (opened locked (by simp) .read) (by simp) .write
    · exact opened locked (by simp) .write
    · exact opened locked (by simp) .read
    · exact locked
  · exact locked

theorem State.follows_resumeScrub : s.Follows s.resumeScrub := by
  unfold State.resumeScrub
  split
  · exact .refl s
  · exact State.follows_startWalk.after (.of_look (by simp [State.look]))

theorem State.follows_lastSteps : s.Follows s.lastSteps := by
  refine .after (.of_look (s := s.setPowerOnRights.showAtPowerOn.startBackoffs.resumeScrub) ?_)
    (State.follows_resumeScrub.after (.after (.of_look (s := s.setPowerOnRights) ?_)
      (State.foldl_follows (fun _ r => State.follows_powerOnRights r) _ s)))
  · simp [State.lastSteps, State.look]
  · simp [State.look]

theorem State.follows_progress : s.Follows s.progress := by
  unfold State.progress
  split
  · exact State.follows_lastSteps
  · exact .refl s

/-- The end of an event, up to what the gate makes of the commit queue's head. -/
def State.settleBlocks (s : State) : State := s.takeIfFree.destroyAllDue.progress.startWalkIfDue.serveMedia

theorem State.settle_eq (s : State) : s.settle = s.settleBlocks.serveStore := rfl

theorem State.follows_settleBlocks : s.Follows s.settleBlocks :=
  State.follows_serveMedia.after (State.follows_startWalkIfDue.after (State.follows_progress.after
    (State.follows_destroyAllDue.after State.follows_takeIfFree)))

end Sys2Proof.Machine

end

section
/-! PROOFS. The secure store and its requesters (R165 to R169): what a unit's write makes of the bounds, and how a
DEFINE-REGION (R38 to R40) and a REVERT (R163) end. -/

namespace Sys2Proof.Machine

variable {s t u : State}

/-! ### What a unit's write makes of the bounds (R165) -/

theorem Records.sameBounds_of_regions {p q : Records} (h : p.regions = q.regions) : p.SameBounds q := by
  intro r _; rw [h]; exact ⟨rfl, rfl⟩

/-- A region record is written with the bounds it has. -/
theorem Records.sameBounds_set {p : Records} {r : RegionIx} {x : RegionRecord} (hr : r ≠ 0 → x.enabled
    = p.regions[r].enabled ∧ x.extent = p.regions[r].extent) {q : Records} (h : q.regions = p.regions.set r x) :
    q.SameBounds p := by
  intro k hk
  rw [h, getElem_set_fin]
  split
  · rename_i e; subst e; exact hr hk
  · exact ⟨rfl, rfl⟩

/-- Only a region-definition and a REVERT unit write bounds other than the stored ones. -/
theorem State.image_sameBounds (h : s.work.SameBounds s.stored) {v : CommitUnit} (hd : v.defines = false)
    (hv : ∀ id scrub, v ≠ .revert id scrub) : (s.image v).SameBounds s.stored := by
  have same {p : Records} (e : p.regions = s.stored.regions) : p.SameBounds s.stored := Records.sameBounds_of_regions e
  cases v with
  | regionDefinition d => cases hd
  | revert id scrub => exact absurd rfl (hv id scrub)
  | ratchet id mask rs ds =>
    intro r hr
    simp only [State.image, Fin.getElem_fin, getElem_tabMapIx]
    split
    · rename_i q hq
      obtain rfl : q = r := by
        have := List.find?_some hq
        simp only [Bool.and_eq_true, beq_iff_eq] at this
        exact Fin.ext this.1
      exact h q hr
    · exact ⟨rfl, rfl⟩
  | keyDestruction r =>
    simp only [State.image]
    split
    · refine Records.sameBounds_set (r := r) ?_ rfl
      exact h r
    · exact .refl _
  | finish =>
    simp only [State.image]
    split
    · rename_i r _
      refine Records.sameBounds_set (r := r) ?_ rfl
      exact h r
    · exact .refl _
  | responseBegin | responseEnd =>
    refine same ?_
    simp only [State.image]
    split <;> rfl
  | _ => exact same rfl

theorem State.image_definition_regions (d : DefineRequest) :
    (s.image (.regionDefinition d)).regions = s.stored.regions.set d.region (s.definedRegion d) := by
  simp only [State.image]
  split <;> rfl

/-- A REVERT's unit leaves no region 1 to 15 enabled (R163). -/
theorem State.revertedRecords_disabled (scrub : Bool) {r : RegionIx} (hr : r ≠ 0) :
    (s.revertedRecords scrub).regions[r].enabled = false := by
  have cleared : ∀ q : RegionIx, q ≠ 0 → factoryRegions[q].enabled = false := by decide
  have listed : ∀ q : RegionIx, q ≠ 0 →
      (factoryRegions.set 0 { factoryRegion true with condition := .scrubQueued })[q].enabled = false := by decide
  cases scrub with
  | false => exact cleared r hr
  | true => exact listed r hr

/-- The write of the queue's head, as the law has it. -/
theorem State.writeLaw_startWrite (h : s.work.SameBounds s.stored) {v : CommitUnit} {rest : List CommitUnit}
    (hq : s.store.queue = v :: rest) : (s.startWrite v).WriteLaw := by
  intro image hw
  obtain rfl : s.image v = image := Option.some.inj hw
  simp only [State.startWrite, hq]
  cases v with
  | regionDefinition d =>
    intro r _
    rw [State.image_definition_regions, getElem_set_fin]
    split
    · rename_i e
      subst e
      unfold State.definedRegion
      cases d.kind <;> exact ⟨rfl, rfl⟩
    · exact ⟨rfl, rfl⟩
  | revert id scrub => exact fun r hr => State.revertedRecords_disabled scrub hr
  | _ => exact s.image_sameBounds h rfl (fun _ _ => by simp)

/-- The law stays where the head's write begins (R165, R167). -/
theorem State.RegionLaw.startWrite (h : s.RegionLaw) {v : CommitUnit} {rest : List CommitUnit}
    (hq : s.store.queue = v :: rest) : (s.startWrite v).RegionLaw := by
  obtain ⟨bounds, copies, define, -⟩ := h
  exact ⟨bounds, copies, define, State.writeLaw_startWrite copies hq⟩

/-- A move under which the law of the bounds stays, and that opens no right in LOCKDOWN. -/
structure State.Obeys (s t : State) : Prop where
  law : s.RegionLaw → t.RegionLaw
  seals : s.Seals t

theorem State.Follows.obeys (f : s.Follows t) : s.Obeys t := ⟨fun h => h.follows f, f.seals⟩

theorem State.Obeys.refl (s : State) : s.Obeys s := ⟨id, .refl s⟩

theorem State.Obeys.trans (f : s.Obeys t) (g : t.Obeys u) : s.Obeys u :=
  ⟨fun h => g.law (f.law h), f.seals.trans g.seals⟩

/-- The last of two moves named first, so that it says where the first one ends. -/
theorem State.Obeys.after (g : t.Obeys u) (f : s.Obeys t) : s.Obeys u := f.trans g

theorem State.obeys_startWrite {v : CommitUnit} {rest : List CommitUnit} (hq : s.store.queue = v :: rest) :
    s.Obeys (s.startWrite v) := ⟨fun h => h.startWrite hq, .of_regions rfl rfl⟩

theorem State.obeys_serveStore : s.Obeys s.serveStore := by
  have counted : s.Follows { s with holdup := { s.holdup with lowCount := 0 } } := .of_look rfl
  unfold State.serveStore
  split
  · rename_i v rest hq _
    split
    · dsimp only
      split
      · exact counted.obeys.trans (State.obeys_startWrite hq)
      · exact State.Follows.obeys (.of_look rfl)
    · exact .refl s
  · exact .refl s

/-- The end of an event (R102, R136, R150, R155, R169). -/
theorem State.obeys_settle : s.Obeys s.settle := State.obeys_serveStore.after State.follows_settleBlocks.obeys

theorem State.Follows.settle (f : s.Follows t) : s.Obeys t.settle := State.obeys_settle.after f.obeys

theorem State.obeys_submitNow {v : CommitUnit} (hv : v.defines = false) : s.Obeys (s.submitNow v) :=
  State.obeys_serveStore.after (State.follows_submit hv).obeys

/-! ### Time and tamper lines -/

theorem State.follows_askCharge : s.Follows s.askCharge := by
  unfold State.askCharge
  repeat' split
  · exact .refl s
  · exact .after (State.follows_submit rfl) (.of_look rfl)
  · exact .refl s

theorem State.follows_chargeP : s.Follows s.chargeP := .of_look (by
  unfold State.chargeP; dsimp only; split <;> simp [State.look])

theorem State.follows_chargeNp : s.Follows s.chargeNp := .of_look (by
  unfold State.chargeNp; dsimp only; split <;> simp [State.look])

theorem State.follows_takeQMark : s.Follows s.takeQMark := by
  unfold State.takeQMark
  dsimp only
  split
  · exact State.follows_askCharge.after (State.follows_chargeP.after (.of_look rfl))
  · exact State.follows_askCharge.after (.of_look rfl)

theorem State.follows_countMinute : s.Follows s.countMinute := by
  unfold State.countMinute
  dsimp only
  split
  · exact State.follows_takeQMark.after (.of_look rfl)
  · exact .of_look rfl

theorem State.follows_countSecond : s.Follows s.countSecond := by
  unfold State.countSecond
  split
  · exact State.follows_countMinute
  · exact .of_look rfl

theorem State.follows_expireSlots (l : List SlotIx) : s.Follows (s.expireSlots l) :=
  State.foldl_follows (fun _ i => State.follows_serveMedia.after
    (State.follows_startWalkIfDue.after (State.follows_expire i))) l s

theorem State.follows_second : s.Follows s.second := by
  have expired : s.Follows (s.tickBackoffs.tickSlots.expireSlots s.expiring) :=
    (State.follows_expireSlots _).after (.of_look rfl)
  exact State.follows_countSecond.after (expired.trans (.of_look rfl))

theorem State.follows_timeFault (v : Nat) : s.Follows (s.timeFault v) := .of_look (by simp [State.look])

theorem State.follows_seeSlow : s.Follows s.seeSlow := .of_look (by
  unfold State.seeSlow; repeat' split
  all_goals rfl)

theorem State.follows_seeNeverStarted : s.Follows s.seeNeverStarted := by
  unfold State.seeNeverStarted
  repeat' split
  · exact State.follows_timeFault 1
  · exact .refl s
  · exact .of_look rfl
  · exact .refl s

theorem State.follows_seeStopped : s.Follows s.seeStopped := by
  unfold State.seeStopped
  split
  · exact (State.follows_timeFault 2).after (State.follows_second.after (.of_look rfl))
  · exact .refl s

theorem State.follows_groupEvent (g : Group) (lines : List LineIx) (b : Bool) : s.Follows (s.groupEvent g lines b) := by
  have latched := State.foldl_follows (fun t n => .of_look (t := t.latch n) rfl) lines s
  exact latched.trans (.of_look (by simp [State.groupEvent, State.look]))

theorem State.follows_eventIfDue (g : Group) : s.Follows (s.eventIfDue g) := by
  unfold State.eventIfDue
  split
  · exact State.follows_groupEvent _ _ _
  · exact .refl s

theorem State.follows_setArmed (g : Group) (v : Bool) : s.Follows (s.setArmed g v) := .of_look (by simp [State.look])

theorem State.follows_rearmIfDue (g : Group) : s.Follows (s.rearmIfDue g) := by
  unfold State.rearmIfDue
  split
  · exact State.follows_setArmed g true
  · exact .refl s

theorem State.follows_sample (levels : BitVec 4) : s.Follows (s.sample levels) := by
  refine (State.foldl_follows (fun t g => ?_) _ _).after (.of_look rfl)
  unfold State.evaluate
  split
  · exact State.follows_eventIfDue g
  · exact State.follows_rearmIfDue g

theorem State.follows_firstSample (levels : BitVec 4) : s.Follows (s.firstSample levels) := by
  refine (State.foldl_follows (fun t g => ?_) _ _).after (.of_look rfl)
  unfold State.findOpen
  dsimp only
  repeat' split
  · exact State.follows_groupEvent _ _ _
  · exact State.follows_setArmed g true
  · exact State.follows_setArmed g false

theorem State.follows_stepFive (levels : BitVec 4) : s.Follows (s.stepFive levels) := by
  unfold State.stepFive
  dsimp only
  exact State.follows_releaseController.after
    ((State.follows_firstSample levels).trans (.of_look (by simp [State.look])))

/-! ### Credentials, derivations and draws -/

theorem State.follows_reply (id : Nat) (k : Byte) (c : ResultCode) (b : List Byte) : s.Follows (s.reply id k c b) :=
  .of_look (by simp [State.look])

theorem State.follows_presentFails (p : PresentRequest) (a : Nat) : s.Follows (s.presentFails p a) :=
  .of_look (by simp [State.look])

theorem State.follows_derivationEnds : s.Follows s.derivationEnds := by
  unfold State.derivationEnds
  dsimp only
  repeat' split
  · exact .refl s
  · exact .after (State.follows_submit rfl) (.of_look rfl)
  · exact (State.follows_presentFails _ _).after (.of_look rfl)
  · exact (State.follows_presentFails _ _).after (.of_look rfl)
  · exact .after (State.follows_submit rfl) (.of_look rfl)

/-- Draws are dropped or taken up. -/
theorem State.follows_draws {x : RandomSource}
    (h : (x.queue ++ x.waiting).countP Draw.enables ≤ s.enablings)
    (hd : ∀ d, d ∈ x.queue ++ x.waiting → d ∈ s.random.queue ++ s.random.waiting) :
    s.Follows { s with random := x } := by
  refine ⟨⟨rfl, rfl, rfl, rfl, fun _ => ⟨rfl, rfl⟩, fun _ h => .inl h, fun r g => hd _, fun _ h => ⟨h, .inr rfl⟩,
    .of_regions rfl rfl⟩, ?_⟩
  rw [State.defineWaits_eq, State.defineWaits_eq]
  exact Nat.add_le_add_right (Nat.add_le_add_right h _) _

theorem State.follows_dropWaitingSalts : s.Follows s.dropWaitingSalts := by
  have sub : (s.random.queue ++ s.random.waiting.filter Draw.isKey).Sublist (s.random.queue ++ s.random.waiting) :=
    (List.Sublist.refl _).append List.filter_sublist
  exact State.follows_draws sub.countP_le fun d h => sub.subset h

/-- A link reset, up to the end of its event. -/
theorem State.follows_linkReset_blocks : s.Follows
    (allRegions.foldl State.zeroAdmitted s.emptyPort.abandonChunks).resetChannel.stopDerivation.dropWaitingSalts := by
  have zeroed : s.Follows (allRegions.foldl State.zeroAdmitted s.emptyPort.abandonChunks) :=
    (State.foldl_follows (fun t r => State.follows_zeroAdmitted r) _ _).after (.of_look (by simp [State.look]))
  exact State.follows_dropWaitingSalts.after (zeroed.trans (.of_look (by simp [State.look])))

/-! ### The end of a draw (R48, R49) -/

theorem State.follows_requestWaiting (key : Bool) : s.Follows (s.requestWaiting key) := by
  unfold State.requestWaiting
  split
  · rename_i d hd
    have perm : ((s.random.queue ++ [d]) ++ s.random.waiting.erase d).Perm (s.random.queue ++ s.random.waiting) := by
      rw [List.append_assoc]
      exact List.Perm.append_left _ (List.perm_cons_erase (List.mem_of_find?_eq_some hd)).symm
    exact State.follows_draws (perm.countP_eq _).le fun c hc => perm.subset hc
  · exact .refl s

theorem State.follows_wrapMaterial (r : RegionIx) (g : Nat) (bits : BitVec 512) :
    s.Follows (s.wrapMaterial r g bits) := .of_look (by
  unfold State.wrapMaterial; split <;> simp [State.look])

/-- A draw's end hands its material on; where the law stands no disabling awaits one (R40, R48, R50). -/
theorem State.follows_endDraw (hd : ∀ (r : RegionIx) (g : Nat),
    .key r g (.erase .disabling) ∉ s.random.queue ++ s.random.waiting) (bits : BitVec 512) :
    s.Follows (s.endDraw bits) := by
  unfold State.endDraw
  split
  · exact .refl s
  · rename_i d rest hq
    have sub : (rest ++ s.random.waiting).Sublist (s.random.queue ++ s.random.waiting) := by
      rw [hq]; exact (List.sublist_cons_self d rest).append (.refl _)
    have taken : s.Follows { s with random := { s.random with queue := rest } } :=
      State.follows_draws sub.countP_le fun c hc => sub.subset hc
    have next := taken.trans (State.follows_requestWaiting d.isKey)
    dsimp only
    split
    · rename_i r g use
      unfold State.takeMaterial
      split
      · split
        · rename_i e he
          have wrapped := next.trans (State.follows_wrapMaterial r g bits)
          refine ⟨wrapped.toMoves.trans (State.moves_submit fun c hc => ?_), ?_⟩
          · cases hc; exact (wrapped.define.trans (next.define.symm.trans he))
          · have popped : State.defineWaits { s with random := { s.random with queue := rest } } + 1
                = s.defineWaits := by
              have one : s.enablings = (rest ++ s.random.waiting).countP Draw.enables + 1 := by
                rw [State.enablings, hq, List.cons_append, List.countP_cons_of_pos rfl]
              simp only [State.defineWaits_eq, one]
              simp only [State.enablings, State.disablings, State.definitions, State.units]
              omega
            rw [State.defineWaits_submit, ← popped]
            exact Nat.add_le_add_right
              ((State.follows_requestWaiting _).trans (State.follows_wrapMaterial r g bits)).waits 1
        · exact next
      · rename_i p
        split
        · refine (State.follows_keyComplete ?_ r).after (next.trans (State.follows_wrapMaterial r g bits))
          rintro rfl
          exact hd r g (by simp [hq])
        · exact next
    · refine next.trans ?_
      unfold State.saltArrives
      split
      · exact .of_look rfl
      · exact .refl _

theorem State.wrapMaterial_mode (r : RegionIx) (g : Nat) (bits : BitVec 512) :
    (s.wrapMaterial r g bits).work.mode = s.work.mode := by
  unfold State.wrapMaterial; split <;> rfl

theorem State.takeMaterial_mode (r : RegionIx) (g : Nat) (use : DrawUse) (bits : BitVec 512) :
    (s.takeMaterial r g use bits).work.mode = s.work.mode := by
  unfold State.takeMaterial
  repeat' split
  all_goals simp [State.wrapMaterial_mode]

theorem State.endDraw_rights (bits : BitVec 512) :
    (s.endDraw bits).work.mode = s.work.mode ∧ (s.endDraw bits).regions = s.regions := by
  unfold State.endDraw
  split
  · exact ⟨rfl, rfl⟩
  · dsimp only
    split
    · simp [State.takeMaterial_mode]
    · unfold State.saltArrives
      split <;> simp

theorem State.obeys_endDraw (bits : BitVec 512) : s.Obeys (s.endDraw bits) := by
  refine ⟨fun h => ?_, .of_regions (s.endDraw_rights bits).1 (s.endDraw_rights bits).2⟩
  obtain ⟨-, -, ⟨-, -, -, draws⟩, -⟩ := id h
  exact h.follows (State.follows_endDraw draws bits)

/-! ### Units that wait inside a requester (R166) -/

/-- The head leaves the commit queue. -/
theorem State.follows_popHead : s.Follows s.popHead := by
  have sub : s.popHead.units.Sublist s.units := (List.drop_sublist 1 _).append (.refl _)
  refine ⟨⟨rfl, rfl, rfl, rfl, fun _ => ⟨rfl, rfl⟩, fun d h => .inl (sub.subset h), fun _ _ h => h,
    fun image h => (nomatch h), .of_regions rfl rfl⟩, ?_⟩
  rw [State.defineWaits_eq, State.defineWaits_eq]
  exact Nat.add_le_add_left sub.countP_le _

theorem State.follows_dropDeferred (v : CommitUnit) : s.Follows (s.dropDeferred v) := by
  have sub : (s.dropDeferred v).units.Sublist s.units := (List.Sublist.refl _).append List.erase_sublist
  refine ⟨⟨rfl, rfl, rfl, rfl, fun _ => ⟨rfl, rfl⟩, fun d h => .inl (sub.subset h), fun _ _ h => h,
    fun image h => ⟨h, .inr rfl⟩, .of_regions rfl rfl⟩, ?_⟩
  rw [State.defineWaits_eq, State.defineWaits_eq]
  exact Nat.add_le_add_left sub.countP_le _

theorem State.dropDeferred_waits {v : CommitUnit} (h : v ∈ s.store.deferred) :
    (s.dropDeferred v).defineWaits + (if v.defines then 1 else 0) = s.defineWaits := by
  have perm : (v :: (s.dropDeferred v).units).Perm s.units :=
    List.perm_middle.symm.trans (List.Perm.append_left _ (List.perm_cons_erase h).symm)
  have := perm.countP_eq CommitUnit.defines
  rw [List.countP_cons] at this
  rw [State.defineWaits_eq, State.defineWaits_eq, State.definitions, State.definitions, ← this]
  exact Nat.add_assoc _ _ _

theorem State.obeys_submitDeferredUpTo (q : Requester) (n : Nat) (s : State) :
    s.Obeys (s.submitDeferredUpTo q n) := by
  induction n generalizing s with
  | zero => exact .refl s
  | succ n ih =>
    unfold State.submitDeferredUpTo
    split
    · exact .refl s
    · split
      · exact .refl s
      · rename_i v hv
        have hm : v ∈ s.store.deferred := List.mem_of_find?_eq_some hv
        dsimp only
        split
        · exact (ih _).after ((State.follows_reply _ _ _ _).after (State.follows_dropDeferred v)).obeys
        · refine ⟨fun h => ?_, .of_regions (by simp [State.dropDeferred]) (by simp [State.dropDeferred])⟩
          obtain ⟨-, -, ⟨-, -, units, -⟩, -⟩ := id h
          refine h.follows ⟨(State.follows_dropDeferred v).toMoves.trans (State.moves_submit fun d hd => ?_), ?_⟩
          · exact units d (List.mem_append_right _ (hd ▸ hm))
          · rw [State.defineWaits_submit, State.dropDeferred_waits hm]

theorem State.obeys_submitDeferred (q : Requester) : s.Obeys (s.submitDeferred q) :=
  State.obeys_submitDeferredUpTo q _ s

/-! ### Requesters answered done (R167) -/

theorem State.follows_chargeDone (p : PresentRequest) (secret : List Byte) : s.Follows (s.chargeDone p secret) := by
  have set : s.Follows (s.setCredential p.credential s.stored.credentials[p.credential]) := .of_look rfl
  unfold State.chargeDone
  dsimp only
  repeat' split
  · exact set.trans (.of_look rfl)
  · exact set.trans (State.follows_presentFails _ _)
  · exact set.trans (State.follows_presentFails _ _)

theorem State.follows_beginRevert (id : Nat) (scrub : Bool) : s.Follows (s.beginRevert id scrub) := by
  have begun : s.Follows { s.lockAll.clearFlags with reverting := true, revertRequest := some (id, scrub) } :=
    State.follows_lockAll.trans (.of_look (by simp [State.look]))
  refine begun.trans (State.foldl_follows (fun t r => ?_) _ _)
  split
  · exact State.follows_beginErase (by simp) r _
  · exact .refl t

theorem State.follows_revertChargeDone (id : Nat) (scrub : Bool) (code : List Byte) :
    s.Follows (s.revertChargeDone id scrub code) := by
  have set : s.Follows { s with work := { s.work with revertCounter := s.stored.revertCounter } } := .of_look rfl
  unfold State.revertChargeDone
  dsimp only
  repeat' split
  · exact set.trans (State.follows_beginRevert id scrub)
  · exact set.trans (.of_look (by simp [State.look]))
  · exact set

/-- Rights open where the mode is not LOCKDOWN. -/
theorem State.follows_openNamed_fold (p : PresentRequest) (k : RightKind) (l : List RegionIx) (s : State)
    (h : s.work.mode ≠ .lockdown) : s.Follows (l.foldl (State.openNamed p k) s)
      ∧ (l.foldl (State.openNamed p k) s).work.mode ≠ .lockdown := by
  induction l generalizing s with
  | nil => exact ⟨.refl s, h⟩
  | cons r l ih =>
    have opened : s.Follows (State.openNamed p k s r) := by
      unfold State.openNamed
      split
      · exact State.follows_openRight h k r
      · exact .refl s
    obtain ⟨f, hm⟩ := ih (State.openNamed p k s r) (by simpa using h)
    exact ⟨opened.trans f, hm⟩

theorem State.follows_openRequest (h : s.work.mode ≠ .lockdown) (p : PresentRequest) :
    s.Follows (s.openRequest p) := by
  obtain ⟨read, hm⟩ := State.follows_openNamed_fold p .read allRegions s h
  exact read.trans (State.follows_openNamed_fold p .write allRegions _ hm).1

/-- The opening of a matching PRESENT: in LOCKDOWN it is that of credential 0 alone, which has ended it (R86). -/
theorem State.follows_opening {p : PresentRequest} (h : p.credential = 0 → s.work.mode ≠ .lockdown) :
    s.Follows (s.opening p) := by
  unfold State.opening
  split
  · exact State.follows_reply _ _ _ _
  · rename_i hm
    have running : s.work.mode ≠ .lockdown := fun e => hm ⟨e, fun hc => h hc e⟩
    have presented : s.Follows (s.setCredStatus p.credential { s.credentials[p.credential] with presented := true }) :=
      .of_look rfl
    have opened := presented.trans (State.follows_openRequest (by exact running) p)
    dsimp only
    split
    · exact (State.follows_reply _ _ _ _).after (opened.trans (.of_look (by simp [State.look])))
    · exact (State.follows_reply _ _ _ _).after opened

/-- LOCKDOWN is left at most, in a move that touches nothing else of what `Follows` looks at. -/
theorem State.Follows.of_mode (h : ({ t with work := { t.work with mode := s.work.mode } } : State).look = s.look)
    (hm : t.work.mode = .lockdown → s.work.mode = .lockdown) : s.Follows t := by
  simp only [State.look, Prod.mk.injEq] at h
  obtain ⟨geometry, stored, boundary, define, random, queue, deferred, writing, records, -, regions, erases⟩ := h
  refine .of_parts (by simp [*]) (fun r => by simp [records]) ?_ fun e => .inl ⟨hm e, .of_regions regions⟩
  rw [State.disablings, erases, State.disablings]

theorem State.follows_refundDone (p : PresentRequest) : s.Follows (s.refundDone p) := by
  let u : State := { s.setCredential p.credential s.stored.credentials[p.credential] with
    work := { (s.setCredential p.credential s.stored.credentials[p.credential]).work with
      deadlines := { s.work.deadlines with p := 0, np := 0 }
      mode := if p.credential = 0 ∧ s.work.mode = Mode.lockdown then .armed else s.work.mode } }
  have restored : s.Follows u := .of_mode rfl fun h => by
    simp only [u] at h
    split at h
    · cases h
    · exact h
  have left (hp : p.credential = 0) : u.work.mode ≠ .lockdown := by
    by_cases hm : s.work.mode = .lockdown <;> simp [u, hp, hm]
  show s.Follows ((if p.credential = 0 then u.administratorRefund else u).opening p)
  split
  · rename_i hp
    refine (State.follows_opening fun _ => ?_).after (restored.trans State.follows_administratorRefund)
    unfold State.administratorRefund
    dsimp only
    split
    · exact left hp
    · simpa using left hp
  · rename_i hp
    exact (State.follows_opening fun h => absurd h hp).after restored

theorem State.follows_secretDone (q : SecretRequest) : s.Follows (s.secretDone q) := by
  unfold State.secretDone
  dsimp only
  refine (State.follows_reply _ _ _ _).after (.of_mode rfl fun h => ?_)
  change (if q.arms = true ∧ s.work.mode = .factory then Mode.armed else s.work.mode) = .lockdown at h
  by_cases arms : q.arms = true ∧ s.work.mode = .factory
  · rw [if_pos arms] at h; cases h
  · rwa [if_neg arms] at h

theorem State.follows_ratchetDone (id : Nat) (mask : BitVec 16) (rs : RegionRatchets) (ds : DeviceRatchets) :
    s.Follows (s.ratchetDone id mask rs ds) := by
  refine (State.follows_reply _ _ _ _).after (.of_parts rfl (fun r => ?_) (le_refl _) (.of_regions rfl rfl))
  simp only [addRatchets, Fin.getElem_fin, getElem_tabMapIx]
  split <;> exact ⟨rfl, rfl⟩

theorem State.follows_applyScrubEntry (r : RegionIx) : s.Follows (s.applyScrubEntry r) := .of_look (by
  unfold State.applyScrubEntry
  dsimp only [State.entryToStart]
  repeat' split
  all_goals simp [State.look])

theorem State.follows_eraseDone (r : RegionIx) (scrub : Bool) : s.Follows (s.eraseDone r scrub) := by
  have set : s.Follows (s.setRegion r { s.work.regions[r] with condition := s.eraseCondition r scrub }) :=
    State.follows_setRegion rfl rfl
  unfold State.eraseDone
  dsimp only
  refine (State.follows_releaseHold r).after ((State.follows_dropErase r .response).after ?_)
  split
  · exact set.trans (State.follows_applyScrubEntry r)
  · exact set

theorem State.follows_keyDestructionDone (r : RegionIx) : s.Follows (s.keyDestructionDone r) := by
  unfold State.keyDestructionDone
  dsimp only
  split
  · exact State.follows_stepBoundary.after ((State.follows_markErased r).after
      ((State.follows_eraseDone r _).after (.of_look rfl)))
  · exact .of_look rfl

theorem State.follows_responseEndDone : s.Follows s.responseEndDone := by
  unfold State.responseEndDone
  dsimp only
  split
  · exact .of_look rfl
  · exact (State.follows_setRunning none).after ((State.follows_alert _ _ _ _ _ _).after (.of_look rfl))

theorem State.follows_finishDone : s.Follows s.finishDone := by
  unfold State.finishDone
  split
  · exact .refl s
  · rename_i h _
    have set : s.Follows (s.setRegion h { s.work.regions[h] with condition := .normal }) :=
      State.follows_setRegion rfl rfl
    exact set.trans (.of_look (by simp [State.look]))

theorem State.follows_tamperDone (id : Nat) (n : LineIx) (x : LineConfig) : s.Follows (s.tamperDone id n x) :=
  .of_look (by simp [State.tamperDone, State.look])

/-- Every requester but those of a DEFINE-REGION and a REVERT. -/
theorem State.follows_unitDone {v : CommitUnit} (hd : v.defines = false) (hv : ∀ id scrub, v ≠ .revert id scrub) :
    s.Follows (s.unitDone v) := by
  cases v with
  | charge p secret => exact State.follows_chargeDone p secret
  | revertCharge id scrub code => exact State.follows_revertChargeDone id scrub code
  | refund p => exact State.follows_refundDone p
  | secret q v => exact State.follows_secretDone q
  | regionDefinition d => cases hd
  | ratchet id mask rs ds => exact State.follows_ratchetDone id mask rs ds
  | responseBegin => exact State.follows_stepBoundary.after (State.follows_submitCountReset.trans (.of_look rfl))
  | keyDestruction r => exact (State.follows_keyDestructionDone r).after State.follows_submitCountReset
  | responseEnd => exact State.follows_responseEndDone
  | countReset => exact State.follows_submitCountReset.after (.of_look rfl)
  | checkpoint => exact State.follows_tryFinish.after (.of_look rfl)
  | finish => exact State.follows_finishDone
  | setTamper id n x => exact State.follows_tamperDone id n x
  | revert id scrub => exact absurd rfl (hv id scrub)
  | deadlineCharge => exact .of_look rfl
  | _ => exact (State.follows_reply _ _ _ _).after (.of_look rfl)

/-! ### Requesters answered that the write failed (R169) -/

theorem State.follows_endRevertErase (r : RegionIx) : s.Follows (s.endRevertErase r) := by
  unfold State.endRevertErase
  split
  · exact .refl s
  · exact (State.follows_setHold r false).after (.of_look rfl)

theorem State.follows_revertUnsafe (id : Nat) : s.Follows (s.revertUnsafe id) := by
  refine (State.follows_reply _ _ _ _).after
    ((State.foldl_follows (fun _ r => State.follows_endRevertErase r) _ _).after ?_)
  exact (State.follows_erases (l := s.erases.filter fun e => e.party != .revert)
    List.filter_sublist.countP_le).trans (.of_look rfl)

/-- Every requester but that of a DEFINE-REGION. -/
theorem State.follows_unitUnsafe {v : CommitUnit} (hd : v.defines = false) : s.Follows (s.unitUnsafe v) := by
  cases v with
  | regionDefinition d => cases hd
  | responseBegin | responseEnd => exact State.follows_resubmit rfl
  | keyDestruction r =>
    dsimp only [State.unitUnsafe]
    split
    · exact State.follows_resubmit rfl
    · exact .refl s
  | countReset => exact State.follows_submitCountReset
  | checkpoint => exact State.follows_tryFinish.after (.of_look rfl)
  | finish => exact State.follows_submit rfl
  | revert id scrub => exact State.follows_revertUnsafe id
  | deadlineCharge => exact .of_look rfl
  | _ => exact (State.follows_reply _ _ _ _).after (.of_look rfl)

/-! ### The head's write has ended (R166, R167) -/

/-- The store holds what the head wrote, and the head has left the queue. -/
def State.headWritten (image : Records) (s : State) : State := { s.popHead with stored := image }

/-- A unit that defines no region and reverts nothing left the bounds in the store as they were. -/
theorem State.RegionLaw.headWritten (h : s.RegionLaw) {v : CommitUnit} {rest : List CommitUnit} {image : Records}
    (hq : s.store.queue = v :: rest) (hw : s.store.writing = some image) (hd : v.defines = false)
    (hv : ∀ id scrub, v ≠ .revert id scrub) : (s.headWritten image).RegionLaw := by
  obtain ⟨-, -, -, write⟩ := id h
  have same : image.SameBounds s.stored := by
    have law := write image hw
    rw [hq] at law
    cases v with
    | regionDefinition d => cases hd
    | revert id scrub => exact absurd rfl (hv id scrub)
    | _ => exact law
  obtain ⟨bounds, copies, define, -⟩ := h.follows State.follows_popHead
  exact ⟨bounds, copies.trans same.symm, define, fun _ e => nomatch e⟩

/-! ### A DEFINE-REGION ends (R38 to R40) -/

theorem State.definitions_pos {d : DefineRequest} (h : .regionDefinition d ∈ s.units) : 0 < s.definitions :=
  List.countP_pos_iff.mpr ⟨_, h, rfl⟩

/-- The unit at the head is the one thing a DEFINE-REGION waits for. -/
theorem State.DefineLaw.popHead_waits (h : s.DefineLaw) {d : DefineRequest} {rest : List CommitUnit}
    (hq : s.store.queue = .regionDefinition d :: rest) : s.popHead.defineWaits = 0 := by
  obtain ⟨-, waits, units, -⟩ := h
  have define : s.define = some d := units d (by simp [hq])
  have popped : s.popHead.definitions + 1 = s.definitions := by
    simp only [State.definitions, State.units, State.popHead, hq, List.drop_one, List.tail_cons, List.cons_append]
    exact (List.countP_cons_of_pos rfl).symm
  have one : s.popHead.defineWaits + 1 = s.defineWaits := by
    rw [State.defineWaits_eq, State.defineWaits_eq, ← popped]
    rfl
  rw [define] at waits
  simp only [Option.isSome_some, if_true] at waits
  omega

/-- Where nothing of a DEFINE-REGION is left over, none may be in progress. -/
theorem State.DefineLaw.of_waits (h : s.DefineLaw) (hw : s.defineWaits = 0) (hr : t.random = s.random)
    (hs : t.store.queue = s.store.queue ∧ t.store.deferred = s.store.deferred) (he : t.erases = s.erases)
    (hd : t.define = none) : t.DefineLaw := by
  obtain ⟨-, -, -, draws⟩ := h
  have units : t.units = s.units := by rw [State.units, hs.1, hs.2, State.units]
  have waits : t.defineWaits = s.defineWaits := by
    simp only [State.defineWaits_eq, State.enablings, State.disablings, State.definitions, units, hr, he]
  refine ⟨fun d f e => ?_, by omega, fun d hm => ?_, fun r g hm => ?_⟩
  · rw [hd] at e; cases e
  · change .regionDefinition d ∈ t.units at hm
    rw [units] at hm
    have := State.definitions_pos hm
    rw [State.defineWaits_eq] at hw
    omega
  · exact draws r g (hr ▸ hm)

/-- A DEFINE-REGION whose unit left the queue without effect is over. -/
theorem State.RegionLaw.undefined (h : s.RegionLaw) {d : DefineRequest} {rest : List CommitUnit}
    (hq : s.store.queue = .regionDefinition d :: rest) : State.RegionLaw { s.popHead with define := none } := by
  obtain ⟨-, -, define, -⟩ := id h
  obtain ⟨bounds, copies, popped, -⟩ := h.follows State.follows_popHead
  exact ⟨bounds, copies, popped.of_waits (define.popHead_waits hq) rfl ⟨rfl, rfl⟩ rfl rfl, fun _ e => nomatch e⟩

/-- A region is given a record that fits, or one of a region that is not enabled, and the boundary list is rebuilt
(R27, R37). -/
theorem State.BoundsLaw.set (h : s.BoundsLaw) {r : RegionIx} {x : RegionRecord}
    (hx : r ≠ 0 → x.enabled = true → ∃ f, f.extent = x.extent ∧ s.Fits r f) :
    (s.setRegion r x).rebuildBoundary.BoundsLaw := by
  obtain ⟨-, part, apart⟩ := h
  have record (q : RegionIx) : (s.setRegion r x).rebuildBoundary.work.regions[q]
      = if q = r then x else s.work.regions[q] := getElem_set_fin _ _ _ _
  have meets (q : RegionIx) (p : Nat) (hr : r ≠ 0) (hq : q ≠ 0) (hn : q ≠ r) (hc : x.contains p = true) :
      s.work.regions[q].contains p = false := by
    obtain ⟨enabled, e, he, low, high⟩ := RegionRecord.contains_iff.mp hc
    obtain ⟨f, hf, e', he', -, -, clear⟩ := hx hr enabled
    obtain rfl : e' = e := Option.some.inj (he'.symm.trans (hf.trans he))
    refine Bool.eq_false_iff.mpr fun hm => ?_
    obtain ⟨qe, y, hy, ylow, yhigh⟩ := RegionRecord.contains_iff.mp hm
    have := clear q y hq hn qe hy
    omega
  refine ⟨rfl, fun q hq he => ?_, fun q k p hq hk hn hc => ?_⟩
  · rw [record] at he ⊢
    split at he
    · rename_i e
      subst e
      obtain ⟨f, hf, e, he, hp, hl, -⟩ := hx hq he
      rw [if_pos rfl]
      exact ⟨e, hf ▸ he, hp, hl⟩
    · rename_i e
      rw [if_neg e]
      exact part q hq he
  · rw [record] at hc ⊢
    split at hc
    · rename_i e
      subst e
      rw [if_neg (Ne.symm hn)]
      exact meets k p hq hk (Ne.symm hn) hc
    · split
      · rename_i e
        subst e
        cases e : x.contains p with
        | false => rfl
        | true =>
          rw [meets q p hk hq hn e] at hc
          cases hc
      · exact apart q k p hq hk hn hc

/-- What is left of the definition at the head once its record is the store's and the working one: DEFINE-REGION is
over (R38 to R40). -/
def State.defined (image : Records) (d : DefineRequest) (x : RegionRecord) (s : State) : State :=
  { ((s.headWritten image).setRegion d.region x).rebuildBoundary with define := none }

theorem State.RegionLaw.defined (h : s.RegionLaw) {d : DefineRequest} {rest : List CommitUnit} {image : Records}
    (hq : s.store.queue = .regionDefinition d :: rest) (hw : s.store.writing = some image) {x : RegionRecord}
    (hx : d.region ≠ 0 → x.enabled = image.regions[d.region].enabled ∧ x.extent = image.regions[d.region].extent) :
    (s.defined image d x).RegionLaw := by
  obtain ⟨-, copies, define, write⟩ := id h
  obtain ⟨bounds, -, popped, -⟩ := h.follows State.follows_popHead
  have law := write image hw
  simp only [hq] at law
  obtain ⟨fits, -, units, -⟩ := id define
  have known : s.define = some d := units d (by simp [hq])
  refine ⟨?_, fun r hr => ?_, popped.of_waits (define.popHead_waits hq) rfl ⟨rfl, rfl⟩ rfl rfl, fun _ e => nomatch e⟩
  · refine State.BoundsLaw.congr (s := (s.popHead.setRegion d.region x).rebuildBoundary)
      (bounds.set fun hr he => ?_) rfl rfl (.refl _)
    have written := law d.region hr
    rw [if_pos rfl] at written
    obtain ⟨we, wx⟩ := written
    obtain ⟨xe, xx⟩ := hx hr
    cases hk : d.kind with
    | enabling f =>
      simp only [hk] at wx
      exact ⟨f, (xx.trans wx).symm, (fits d f known hr (.inl hk)).congr rfl (.refl _)⟩
    | change f =>
      simp only [hk] at wx
      exact ⟨f, (xx.trans wx).symm, (fits d f known hr (.inr hk)).congr rfl (.refl _)⟩
    | disabling =>
      simp only [hk] at we
      rw [xe, we] at he
      cases he
  · have record : (s.defined image d x).work.regions[r] = if r = d.region then x else s.work.regions[r] :=
      getElem_set_fin _ _ _ _
    have written := law r hr
    rw [record]
    split
    · rename_i e; subst e; exact hx hr
    · rename_i e
      rw [if_neg e] at written
      exact ⟨(copies r hr).1.trans written.1.symm, (copies r hr).2.trans written.2.symm⟩

theorem State.follows_afterDisabling (r : RegionIx) : s.Follows (s.afterDisabling r) := by
  unfold State.afterDisabling
  repeat' split
  · exact (State.follows_beginErase (by simp) r _).after (State.follows_dropErase r .response)
  · exact State.follows_passOver r
  · exact .refl s
  · exact .refl s

theorem State.follows_endDisabling (r : RegionIx) : State.Follows { s with define := none } (s.endDisabling r) := by
  have dropped : State.Follows { s with define := none } { s.dropErase r .disabling with define := none } :=
    State.follows_dropErase r .disabling
  refine dropped.trans ?_
  unfold State.endDisabling State.releaseHold
  split
  · exact .refl _
  · exact State.follows_setHold r false

/-- The definition's own answer moves nothing more of the bounds. -/
theorem State.follows_defineDone (image : Records) (d : DefineRequest) : ∃ x,
    (∀ f, d.kind = .change f → x.enabled = s.work.regions[d.region].enabled ∧ x.extent = f.extent)
    ∧ ((∀ f, d.kind ≠ .change f) → x = image.regions[d.region])
    ∧ (s.defined image d x).Follows ((s.headWritten image).defineDone d) := by
  cases hk : d.kind with
  | enabling f =>
    refine ⟨image.regions[d.region], by simp, by simp, ?_⟩
    unfold State.defineDone
    simp only [hk]
    refine (State.follows_reply _ _ _ _).after ?_
    refine .trans (State.follows_setStatus (r := d.region) (x := ⟨.locked, .locked, false, 0⟩) fun k e => ?_)
      (.of_look rfl)
    cases k <;> cases e
  | change f =>
    refine ⟨{ s.work.regions[d.region] with
      extent := f.extent, powerOnRead := f.powerOnRead, powerOnWrite := f.powerOnWrite,
      conceal := f.conceal, absorb := f.absorb }, by simp, fun h => absurd rfl (h f), ?_⟩
    unfold State.defineDone
    simp only [hk]
    refine (State.follows_reply _ _ _ _).after (.of_look ?_)
    split <;> rfl
  | disabling =>
    refine ⟨image.regions[d.region], by simp, by simp, ?_⟩
    unfold State.defineDone
    simp only [hk]
    exact (State.follows_afterDisabling _).after ((State.follows_reply _ _ _ _).after (State.follows_endDisabling _))

/-- The region-definition unit answered done (R38 to R40). -/
theorem State.obeys_defineDone {d : DefineRequest} {rest : List CommitUnit} {image : Records}
    (hq : s.store.queue = .regionDefinition d :: rest) (hw : s.store.writing = some image) :
    s.Obeys ((s.headWritten image).defineDone d) := by
  obtain ⟨x, change, written, f⟩ := s.follows_defineDone image d
  refine .trans ⟨fun h => h.defined hq hw fun hr => ?_, .of_regions rfl rfl⟩ f.obeys
  by_cases hk : ∃ g, d.kind = .change g
  · obtain ⟨g, hk⟩ := hk
    obtain ⟨-, -, -, write⟩ := h
    have law := write image hw
    simp only [hq] at law
    have own := law d.region hr
    rw [if_pos rfl] at own
    simp only [hk] at own
    exact ⟨(change g hk).1.trans own.1.symm, (change g hk).2.trans own.2.symm⟩
  · rw [written fun g e => hk ⟨g, e⟩]
    exact ⟨rfl, rfl⟩

/-- The region-definition unit answered that the write failed (R38 to R40, R51). -/
theorem State.obeys_defineUnsafe {d : DefineRequest} {rest : List CommitUnit}
    (hq : s.store.queue = .regionDefinition d :: rest)
    (f : State.Follows { s.popHead with define := none } { t with define := none }) :
    s.Obeys (t.defineUnsafe d) := by
  have ended : s.Obeys { t with define := none } :=
    .trans ⟨fun h => h.undefined hq, .of_regions rfl rfl⟩ f.obeys
  refine ended.trans (State.Follows.obeys ?_)
  unfold State.defineUnsafe
  cases d.kind with
  | enabling f => exact (State.follows_reply _ _ _ _).after (.of_look rfl)
  | change f => exact State.follows_reply _ _ _ _
  | disabling =>
    have restored : State.Follows { t with define := none }
        { t.setKey d.region t.stored.keys[d.region] with define := none } := .of_look rfl
    exact (State.follows_afterDisabling _).after ((State.follows_reply _ _ _ _).after
      (restored.trans (State.follows_endDisabling _)))

/-! ### A REVERT ends (R163) -/

theorem State.takeReverted_eq : s.takeReverted = { s with
    work := s.stored, regions := tabMap (fun x => { x with eraseHold := false }) s.lockAll.regions
    keys := s.lockAll.keys, boundary := boundaryOf s.stored.regions, erases := [], reverting := false
    revertRequest := none } := by
  have frame : s.lockAll = { s with regions := s.lockAll.regions, keys := s.lockAll.keys } := State.lockAll_frame
  unfold State.takeReverted
  generalize s.lockAll = t at frame
  rw [frame]
  rfl

theorem State.takeReverted_locked : s.takeReverted.AllLocked := by
  intro r k h
  have held : s.takeReverted.regions[r] = { s.lockAll.regions[r] with eraseHold := false } := by
    rw [State.takeReverted_eq]
    exact getElem_tabMap _ _ _ _
  rw [held] at h
  have locked := State.lockAll_locked (s := s) r k
  generalize s.lockAll.regions[r] = x at h locked
  exact locked (by cases k <;> exact h)

/-- A REVERT leaves no region 1 to 15 enabled, and the boundary list empty (R163). -/
theorem State.RegionLaw.takeReverted (h : s.RegionLaw) {i : Nat} {scrub : Bool} {rest : List CommitUnit}
    {image : Records} (hq : s.store.queue = .revert i scrub :: rest) (hw : s.store.writing = some image) :
    (s.headWritten image).takeReverted.RegionLaw := by
  obtain ⟨-, -, -, write⟩ := id h
  obtain ⟨-, -, ⟨fits, waits, units, draws⟩, -⟩ := h.follows State.follows_popHead
  have law := write image hw
  simp only [hq] at law
  rw [State.takeReverted_eq]
  refine ⟨⟨rfl, fun r hr he => ?_, fun q r p hq hr hn hc => ?_⟩, fun _ _ => ⟨rfl, rfl⟩,
    ⟨fun d f hd hr hk => ?_, ?_, units, draws⟩, fun _ e => nomatch e⟩
  · cases (law r hr).symm.trans he
  · cases (law q hq).symm.trans (RegionRecord.contains_iff.mp hc).1
  · obtain ⟨e, he, hp, hl, -⟩ := fits d f hd hr hk
    exact ⟨e, he, hp, hl, fun q x hq _ hx => nomatch (law q hq).symm.trans hx⟩
  · refine le_trans ?_ waits
    rw [State.defineWaits_eq, State.defineWaits_eq]
    exact Nat.add_le_add_right (Nat.add_le_add_left (Nat.zero_le _) _) _

theorem State.follows_clearReverted (h : s.store.writing = none) : s.Follows s.clearReverted := by
  have sub : s.clearReverted.units.Sublist s.units := List.filter_sublist.append List.filter_sublist
  refine ⟨⟨rfl, rfl, rfl, rfl, fun _ => ⟨rfl, rfl⟩, fun d hd => .inl (sub.subset hd), fun _ _ hd => hd,
    fun image e => ?_, .of_regions rfl rfl⟩, ?_⟩
  · cases h.symm.trans e
  · rw [State.defineWaits_eq, State.defineWaits_eq]
    exact Nat.add_le_add_left sub.countP_le _

/-- The revert unit answered done (R163). -/
theorem State.obeys_revertDone {i : Nat} {scrub : Bool} {rest : List CommitUnit} {image : Records}
    (hq : s.store.queue = .revert i scrub :: rest) (hw : s.store.writing = some image) :
    s.Obeys ((s.headWritten image).revertDone i) := by
  have taken : s.Obeys (s.headWritten image).takeReverted :=
    ⟨fun h => h.takeReverted hq hw, fun _ => .inr State.takeReverted_locked⟩
  have cleared := taken.trans (State.follows_clearReverted (by rw [State.takeReverted_eq]; rfl)).obeys
  refine cleared.trans (State.Follows.obeys ?_)
  unfold State.revertDone
  generalize (s.headWritten image).takeReverted.clearReverted = t
  have settled : t.Follows (t.settleHead.unloadOldHead (s.headWritten image).scrubHead) := .of_look (by
    unfold State.unloadOldHead
    split <;> simp [State.look])
  exact (State.follows_reply _ _ _ _).after ((State.follows_alert _ _ _ _ _ _).after
    (State.follows_startWalkIfDue.after settled))

/-! ### The answers (R167, R169) -/

theorem State.obeys_answerDone {v : CommitUnit} {rest : List CommitUnit} {image : Records}
    (hq : s.store.queue = v :: rest) (hw : s.store.writing = some image) : s.Obeys (s.answerDone v image) := by
  refine State.obeys_settle.after ((State.obeys_submitDeferred _).after ?_)
  change s.Obeys ((s.headWritten image).unitDone v)
  by_cases hd : v.defines = false
  · by_cases hv : ∀ id scrub, v ≠ .revert id scrub
    · exact .trans ⟨fun h => h.headWritten hq hw hd hv, .of_regions rfl rfl⟩ (State.follows_unitDone hd hv).obeys
    · push Not at hv
      obtain ⟨i, scrub, rfl⟩ := hv
      exact State.obeys_revertDone hq hw
  · cases v with
    | regionDefinition d => exact State.obeys_defineDone hq hw
    | _ => exact absurd rfl hd

theorem State.obeys_answerUnsafe {v : CommitUnit} {rest : List CommitUnit} (hq : s.store.queue = v :: rest) :
    s.Obeys (s.answerUnsafe v) := by
  refine State.obeys_settle.after ((State.obeys_submitDeferred _).after ?_)
  by_cases hd : v.defines = false
  · refine .after (State.follows_unitUnsafe hd).obeys (State.Follows.obeys ?_)
    have counted : s.popHead.Follows { s.popHead with holdup := { s.holdup with lowCount := 0 } } := .of_look rfl
    exact State.follows_popHead.trans (counted.trans (State.follows_alert _ _ _ _ _ _))
  · cases v with
    | regionDefinition d => exact State.obeys_defineUnsafe hq (.of_look (by simp [State.look]))
    | _ => exact absurd rfl hd

theorem State.follows_recordCode (code : Nat) : s.Follows (s.recordCode code) := .of_look rfl

theorem State.obeys_codePasses : s.Obeys s.codePasses := by
  have ended : s.Follows { s with holdup := { s.holdup with episodeLow := false } } := .of_look rfl
  have counted : s.Follows { s with holdup := { s.holdup with episodeLow := false, lowCount := 0 } } := .of_look rfl
  unfold State.codePasses
  dsimp only
  split
  · rename_i v rest hq
    split
    · exact counted.obeys.trans (State.obeys_startWrite hq)
    · exact ended.obeys
  · exact ended.obeys

theorem State.enterEpisode_queue (code : Nat) : (s.enterEpisode code).store.queue = s.store.queue := by
  unfold State.enterEpisode; split <;> simp

theorem State.follows_enterEpisode (code : Nat) : s.Follows (s.enterEpisode code) := by
  unfold State.enterEpisode
  split
  · exact .refl s
  · exact (State.follows_alert _ _ _ _ _ _).after (.of_look rfl)

theorem State.obeys_codeLow (code : Nat) : s.Obeys (s.codeLow code) := by
  have entered := (s.follows_enterEpisode code).obeys
  unfold State.codeLow
  dsimp only
  split
  · rename_i v rest hq
    repeat' split
    · exact entered.trans (State.obeys_answerUnsafe ((s.enterEpisode_queue code).trans hq))
    · exact entered.trans (State.Follows.obeys (.of_look rfl))
    · exact entered
  · exact entered

theorem State.obeys_conversionEnds (code : Nat) : s.Obeys (s.conversionEnds code) := by
  unfold State.conversionEnds
  dsimp only
  repeat' split
  · exact State.obeys_codePasses.after (s.follows_recordCode code).obeys
  · exact (State.obeys_codeLow code).after (s.follows_recordCode code).obeys
  · exact .refl s

end Sys2Proof.Machine

end

section
/-! PROOFS. Requests, power and the step: a DEFINE-REGION begins with fields that fit (R37), every step keeps the law
of the region bounds (R27), and none opens a right in LOCKDOWN (R31, R86, R105). -/

namespace Sys2Proof.Machine

variable {s t u : State}

/-! ### A DEFINE-REGION begins (R37 to R40) -/

/-- Without a DEFINE-REGION in progress nothing of one waits (R37). -/
theorem State.DefineLaw.idle (h : s.DefineLaw) (hd : s.define = none) : s.defineWaits = 0 := by
  obtain ⟨-, waits, -, -⟩ := h
  rw [hd] at waits
  exact Nat.le_zero.mp waits

/-- Fields that fit begin a DEFINE-REGION. -/
theorem State.RegionLaw.begun (h : s.RegionLaw) (hd : s.define = none) {d : DefineRequest}
    (fits : ∀ f, d.region ≠ 0 → d.kind = .enabling f ∨ d.kind = .change f → s.Fits d.region f) :
    State.RegionLaw { s with define := some d } := by
  obtain ⟨bounds, copies, define, write⟩ := h
  have waits := define.idle hd
  obtain ⟨-, -, units, draws⟩ := define
  refine ⟨bounds, copies, ⟨fun e f he hr hk => ?_, ?_, fun e he => ?_, draws⟩, write⟩
  · cases he; exact fits f hr hk
  · exact waits.le.trans (Nat.zero_le _)
  · exact nomatch hd.symm.trans (units e he)

/-- The course of a DEFINE-REGION begins with one thing to wait for. -/
theorem State.obeys_begun (hd : s.define = none) {d : DefineRequest}
    (fits : ∀ f, d.region ≠ 0 → d.kind = .enabling f ∨ d.kind = .change f → s.Fits d.region f)
    (f : State.Moves { s with define := some d } t)
    (hw : t.defineWaits ≤ State.defineWaits { s with define := some d } + 1) : s.Obeys t := by
  refine ⟨fun h => ?_, .trans (.of_regions rfl rfl) f.seals⟩
  obtain ⟨-, -, define, -⟩ := id h
  refine (h.begun hd fits).moves f (hw.trans ?_)
  exact (Nat.add_le_add_right (define.idle hd).le 1)

/-- The crypto-erases under way are others. -/
theorem State.moves_erases (l : List EraseOperation) : s.Moves { s with erases := l } :=
  ⟨rfl, rfl, rfl, rfl, fun _ => ⟨rfl, rfl⟩, fun _ => .inl, fun _ _ => id, fun _ e => ⟨e, .inr rfl⟩, .of_regions rfl rfl⟩

theorem State.defineWaits_erases (e : EraseOperation) :
    State.defineWaits { s with erases := s.erases ++ [e] } ≤ s.defineWaits + 1 := by
  have one : State.disablings { s with erases := s.erases ++ [e] } ≤ s.disablings + 1 := by
    simp only [State.disablings, List.countP_append, List.countP_singleton]
    split <;> omega
  rw [State.defineWaits_eq, State.defineWaits_eq]
  change s.enablings + _ + s.definitions ≤ _
  omega

theorem State.moves_beginErase (r : RegionIx) (p : Party) (scrub : Bool) : s.Moves (s.beginErase r p scrub)
    ∧ (s.beginErase r p scrub).defineWaits ≤ s.defineWaits + 1 := by
  have held : s.Follows (((s.lockBoth r).setHold r true).holdHead r) :=
    ((State.follows_lockBoth r).trans (State.follows_setHold r true)).trans (.of_look (by simp [State.look]))
  exact ⟨held.toMoves.trans (State.moves_erases _),
    (State.defineWaits_erases ⟨r, p, scrub, .begun⟩).trans (Nat.add_le_add_right held.waits 1)⟩

theorem State.obeys_beginDisabling (hd : s.define = none) (i : Nat) (r : RegionIx) :
    s.Obeys (s.beginDisabling i r) := by
  refine State.obeys_settle.after ?_
  exact State.obeys_begun hd (by simp) (State.moves_beginErase _ _ _).1 (State.moves_beginErase _ _ _).2

theorem State.moves_drawKey_enabling (r : RegionIx) : s.Moves (s.drawKey r .enabling)
    ∧ (s.drawKey r .enabling).defineWaits ≤ s.defineWaits + 1 := by
  have taken : s.Follows (s.takeGeneration r) := .of_look (by simp [State.look])
  refine ⟨taken.toMoves.trans (State.moves_requestDraw (by simp)), ?_⟩
  unfold State.drawKey
  rw [State.defineWaits_requestDraw]
  exact Nat.add_le_add_right taken.waits 1

theorem State.obeys_beginEnabling (hd : s.define = none) (i : Nat) {r : RegionIx} {f : RegionFields}
    (fits : r ≠ 0 → s.Fits r f) : s.Obeys (s.beginEnabling i r f) := by
  refine State.obeys_begun hd (fun g hr hk => ?_) (State.moves_drawKey_enabling r).1 (State.moves_drawKey_enabling r).2
  simp only [DefineKind.enabling.injEq, reduceCtorEq, or_false] at hk
  exact hk ▸ fits hr

theorem State.obeys_beginChange (hd : s.define = none) (i : Nat) {r : RegionIx} {f : RegionFields}
    (fits : r ≠ 0 → s.Fits r f) : s.Obeys (s.beginChange i r f) := by
  refine State.obeys_serveStore.after (State.obeys_begun hd (fun g hr hk => ?_)
    (State.moves_submit fun d e => by cases e; rfl) (by rw [State.defineWaits_submit]; rfl))
  simp only [DefineKind.change.injEq, reduceCtorEq, false_or] at hk
  exact hk ▸ fits hr

/-- A range that meets no other region lies before or behind each of them (R37). -/
theorem State.apart_of_meetsOther {r q : RegionIx} {e x : Extent} (h : s.meetsOther r e = false) (hq : q ≠ 0)
    (hn : q ≠ r) (he : s.work.regions[q].enabled = true) (hx : s.work.regions[q].extent = some x) :
    e.start + e.length ≤ x.start ∨ x.start + x.length ≤ e.start := by
  have clear := List.any_eq_false.mp h q (mem_allRegions q)
  rw [hx, he, bne_iff_ne.mpr hq, bne_iff_ne.mpr hn] at clear
  simp only [overlaps, Bool.true_and, decide_eq_true_eq] at clear
  omega

theorem State.Obeys.ite {c : Prop} [Decidable c] (ht : c → s.Obeys t) (hu : ¬ c → s.Obeys u) :
    s.Obeys (if c then t else u) := by
  split
  · exact ht ‹_›
  · exact hu ‹_›

theorem obeys_defineRegionRequest (i : Nat) (region enable : Byte) (start length : BitVec 48)
    (pr pw conceal absorb : Byte) (s : State) :
    s.Obeys (defineRegionRequest i region enable start length pr pw conceal absorb s) := by
  have replied (c : ResultCode) : s.Obeys (s.reply i 0x09 c []) := (State.follows_reply _ _ _ _).obeys
  unfold defineRegionRequest
  split
  · exact replied _
  rename_i r _
  extract_lets x e f
  refine .ite (fun _ => replied _) fun _ => .ite (fun _ => replied _) fun idle => .ite (fun _ => replied _) fun _ =>
    .ite (fun _ => replied _) fun _ => .ite (fun _ => replied _) fun _ => .ite (fun _ => replied _) fun range =>
    .ite (fun _ => replied _) fun apart => ?_
  have idle : s.define = none := Option.not_isSome_iff_eq_none.mp idle
  refine .ite (fun _ => .ite (fun _ => replied _) fun _ => State.obeys_beginDisabling idle i r) fun enabling => ?_
  have fits (hr : r ≠ 0) : s.Fits r f := by
    have on : yes enable = true := Bool.not_eq_false _ ▸ enabling
    have inside : ¬ (e.length = 0 ∨ s.geometry.capacity ≤ e.start ∨ s.geometry.capacity < e.start + e.length) :=
      fun h => range ⟨hr, on, h⟩
    push Not at inside
    obtain ⟨positive, -, part⟩ := inside
    refine ⟨e, if_neg hr, Nat.pos_of_ne_zero positive, part, fun q x hq hn he hx => ?_⟩
    exact State.apart_of_meetsOther (Bool.eq_false_iff.mpr fun h => apart ⟨hr, on, h⟩) hq hn he hx
  exact .ite (fun _ => replied _) fun _ => .ite (fun _ => State.obeys_beginChange idle i fits) fun _ =>
    .ite (fun _ => replied _) fun _ => State.obeys_beginEnabling idle i fits

/-! ### The other requests (R174) -/

theorem State.obeys_reply (i : Nat) (k : Byte) (c : ResultCode) (b : List Byte) (s : State) :
    s.Obeys (s.reply i k c b) := (State.follows_reply i k c b).obeys

theorem obeys_presentRequest (i : Nat) (c : Byte) (r w : BitVec 16) (o : Byte) (secret : List Byte) (s : State) :
    s.Obeys (presentRequest i c r w o secret s) := by
  unfold presentRequest
  repeat' split
  all_goals try exact State.obeys_reply _ _ _ _ s
  exact State.obeys_submitNow rfl

theorem State.follows_lockMask (k : RightKind) (mask : BitVec 16) : s.Follows (s.lockMask k mask) :=
  State.foldl_follows (fun t r => by
    split
    · exact State.follows_lockRight k r
    · exact .refl t) _ s

theorem obeys_lockRequest (i : Nat) (r w : BitVec 16) (f : Byte) (s : State) : s.Obeys (lockRequest i r w f s) := by
  have locked : s.Follows ((s.lockMask .read r).lockMask .write w) :=
    (State.follows_lockMask .read r).trans (State.follows_lockMask .write w)
  unfold lockRequest
  dsimp only
  refine ((State.follows_reply _ _ _ _).after ?_).obeys
  split
  · exact locked.trans (.of_look rfl)
  · exact locked

theorem obeys_setSecretRequest (i : Nat) (c cost : Byte) (secret : List Byte) (s : State) :
    s.Obeys (setSecretRequest i c cost secret s) := by
  unfold setSecretRequest
  repeat' split
  · exact State.obeys_reply _ _ _ _ s
  · exact State.obeys_reply _ _ _ _ s
  · exact (State.follows_requestDraw rfl (by simp)).obeys

theorem obeys_removeCredentialRequest (i : Nat) (c : Byte) (s : State) : s.Obeys (removeCredentialRequest i c s) := by
  unfold removeCredentialRequest
  repeat' split
  all_goals try exact State.obeys_reply _ _ _ _ s
  exact State.obeys_submitNow rfl

theorem obeys_grantRequest (i : Nat) (c r g : Byte) (s : State) : s.Obeys (grantRequest i c r g s) := by
  unfold grantRequest
  repeat' split
  all_goals try exact State.obeys_reply _ _ _ _ s
  exact State.obeys_submitNow rfl

theorem obeys_setLimitRequest (i : Nat) (c l : Byte) (s : State) : s.Obeys (setLimitRequest i c l s) := by
  unfold setLimitRequest
  repeat' split
  all_goals try exact State.obeys_reply _ _ _ _ s
  exact State.obeys_submitNow rfl

theorem obeys_resetAttemptsRequest (i : Nat) (c : Byte) (s : State) : s.Obeys (resetAttemptsRequest i c s) := by
  unfold resetAttemptsRequest
  repeat' split
  all_goals try exact State.obeys_reply _ _ _ _ s
  exact State.obeys_submitNow rfl

theorem obeys_ratchetRequest (i : Nat) (m : BitVec 16) (r d : Byte) (s : State) :
    s.Obeys (ratchetRequest i m r d s) := by
  unfold ratchetRequest
  repeat' split
  all_goals try exact State.obeys_reply _ _ _ _ s
  exact State.obeys_submitNow rfl

theorem obeys_setResponseRequest (i : Nat) (src l v : Byte) (s : State) :
    s.Obeys (setResponseRequest i src l v s) := by
  unfold setResponseRequest
  repeat' split
  all_goals try exact State.obeys_reply _ _ _ _ s
  exact (State.obeys_submitNow rfl).after (State.Follows.obeys (.of_look rfl))

theorem obeys_eraseOrderRequest (i : Nat) (m : BitVec 16) (l : Byte) (s : State) :
    s.Obeys (eraseOrderRequest i m l s) := by
  unfold eraseOrderRequest
  split
  · exact State.obeys_reply _ _ _ _ s
  · split
    · exact State.obeys_reply _ _ _ _ s
    · exact State.obeys_settle.after ((State.obeys_reply _ _ _ _ _).after (State.Follows.obeys (.of_look rfl)))

theorem obeys_setTamperRequest (i : Nat) (n e p d : Byte) (s : State) : s.Obeys (setTamperRequest i n e p d s) := by
  unfold setTamperRequest
  dsimp only
  repeat' split
  all_goals try exact State.obeys_reply _ _ _ _ s
  exact (State.obeys_submitNow rfl).after (State.Follows.obeys (.of_look rfl))

theorem obeys_clearTamperRequest (i : Nat) (lines : Byte) (s : State) : s.Obeys (clearTamperRequest i lines s) :=
  (State.obeys_reply _ _ _ _ _).after (State.Follows.obeys (.of_look rfl))

theorem obeys_setDeadlineRequest (i : Nat) (dp : BitVec 16) (dn q : Byte) (s : State) :
    s.Obeys (setDeadlineRequest i dp dn q s) := by
  unfold setDeadlineRequest
  dsimp only
  repeat' split
  all_goals try exact State.obeys_reply _ _ _ _ s
  exact (State.obeys_submitNow rfl).after (State.Follows.obeys (.of_look rfl))

theorem obeys_setHoldupRequest (i : Nat) (g t c : Byte) (s : State) : s.Obeys (setHoldupRequest i g t c s) := by
  unfold setHoldupRequest
  repeat' split
  all_goals try exact State.obeys_reply _ _ _ _ s
  exact (State.obeys_submitNow rfl).after (State.Follows.obeys (.of_look rfl))

theorem obeys_setWindowRequest (i : Nat) (e : Byte) (w : BitVec 32) (s : State) :
    s.Obeys (setWindowRequest i e w s) := by
  unfold setWindowRequest
  repeat' split
  all_goals try exact State.obeys_reply _ _ _ _ s
  exact (State.obeys_submitNow rfl).after (State.Follows.obeys (.of_look rfl))

theorem obeys_beginLoadRequest (i : Nat) (s : State) : s.Obeys (beginLoadRequest i s) := by
  unfold beginLoadRequest
  repeat' split
  · exact State.obeys_reply _ _ _ _ s
  · exact State.obeys_reply _ _ _ _ s
  · exact (State.obeys_reply _ _ _ _ _).after (State.Follows.obeys (.of_look rfl))

theorem obeys_endLoadRequest (i : Nat) (l : BitVec 32) (s : State) : s.Obeys (endLoadRequest i l s) := by
  unfold endLoadRequest
  repeat' split
  all_goals try exact State.obeys_reply _ _ _ _ s
  exact (State.obeys_submitNow rfl).after (State.Follows.obeys (.of_look rfl))

theorem obeys_setLabelRequest (i : Nat) (text : List Byte) (s : State) : s.Obeys (setLabelRequest i text s) := by
  unfold setLabelRequest
  repeat' split
  all_goals try exact State.obeys_reply _ _ _ _ s
  exact (State.obeys_submitNow rfl).after (State.Follows.obeys (.of_look rfl))

theorem obeys_retireWindowRequest (i : Nat) (s : State) : s.Obeys (retireWindowRequest i s) := by
  unfold retireWindowRequest
  split
  · exact State.obeys_reply _ _ _ _ s
  · exact (State.obeys_reply _ _ _ _ _).after (State.Follows.obeys (.of_look (by simp [State.look])))

theorem obeys_revertRequest (i : Nat) (scrub : Byte) (code : List Byte) (s : State) :
    s.Obeys (revertRequest i scrub code s) := by
  unfold revertRequest
  repeat' split
  all_goals try exact State.obeys_reply _ _ _ _ s
  exact State.obeys_submitNow rfl

/-- Every request keeps the law and opens nothing in LOCKDOWN. -/
theorem obeys_handRequest (id : Nat) (i : Instr) (s : State) : s.Obeys (handRequest id i s) := by
  cases i with
  | statusQuery => exact State.obeys_reply _ _ _ _ s
  | present c r w o secret => exact obeys_presentRequest id c r w o secret s
  | lock r w f => exact obeys_lockRequest id r w f s
  | setSecret c cost secret => exact obeys_setSecretRequest id c cost secret s
  | removeCredential c => exact obeys_removeCredentialRequest id c s
  | grant c r g => exact obeys_grantRequest id c r g s
  | setLimit c l => exact obeys_setLimitRequest id c l s
  | resetAttempts c => exact obeys_resetAttemptsRequest id c s
  | defineRegion r e st n pr pw cl ab => exact obeys_defineRegionRequest id r e st n pr pw cl ab s
  | ratchet m rs ds => exact obeys_ratchetRequest id m rs ds s
  | setResponse src l v => exact obeys_setResponseRequest id src l v s
  | eraseOrder m l => exact obeys_eraseOrderRequest id m l s
  | setTamper n e p d => exact obeys_setTamperRequest id n e p d s
  | clearTamper m => exact obeys_clearTamperRequest id m s
  | setDeadline dp dn q => exact obeys_setDeadlineRequest id dp dn q s
  | setHoldup g t c => exact obeys_setHoldupRequest id g t c s
  | setScrubShare v => exact State.obeys_submitNow rfl
  | setMediaTimeout v => exact State.obeys_submitNow rfl
  | setWindow e w => exact obeys_setWindowRequest id e w s
  | beginLoad => exact obeys_beginLoadRequest id s
  | endLoad l => exact obeys_endLoadRequest id l s
  | setLabel text => exact obeys_setLabelRequest id text s
  | retireWindow => exact obeys_retireWindowRequest id s
  | fetchAlerts t => exact (State.obeys_reply _ _ _ _ _).after (State.Follows.obeys (.of_look rfl))
  | revert scrub code => exact obeys_revertRequest id scrub code s
  | _ => exact .refl s

theorem State.obeys_takeMessage (kind : Byte) (read : Option Instr) (s : State) :
    s.Obeys (s.takeMessage kind read) := by
  have begun : s.Follows s.beginRequest := .of_look rfl
  unfold State.takeMessage
  dsimp only
  repeat' split
  · exact (State.obeys_reply _ _ _ _ _).after begun.obeys
  · exact (State.obeys_reply _ _ _ _ _).after begun.obeys
  · exact (obeys_handRequest _ _ _).after begun.obeys

theorem State.obeys_offerRequest (i : Instr) (s : State) : s.Obeys (s.offerRequest i) := by
  unfold State.offerRequest
  split
  · exact .refl s
  · exact State.obeys_takeMessage _ _ s

theorem State.follows_send (e : PortEvent) : s.Follows (s.send e) := .of_look rfl

theorem State.follows_admitTransfer (x : Transfer) : s.Follows (s.admitTransfer x) := by
  have raised := State.foldl_follows (fun t (g : Segment) => State.follows_raiseAdmitted (s := t) g) x.segments s
  have served (t : State) : t.Follows (x.segments.foldl (State.serveAtAdmission x.tag x.start x.kind) t) :=
    State.foldl_follows (fun t g => by rw [State.serveAtAdmission_frame]; exact .of_look rfl) _ t
  unfold State.admitTransfer State.enterTransfer
  split
  · exact (State.follows_send _).after ((served _).after raised)
  · exact (raised.trans (served _)).trans (.of_look rfl)

theorem State.follows_takeBlocks (kind : TransferKind) (tag : BitVec 8) (start : BitVec 48) (count : BitVec 17)
    (data : List Block) : s.Follows (s.takeBlocks kind tag start count data) := by
  unfold State.takeBlocks
  split
  · exact State.follows_send _
  · split
    · exact State.follows_send _
    · dsimp only
      split
      · exact State.follows_send _
      · exact State.follows_serveMedia.after (State.follows_admitTransfer _)

theorem State.follows_takeFlush (tag : BitVec 8) : s.Follows (s.takeFlush tag) := by
  unfold State.takeFlush
  split
  · exact State.follows_send _
  · exact State.follows_serveMedia.after (State.follows_admitTransfer _)

theorem State.obeys_takeManageSend (tag : BitVec 8) (message : List Byte) : s.Obeys (s.takeManageSend tag message) := by
  unfold State.takeManageSend
  repeat' split
  · exact (State.follows_send _).obeys
  · exact (State.follows_send _).obeys
  · exact (State.follows_send _).obeys
  · exact (State.obeys_takeMessage _ _ _).after (State.follows_send _).obeys

theorem State.follows_takeManageFetch (tag : BitVec 8) : s.Follows (s.takeManageFetch tag) := by
  unfold State.takeManageFetch
  split
  · exact State.follows_send _
  · exact .of_look rfl

theorem State.obeys_takeRequest (i : Instr) (s : State) : s.Obeys (s.takeRequest i) := by
  cases i with
  | read tag start count => exact (State.follows_takeBlocks _ _ _ _ _).obeys
  | write tag start count data => exact (State.follows_takeBlocks _ _ _ _ _).obeys
  | discard tag start count => exact (State.follows_takeBlocks _ _ _ _ _).obeys
  | flush tag => exact (State.follows_takeFlush tag).obeys
  | manageSend tag message => exact State.obeys_takeManageSend tag message
  | manageFetch tag => exact (State.follows_takeManageFetch tag).obeys
  | requestOfUnknownKind tag => exact (State.follows_send _).obeys
  | _ => first | exact State.obeys_offerRequest _ s | exact .refl s

theorem State.obeys_request (i : Instr) (s : State) : s.Obeys (s.request i) := by
  unfold State.request
  split
  · exact State.obeys_takeRequest i s
  · exact State.Follows.obeys (.of_look rfl)

theorem State.obeys_takeOffered : s.Obeys s.takeOffered := by
  unfold State.takeOffered
  split
  · have taken : s.Follows { s with offered := [] } := .of_look rfl
    exact taken.obeys.trans (foldl_relates State.Obeys State.Obeys.refl (fun _ _ _ => State.Obeys.trans) _
      (fun t i => State.obeys_takeRequest i t) _ _)
  · exact .refl s

/-! ### Power and start-up (R99, R100) -/

/-- The bounds are taken from the store, where they are the same, and the boundary list is rebuilt (R27). -/
theorem State.BoundsLaw.reread (h : s.BoundsLaw) (hg : t.geometry = s.geometry) (hb : t.work.SameBounds s.work) :
    t.rebuildBoundary.BoundsLaw :=
  h.congr (t := t.rebuildBoundary) hg ((boundaryOf_congr hb).trans h.1.symm) hb

/-- After the rise of power-good nothing is in progress (R99). -/
theorem State.RegionLaw.powerOn (h : s.RegionLaw) :
    (State.atPowerOn s.geometry s.fuses s.stored s.offered s.pending).rebuildBoundary.RegionLaw := by
  obtain ⟨bounds, copies, -, -⟩ := h
  refine ⟨bounds.reread rfl copies.symm, .refl _, ⟨?_, le_refl _, ?_, ?_⟩, ?_⟩
  · exact fun d f e => nomatch e
  · exact fun d e => nomatch e
  · exact fun r g e => nomatch e
  · exact fun image e => nomatch e

theorem State.atPowerOn_locked : (State.atPowerOn s.geometry s.fuses s.stored s.offered
    s.pending).rebuildBoundary.AllLocked := by
  intro r k h
  have locked : (State.atPowerOn s.geometry s.fuses s.stored s.offered s.pending).rebuildBoundary.regions[r]
      = ⟨.locked, .locked, false, 0⟩ := by
    simp [State.atPowerOn, State.rebuildBoundary]
  rw [locked] at h
  cases k <;> cases h

/-- Step 1 reads the store; no unit is left in the commit queue (R100). -/
theorem State.RegionLaw.readStore (h : s.RegionLaw) : s.readStore.RegionLaw := by
  obtain ⟨bounds, copies, ⟨fits, waits, units, draws⟩, -⟩ := h
  have read : s.readStore.work.SameBounds s.stored := fun r hr => by
    simp [State.readStore, State.rebuildBoundary]
  have same : s.readStore.work.SameBounds s.work := read.trans copies.symm
  refine ⟨bounds.reread rfl same, read, ⟨fun d f hd hr hk => ?_, ?_, ?_, draws⟩, fun _ e => nomatch e⟩
  · exact (fits d f hd hr hk).congr rfl same
  · refine le_trans ?_ waits
    rw [State.defineWaits_eq, State.defineWaits_eq]
    exact Nat.add_le_add_left (Nat.zero_le _) _
  · exact fun d e => nomatch e

theorem State.follows_startTicks : s.Follows s.startTicks := by
  unfold State.startTicks
  split
  · exact .of_look rfl
  · exact .of_look rfl
  · exact (State.follows_timeFault 1).after (.of_look rfl)

theorem State.follows_firstSteps : s.readStore.Follows s.firstSteps := by
  have np (t : State) : t.Follows (if t.work.deadlines.dn ≠ 0 then t.chargeNp.askCharge else t) := by
    split
    · exact State.follows_askCharge.after State.follows_chargeNp
    · exact .refl t
  have p (t : State) : t.Follows (if t.work.deadlines.dp ≠ 0 then t.chargeP.askCharge else t) := by
    split
    · exact State.follows_askCharge.after State.follows_chargeP
    · exact .refl t
  exact (p _).after ((np _).after State.follows_startTicks)

/-! ### The step -/

theorem State.follows_takeData (operation : BitVec 32) (offset : Nat) (block : Block) :
    s.Follows (s.takeData operation offset block) := .of_look (by simp [State.look])

theorem State.obeys_takeCompletion (operation : BitVec 32) (good : Bool) (s : State) :
    s.Obeys (s.takeCompletion operation good) := by
  unfold State.takeCompletion
  repeat' split
  · exact .refl s
  · exact .refl s
  · exact (State.follows_release _ _ _).settle

theorem State.follows_grantOnce (g : Grant) : s.Follows (s.grantOnce g) := .of_look (by simp [State.look])

theorem State.obeys_sampleTick (levels : BitVec 4) (s : State) : s.Obeys (s.sampleTick levels) := by
  unfold State.sampleTick
  split
  · exact .refl s
  · exact State.obeys_takeOffered.after (State.follows_stepFive levels).settle
  · exact (State.follows_sample levels).settle
  · exact (State.follows_sample levels).settle

theorem State.obeys_passHead (s : State) : s.Obeys s.passHead := by
  unfold State.passHead
  split
  · rename_i v rest hq _
    split
    · exact State.obeys_startWrite hq
    · exact .refl s
  · exact .refl s

theorem State.obeys_writeEnds (s : State) : s.Obeys s.writeEnds := by
  unfold State.writeEnds
  split
  · rename_i v rest image hq hw
    exact State.obeys_answerDone hq hw
  · exact .refl s

/-- Every command but the end of the store read keeps the law, and opens nothing in LOCKDOWN. -/
theorem State.obeys_exec {i : Instr} (hi : i ≠ .storeReadEnd) (he : Machine.exec i s = .next t) : s.Obeys t := by
  have next {u : State} (hu : Machine.exec i s = .next u) (h : s.Obeys u) : s.Obeys t := by
    rw [hu] at he; cases he; exact h
  have quiet : s.Obeys s.quiet := State.Follows.obeys (.of_look rfl)
  have guarded {c : Prop} [Decidable c] {u : State} (h : s.quiet.Obeys u) : s.Obeys (if c then u else s.quiet) :=
    .ite (fun _ => quiet.trans h) fun _ => quiet
  have settled {u : State} (h : s.quiet.Follows u) : s.Obeys u.settle := quiet.trans h.settle
  cases i with
  | powerGoodRise => exact next rfl ⟨State.RegionLaw.powerOn, fun _ => .inr State.atPowerOn_locked⟩
  | powerGoodFall => exact next rfl (State.Follows.obeys (.of_look rfl))
  | storeReadEnd => exact absurd rfl hi
  | linkReset => exact next rfl (settled State.follows_linkReset_blocks)
  | mediaData operation offset block => exact next rfl (guarded (State.follows_takeData _ _ _).obeys)
  | mediaCompletion operation good => exact next rfl (guarded (State.obeys_takeCompletion _ _ _))
  | mediaTimeout slot => exact next rfl (guarded (State.follows_expire slot).settle)
  | segmentIssue =>
    refine next rfl (quiet.trans (State.Follows.obeys ?_))
    split
    · exact State.follows_grantOnce _
    all_goals exact .refl _
  | chunkIssue =>
    refine next rfl (quiet.trans (State.Follows.obeys ?_))
    split
    · exact State.follows_grantOnce _
    · exact State.follows_grantOnce _
    all_goals exact .refl _
  | secondTick => exact next rfl (guarded State.follows_second.settle)
  | minuteCounted => exact next rfl (guarded State.follows_countMinute.settle)
  | qMark => exact next rfl (guarded State.follows_takeQMark.settle)
  | backoffEnd credential => exact next rfl (guarded (State.Follows.obeys (.of_look rfl)))
  | revertBackoffEnd => exact next rfl (guarded (State.Follows.obeys (.of_look rfl)))
  | sampleTick levels => exact next rfl (quiet.trans (State.obeys_sampleTick levels _))
  | tamperEvent group => exact next rfl (settled (State.follows_eventIfDue group))
  | groupRearm group => exact next rfl (quiet.trans (State.follows_rearmIfDue group).obeys)
  | slowSourceRunning => exact next rfl (quiet.trans State.follows_seeSlow.obeys)
  | timeFaultNeverStarted => exact next rfl (settled State.follows_seeNeverStarted)
  | timeFaultStopped => exact next rfl (settled State.follows_seeStopped)
  | randomSourceReady => 
    have ready : s.quiet.Follows { s.quiet with random := { s.random with ready := true } } :=
      State.follows_draws (le_refl _) fun _ => id
    exact next rfl (quiet.trans ready.obeys)
  | randomDrawEnd bits =>
    exact next rfl (guarded (State.obeys_takeOffered.after (State.obeys_settle.after (State.obeys_endDraw bits))))
  | derivationEnd => exact next rfl (settled State.follows_derivationEnds)
  | conversionEnd nanovolts => exact next rfl (quiet.trans (State.obeys_conversionEnds _))
  | commitWriteStart => exact next rfl (quiet.trans (State.obeys_passHead _))
  | commitWriteEnd => exact next rfl (quiet.trans (State.obeys_writeEnds _))
  | deferredUnitSubmit requester =>
    exact next rfl (quiet.trans (State.obeys_settle.after (State.obeys_submitDeferred requester)))
  | keyDestruction region => exact next rfl (settled (State.follows_destroyIfDue region))
  | responseTake => exact next rfl (settled State.follows_takeIfFree)
  | scrubWalkStart => exact next rfl (settled State.follows_startWalkIfDue)
  | _ => exact next rfl (quiet.trans (State.obeys_request _ _))

/-- Every command keeps the law of the region bounds. -/
theorem State.RegionLaw.exec (h : s.RegionLaw) {i : Instr} (he : Machine.exec i s = .next t) : t.RegionLaw := by
  by_cases hi : i = .storeReadEnd
  · subst hi
    have quiet : s.quiet.RegionLaw := h
    cases he
    split
    · exact State.obeys_settle.law ((quiet.readStore).follows State.follows_firstSteps)
    · exact quiet
  · exact (State.obeys_exec hi he).law h

/-- A command that ends in LOCKDOWN opens no right. -/
theorem State.exec_rightsWithin {i : Instr} (he : Machine.exec i s = .next t)
    (ht : t.work.mode = .lockdown) : t.RightsWithin s := by
  have sealed {u : State} (hu : u.regions = s.regions) (h : u.Seals t) : t.RightsWithin s := by
    have from_u : u.RightsWithin s := .of_regions hu
    rcases h ht with ⟨-, h⟩ | h
    · exact from_u.trans h
    · exact fun r k e => absurd e (h r k)
  by_cases hi : i = .storeReadEnd
  · subst hi
    obtain rfl : (if s.startUp.phase = .reading then s.quiet.firstSteps.settle else s.quiet) = t := by
      injection he
    by_cases hp : s.startUp.phase = .reading
    · rw [if_pos hp] at sealed ⊢
      exact sealed (u := s.quiet.readStore) rfl State.follows_firstSteps.settle.seals
    · rw [if_neg hp]
      exact .of_regions rfl
  · exact sealed (u := s) rfl (State.obeys_exec hi he).seals

end Sys2Proof.Machine

namespace Sys2Proof.Proofs

open Sys2Proof Sys2Proof.Machine

/-- Settles O10: each command keeps the bounds, but for the done answers of a DEFINE-REGION, whose fields fit, and of
a REVERT, which leaves no region enabled. -/
theorem boundsLawKept : Obligations.BoundsLawKept := by
  intro s t h hs
  cases hp : s.pending with
  | nil =>
    rw [step, hp] at hs
    cases hs
    exact h
  | cons c rest =>
    rw [step, hp] at hs
    exact State.RegionLaw.exec (s := { s with pending := rest }) h hs

/-- Settles O12: rights open in a PRESENT's opening and at power-on, outside LOCKDOWN alone. -/
theorem lockdownOpensNothing : Obligations.LockdownOpensNothing := by
  intro s t _ hs ht
  cases hp : s.pending with
  | nil =>
    rw [step, hp] at hs
    cases hs
    exact fun _ _ => id
  | cons c rest =>
    rw [step, hp] at hs
    exact State.exec_rightsWithin (s := { s with pending := rest }) hs ht

end Sys2Proof.Proofs

end

section
/-! PROOFS. Requests carried out in their taking event: LOCK (R30), the boot window (R109, R111) and CLEAR-TAMPER
(R123). -/

namespace Sys2Proof.Machine

variable {s t : State}

/-! ### LOCK (R30) -/

theorem State.lockMask_frame (k : RightKind) (mask : BitVec 16) :
    s.lockMask k mask = { s with regions := (s.lockMask k mask).regions, keys := (s.lockMask k mask).keys } := by
  refine foldl_relates RightsFrame RightsFrame.refl (fun _ _ _ => RightsFrame.trans) _ (fun t r => ?_) _ s
  split
  · exact State.lockRight_frame k r
  · exact .refl t

/-- LOCK of one kind of right at one region. -/
def State.lockNamed (k : RightKind) (mask : BitVec 16) (s : State) (r : RegionIx) : State :=
  if inMask mask r.val && s.work.regions[r].enabled then s.lockRight k r else s

theorem State.lockNamed_work (k : RightKind) (mask : BitVec 16) (r : RegionIx) :
    (s.lockNamed k mask r).work = s.work := by
  unfold State.lockNamed; split <;> simp

theorem State.lockNamed_regions (k : RightKind) (mask : BitVec 16) (r q : RegionIx) :
    (s.lockNamed k mask r).regions[q] =
      if q = r ∧ mask.getLsbD q.val = true ∧ s.work.regions[q].enabled = true then s.regions[q].setRight k .locked
      else s.regions[q] := by
  unfold State.lockNamed
  by_cases hm : (inMask mask r.val && s.work.regions[r].enabled) = true
  · rw [if_pos hm, State.lockRight_regions]
    rw [Bool.and_eq_true] at hm
    by_cases hq : q = r
    · subst hq; rw [if_pos rfl, if_pos ⟨rfl, hm⟩]
    · rw [if_neg hq, if_neg fun h => hq h.1]
  · rw [if_neg hm, if_neg]
    rintro ⟨rfl, h⟩
    exact hm (Bool.and_eq_true _ _ ▸ h)

/-- LOCK locks the named rights of enabled regions, and no others. -/
theorem State.lockMask_regions (k : RightKind) (mask : BitVec 16) (q : RegionIx) : (s.lockMask k mask).regions[q] =
    if mask.getLsbD q.val = true ∧ s.work.regions[q].enabled = true then s.regions[q].setRight k .locked
    else s.regions[q] := by
  have locked (l : List RegionIx) (hl : l.Nodup) (t : State) : (l.foldl (State.lockNamed k mask) t).regions[q] =
      if q ∈ l ∧ mask.getLsbD q.val = true ∧ t.work.regions[q].enabled = true then t.regions[q].setRight k .locked
      else t.regions[q] := by
    induction l generalizing t with
    | nil => simp
    | cons r l ih =>
      obtain ⟨hr, hl⟩ := List.nodup_cons.mp hl
      rw [List.foldl_cons, ih hl, State.lockNamed_work, State.lockNamed_regions]
      by_cases hq : q = r
      · subst hq
        simp only [hr, false_and, if_false, true_and, List.mem_cons_self]
      · simp only [hq, false_and, if_false, List.mem_cons, false_or]
  have all := locked allRegions (by decide) s
  simp only [mem_allRegions, true_and] at all
  exact all

/-- What LOCK leaves, before it is answered. -/
def State.lockedBy (s : State) (rm wm : BitVec 16) (forget : Byte) : State :=
  if yes forget then ((s.lockMask .read rm).lockMask .write wm).clearFlags else (s.lockMask .read rm).lockMask .write wm

theorem State.lockedBy_frame (rm wm : BitVec 16) (forget : Byte) : s.lockedBy rm wm forget = { s with
    regions := (s.lockedBy rm wm forget).regions, keys := (s.lockedBy rm wm forget).keys
    credentials := (s.lockedBy rm wm forget).credentials } := by
  have locked : (s.lockMask .read rm).lockMask .write wm = { s with
      regions := ((s.lockMask .read rm).lockMask .write wm).regions
      keys := ((s.lockMask .read rm).lockMask .write wm).keys } :=
    RightsFrame.trans (State.lockMask_frame .read rm) (State.lockMask_frame .write wm)
  unfold State.lockedBy
  generalize (s.lockMask .read rm).lockMask .write wm = t at locked ⊢
  rw [locked]
  split <;> rfl

theorem State.lockedBy_regions (rm wm : BitVec 16) (forget : Byte) (r : RegionIx) :
    (s.lockedBy rm wm forget).regions[r] = { s.regions[r] with
      read := if rm.getLsbD r.val = true ∧ s.work.regions[r].enabled = true then .locked else s.regions[r].read
      write := if wm.getLsbD r.val = true ∧ s.work.regions[r].enabled = true then .locked
        else s.regions[r].write } := by
  have both : (s.lockedBy rm wm forget).regions = ((s.lockMask .read rm).lockMask .write wm).regions := by
    unfold State.lockedBy; split <;> rfl
  rw [getElem_congr_table both, State.lockMask_regions, State.lockMask_regions]
  simp only [State.lockMask_rest]
  split_ifs <;> rfl

theorem State.lockedBy_credentials (rm wm : BitVec 16) (forget : Byte) (c : CredIx) :
    (s.lockedBy rm wm forget).credentials[c] = { s.credentials[c] with
      presented := s.credentials[c].presented && forget == 0 } := by
  have same : ((s.lockMask .read rm).lockMask .write wm).credentials = s.credentials := by simp
  unfold State.lockedBy
  by_cases h : forget = 0#8
  · rw [if_neg (by simp [yes, h]), getElem_congr_table same]
    simp [h]
  · rw [if_pos (by simp [yes, h]), State.clearFlags_credentials, same]
    simp [h]

theorem exec_lock (h : s.TakesRequests) (rm wm : BitVec 16) (forget : Byte) : exec (.lock rm wm forget) s
    = .next (State.reply s.nextRequest 0x03 .done (bytes16 ((s.working.lockedBy rm wm forget).openMask .read)
      ++ bytes16 ((s.working.lockedBy rm wm forget).openMask .write)) (s.working.lockedBy rm wm forget)) :=
  exec_request_handed (k := 0x03) rfl rfl h rfl

/-! ### The boot window (R109, R111) -/

theorem exec_beginLoad (h : s.TakesAdministrator) :
    exec .beginLoad s = .next (beginLoadRequest s.nextRequest s.working) :=
  exec_request_handed (k := 0x14) rfl rfl h.1 h.2

theorem exec_retireWindow (h : s.TakesRequests) (hp : s.anyPresented = true) :
    exec .retireWindow s = .next (retireWindowRequest s.nextRequest s.working) :=
  exec_request_handed (k := 0x17) rfl rfl h hp

/-! ### CLEAR-TAMPER (R123) -/

theorem toList_map_lines {α β : Type} (v : Vector α 4) (f : α → β) :
    v.toList.map f = ([0, 1, 2, 3] : List LineIx).map fun n => f v[n] := by
  refine List.ext_getElem (by simp) fun k hk _ => ?_
  have hk : k < 4 := by simpa using hk
  interval_cases k <;> simp

/-- The lines with the named flags cleared. -/
def State.clearedLines (s : State) (mask : Byte) : Vector LineStatus 4 :=
  tabMapIx (fun i (x : LineStatus) => if mask.getLsbD i then { x with latched := false } else x) s.tamper.lines

theorem State.clearedLines_getElem (mask : Byte) (n : LineIx) : (s.clearedLines mask)[n] = { s.tamper.lines[n] with
    latched := s.tamper.lines[n].latched && !mask.getLsbD n.val } := by
  rw [State.clearedLines, Fin.getElem_fin, getElem_tabMapIx]
  cases h : mask.getLsbD n.val <;> simp

theorem exec_clearTamper (h : s.TakesAdministrator) (mask : Byte) :
    exec (.clearTamper mask) s = .next (clearTamperRequest s.nextRequest mask s.working) :=
  exec_request_handed (k := 0x0E) rfl rfl h.1 h.2

theorem clearTamperRequest_working (mask : Byte) : clearTamperRequest s.nextRequest mask s.working =
    { s.answered 0x0E .done (([0, 1, 2, 3] : List LineIx).map (fun n => flagByte (s.clearedLines mask)[n].latched)
        ++ ([0, 1, 2, 3] : List LineIx).map fun n => flagByte s.tamper.lines[n].level) with
      tamper := { s.tamper with lines := s.clearedLines mask } } := by
  have levels : ([0, 1, 2, 3] : List LineIx).map (fun n => flagByte (s.clearedLines mask)[n].level)
      = ([0, 1, 2, 3] : List LineIx).map fun n => flagByte s.tamper.lines[n].level :=
    List.map_congr_left fun n _ => by rw [State.clearedLines_getElem]
  unfold clearTamperRequest
  dsimp only
  rw [toList_map_lines, toList_map_lines]
  change State.reply _ _ _
    (_ ++ ([0, 1, 2, 3] : List LineIx).map fun n => flagByte (s.clearedLines mask)[n].level) _ = _
  rw [levels]
  simp only [State.reply, State.working, State.answered, State.nextRequest, if_true]
  rfl

end Sys2Proof.Machine

namespace Sys2Proof.Proofs

open Sys2Proof Sys2Proof.Machine

/-- Settles O54: LOCK by the rights it locks one after another, the others by their one change and reply. -/
theorem requestsActAtOnce : Obligations.RequestsActAtOnce := by
  intro s
  refine ⟨fun rm wm forget h => ?_, fun h => ⟨fun mask => ?_, fun hw => ?_, fun hw => ?_, fun hp hw => ?_⟩,
    fun h hp => ⟨fun hw => ?_, fun hw => ?_, fun hw => ?_⟩⟩
  · refine ⟨_, exec_lock h rm wm forget, ?_, fun r => ?_, fun c => ?_⟩
    · have frame := s.working.lockedBy_frame rm wm forget
      generalize s.working.lockedBy rm wm forget = t at frame ⊢
      rw [frame]
      simp [State.reply, State.working, State.answered, State.nextRequest, State.openMask]
    · rw [getElem_congr_table (w := (s.working.lockedBy rm wm forget).regions) (by simp)]
      exact State.lockedBy_regions rm wm forget r
    · rw [getElem_congr_table (w := (s.working.lockedBy rm wm forget).credentials) (by simp)]
      exact State.lockedBy_credentials rm wm forget c
  · rw [exec_clearTamper h mask, clearTamperRequest_working]
    exact ⟨_, rfl, rfl, fun n => State.clearedLines_getElem mask n⟩
  · rw [exec_beginLoad h, beginLoadRequest, if_pos (by exact hw), State.reply_working]
  · have idle : ¬ s.window.changePending = true := by simp [hw]
    rw [exec_beginLoad h, beginLoadRequest, if_neg (by exact idle), if_pos (by exact congrArg BootWindow.state hw),
      State.reply_working]
  · rw [exec_beginLoad h, beginLoadRequest, if_neg (by exact Bool.eq_false_iff.mp hp), if_neg (by exact hw)]
    simp [State.reply, State.working, State.answered, State.nextRequest, State.setWindowState, hp]
  · rw [exec_retireWindow h hp, retireWindowRequest, if_pos (by exact hw), State.reply_working]
    exact congrArg (fun x => Host.Outcome.next (s.answered 0x17 .busy [windowByte x])) hw
  · have rest : ¬ s.window.state = .loading := by simp [hw]
    rw [exec_retireWindow h hp, retireWindowRequest, if_neg (by exact rest)]
    simp [State.retire, State.reply, State.working, State.answered, State.nextRequest, hw, windowByte]
  · have rest : ¬ s.window.state = .loading := by rcases hw with hw | hw <;> simp [hw]
    have still : s.working.retire = s.working := if_neg (by rcases hw with hw | hw <;> simp [State.working, hw])
    rw [exec_retireWindow h hp, retireWindowRequest, if_neg (by exact rest), still]
    exact congrArg Host.Outcome.next (State.reply_working _ _ _)

end Sys2Proof.Proofs

end

section
/-! PROOFS. The device ratchets (R43): what they forbid of SET-DEADLINE (R132), SET-RESPONSE (R134) and SET-TAMPER
(R121). -/

namespace Sys2Proof.Machine

variable {s t : State}

/-! ### Fields of a message read back -/

theorem levelOf_levelByte (l : Level) : levelOf (levelByte l) = some l := by cases l <;> rfl

theorem severityOf_severityByte (v : Severity) : severityOf (severityByte v) = some v := by cases v <;> rfl

theorem polarityOf_polarityByte (p : Polarity) : polarityOf (polarityByte p) = some p := by cases p <;> rfl

theorem tableSourceOf_eq {b : Byte} {n : SourceIx} (h : b.toNat = n.val) (hn : n ≠ 0) : tableSourceOf b = some n := by
  have positive : 0 < n.val := Nat.pos_of_ne_zero fun e => hn (Fin.ext e)
  rw [tableSourceOf, dif_pos ⟨h ▸ positive, h ▸ n.isLt⟩]
  exact congrArg some (Fin.ext h)

theorem lineIxOf_eq {b : Byte} {n : LineIx} (h : b.toNat = n.val) : lineIxOf b = some n := by
  rw [lineIxOf, dif_pos (h ▸ n.isLt)]
  exact congrArg some (Fin.ext h)

/-- A byte is within any bound that no byte passes. -/
theorem clamp_toNat_byte (lo : Nat) (b : Byte) : clamp lo 255 b.toNat = max lo b.toNat := by
  have := b.isLt
  unfold clamp
  omega

theorem toNat_eq_zero_iff {w : Nat} (b : BitVec w) : b.toNat = 0 ↔ b = 0 :=
  ⟨fun h => BitVec.eq_of_toNat_eq (by simpa using h), fun h => by simp [h]⟩

/-! ### What the device ratchets forbid (R43) -/

theorem clampDp_toNat (dp : BitVec 16) : clampDp dp.toNat = if dp = 0 then 0 else max 30 dp.toNat := by
  unfold clampDp
  by_cases h : dp = 0
  · rw [if_pos ((toNat_eq_zero_iff dp).mpr h), if_pos h]
  · rw [if_neg fun e => h ((toNat_eq_zero_iff dp).mp e), if_neg h]

/-- FIXED-DEADLINES forbids to turn a deadline that is on off or to raise it, and to raise Q (R132). -/
theorem DeadlineRecord.fixedForbids_iff (x : DeadlineRecord) (dp dn q : Nat) : x.fixedForbids dp dn q = true ↔
    (x.dp ≠ 0 ∧ (dp = 0 ∨ x.dp < dp)) ∨ (x.dn ≠ 0 ∧ (dn = 0 ∨ x.dn < dn)) ∨ x.q < q := by
  simp only [DeadlineRecord.fixedForbids, Bool.or_eq_true, Bool.and_eq_true, bne_iff_ne, beq_iff_eq, decide_eq_true_eq,
    or_assoc]

/-- FIXED-RESPONSES forbids to lower a level or a severity (R134). -/
theorem ResponseEntry.fixedForbids_iff (x : ResponseEntry) (l : Level) (v : Severity) : x.fixedForbids l v = true ↔
    l.rank < x.level.rank ∨ (x.severity = .high ∧ v = .low) := by
  simp only [ResponseEntry.fixedForbids, Bool.or_eq_true, Bool.and_eq_true, beq_iff_eq, decide_eq_true_eq]

/-- FIXED-TAMPER forbids, at an enabled line, to disable it, another polarity, and a longer debounce (R121). -/
theorem LineConfig.fixedForbids_iff (x : LineConfig) (e : Byte) (p : Polarity) (d : Nat) :
    x.fixedForbids (yes e) p d = true ↔
      x.enabled = true ∧ (e = 0 ∨ p ≠ x.polarity ∨ x.debounce < d) := by
  simp only [LineConfig.fixedForbids, yes, Bool.or_eq_true, Bool.and_eq_true, Bool.not_eq_true', bne_eq_false_iff_eq,
    bne_iff_ne, decide_eq_true_eq, or_assoc]

/-! ### The guarded requests (R121, R132, R134) -/

theorem exec_setDeadline (h : s.TakesAdministrator) (dp : BitVec 16) (dn q : Byte) :
    exec (.setDeadline dp dn q) s = .next (setDeadlineRequest s.nextRequest dp dn q s.working) :=
  exec_request_handed (k := 0x0F) rfl rfl h.1 h.2

theorem exec_setResponse (h : s.TakesAdministrator) (src l v : Byte) :
    exec (.setResponse src l v) s = .next (setResponseRequest s.nextRequest src l v s.working) :=
  exec_request_handed (k := 0x0B) rfl rfl h.1 h.2

theorem exec_setTamper (h : s.TakesAdministrator) (line e p d : Byte) :
    exec (.setTamper line e p d) s = .next (setTamperRequest s.nextRequest line e p d s.working) :=
  exec_request_handed (k := 0x0D) rfl rfl h.1 h.2

/-- A request that a ratchet refuses where it loosens what the ratchet guards, and that else submits its unit. -/
theorem exec_guarded {i : Instr} {refused t : State} {v : CommitUnit} {c loosens : Prop} [Decidable c]
    (run : exec i s = .next (if c then refused else t.submitNow v)) (hc : c ↔ loosens)
    (ht : t.holds v.requester = s.holds .management) :
    (loosens → exec i s = .next refused)
      ∧ (¬ loosens → s.holds .management = false → ∃ u, exec i s = .next u ∧ State.Submitted t u v) := by
  refine ⟨fun h => ?_, fun h hold => ⟨_, ?_, State.submitNow_submitted (ht.trans hold)⟩⟩
  · rw [run, if_pos (hc.mpr h)]
  · rw [run, if_neg fun e => h (hc.mp e)]

/-- A SET-DEADLINE past its first two checks (R132). -/
theorem exec_setDeadline_fixed (h : s.TakesAdministrator) (dp : BitVec 16) {dn : Byte} (q : Byte)
    (hp : s.deadlines.changePending = false) (hd : dn.toNat ≤ 254)
    (hf : s.work.deviceRatchets.fixedDeadlines = true) : exec (.setDeadline dp dn q) s = .next
      (if s.work.deadlines.fixedForbids (if dp = 0 then 0 else max 30 dp.toNat) dn.toNat (max 5 (min 60 q.toNat)) = true
      then s.answered 0x0F .ratcheted []
      else State.submitNow (.setDeadline s.nextRequest (if dp = 0 then 0 else max 30 dp.toNat) dn.toNat
          (max 5 (min 60 q.toNat)))
        { s.working with deadlines := { s.deadlines with changePending := true } }) := by
  have range : ¬ 254 < dn.toNat := by omega
  have idle : ¬ s.working.deadlines.changePending = true := Bool.eq_false_iff.mp hp
  have fixed : s.working.work.deviceRatchets.fixedDeadlines = true := hf
  rw [exec_setDeadline h, setDeadlineRequest]
  dsimp only
  rw [if_neg range, if_neg idle, State.reply_working, fixed, Bool.true_and, clampDp_toNat, clamp]
  rfl

/-- A SET-RESPONSE past its first two checks (R134). -/
theorem exec_setResponse_fixed (h : s.TakesAdministrator) {src : Byte} {n : SourceIx} (level : Level)
    (severity : Severity) (hp : s.response.changePending = false) (hs : src.toNat = n.val) (hn : n ≠ 0)
    (hf : s.work.deviceRatchets.fixedResponses = true) :
    exec (.setResponse src (levelByte level) (severityByte severity)) s = .next
      (if (s.entryOf n).fixedForbids level severity = true then s.answered 0x0B .ratcheted []
      else State.submitNow (.setResponse s.nextRequest n ⟨level, severity⟩)
        { s.working with response := { s.response with changePending := true } }) := by
  rw [exec_setResponse h, setResponseRequest, tableSourceOf_eq hs hn, levelOf_levelByte, severityOf_severityByte]
  have idle : ¬ s.working.response.changePending = true := Bool.eq_false_iff.mp hp
  have fixed : s.working.work.deviceRatchets.fixedResponses = true := hf
  dsimp only
  rw [if_neg idle, State.reply_working, fixed, Bool.true_and]
  rfl

/-- A SET-TAMPER past its first two checks (R121). -/
theorem exec_setTamper_fixed (h : s.TakesAdministrator) {line : Byte} {n : LineIx} (e d : Byte) (polarity : Polarity)
    (hp : s.tamper.changePending = false) (hl : line.toNat = n.val)
    (hf : s.work.deviceRatchets.fixedTamper = true) :
    exec (.setTamper line e (polarityByte polarity) d) s = .next
      (if s.work.lines[n].fixedForbids (yes e) polarity (max 2 d.toNat) = true then s.answered 0x0D .ratcheted []
      else State.submitNow (.setTamper s.nextRequest n (s.newLine n (yes e) polarity (max 2 d.toNat)))
        { s.working with tamper := { s.tamper with changePending := true } }) := by
  rw [exec_setTamper h, setTamperRequest, lineIxOf_eq hl, polarityOf_polarityByte]
  have idle : ¬ s.working.tamper.changePending = true := Bool.eq_false_iff.mp hp
  have fixed : s.working.work.deviceRatchets.fixedTamper = true := hf
  dsimp only
  rw [if_neg idle, State.reply_working, fixed, Bool.true_and, clamp_toNat_byte]
  rfl

end Sys2Proof.Machine

namespace Sys2Proof.Proofs

open Sys2Proof Sys2Proof.Machine

/-- Settles O56: what each ratchet forbids is the loosening that the statement spells. -/
theorem deviceRatchetsGuard : Obligations.DeviceRatchetsGuard := by
  intro s h
  refine ⟨fun dp dn q hp hd hf => ?_, fun src l v n level severity hp hf hn hn0 hl hv => ?_,
    fun line e p d n polarity hp hf hn hpol => ?_⟩
  · refine exec_guarded (exec_setDeadline_fixed h dp q hp hd hf)
      ((DeadlineRecord.fixedForbids_iff _ _ _ _).trans ?_) rfl
    have bytes : dn.toNat = 0 ↔ dn = 0 := toNat_eq_zero_iff dn
    by_cases off : dp = 0
    · simp [off, bytes]
    · have raised : ¬ max 30 dp.toNat = 0 := by omega
      simp only [off, if_false, raised, bytes, false_or, ne_eq]
  · subst hl hv
    exact exec_guarded (exec_setResponse_fixed h level severity hp hn hn0 hf)
      (ResponseEntry.fixedForbids_iff _ level severity) rfl
  · subst hpol
    exact exec_guarded (exec_setTamper_fixed h e d polarity hp hn hf)
      (LineConfig.fixedForbids_iff _ e polarity _) rfl

end Sys2Proof.Proofs

end

section
/-! PROOFS. DEFINE-REGION and RATCHET: their checks (R37, R44, R47), a disabling in its taking event (R40, R50), and what
a region-definition unit writes and its answers make of it (R38 to R40, R51). -/

namespace Sys2Proof.Machine

variable {s t u : State}

/-- Tables with equal entries are equal. -/
theorem table_ext {α : Type} {n : Nat} {v w : Vector α n} (h : ∀ q : Fin n, v[q] = w[q]) : v = w :=
  Vector.ext fun k hk => h ⟨k, hk⟩

/-! ### A crypto-erase begins and destroys the key (R149, R50) -/

theorem State.lockRight_keys (k : RightKind) (r : RegionIx) : (s.lockRight k r).keys = s.keys
    ∨ s.regions[r].admitted = 0 ∧ (s.lockRight k r).keys = s.keys.set r { s.keys[r] with loaded := none } := by
  unfold State.lockRight
  split
  · exact .inl rfl
  · unfold State.unloadTest
    split
    · rename_i due
      refine .inr ⟨?_, rfl⟩
      simp only [State.unloadDue, Bool.and_eq_true, beq_iff_eq, State.setStatus_regions, getElem_set_fin,
        if_true] at due
      obtain ⟨⟨-, drained⟩, -⟩ := due
      cases k <;> exact drained
    · exact .inl rfl

/-- The key slots where both rights are LOCKED: at most that region's key is unloaded, and that only once it is
drained (R54). -/
theorem State.lockBoth_keys (r : RegionIx) : (s.lockBoth r).keys = s.keys
    ∨ s.regions[r].admitted = 0 ∧ (s.lockBoth r).keys = s.keys.set r { s.keys[r] with loaded := none } := by
  have admitted : (s.lockRight .read r).regions[r].admitted = s.regions[r].admitted := by
    rw [State.lockRight_regions, if_pos rfl]; rfl
  unfold State.lockBoth
  rcases (s.lockRight .read r).lockRight_keys .write r with hw | ⟨drained, hw⟩
  · rw [hw]; exact State.lockRight_keys .read r
  · rw [hw]
    refine .inr ⟨admitted ▸ drained, ?_⟩
    rcases State.lockRight_keys (s := s) .read r with hr | ⟨-, hr⟩
    · rw [hr]
    · rw [hr, Vector.set_set]
      simp

theorem State.beginErase_of_no_list (h : s.work.scrubList = []) (r : RegionIx) (p : Party) (scrub : Bool) :
    s.beginErase r p scrub = { s with
      regions := s.regions.set r ⟨.locked, .locked, true, s.regions[r].admitted⟩
      keys := (s.lockBoth r).keys
      erases := s.erases ++ [⟨r, p, scrub, .begun⟩] } := by
  have frame := s.lockBoth_frame r
  have rights := fun q => State.lockBoth_regions (s := s) r q
  have head : ((s.lockBoth r).setHold r true).holdHead r = (s.lockBoth r).setHold r true :=
    if_neg (by simp [State.scrubHead, State.setHold, h])
  have regions : (s.lockBoth r).regions.set r { (s.lockBoth r).regions[r] with eraseHold := true }
      = s.regions.set r ⟨.locked, .locked, true, s.regions[r].admitted⟩ := by
    have own := rights r
    rw [if_pos rfl] at own
    refine table_ext fun q => ?_
    rw [getElem_set_fin, getElem_set_fin, own, rights]
    split <;> rfl
  unfold State.beginErase
  rw [head]
  unfold State.setHold State.setStatus
  generalize s.lockBoth r = t at frame regions ⊢
  rw [regions, frame]

theorem State.destroyAllDue_of_one {r : RegionIx} {p : Party}
    (h : ∀ q : RegionIx, s.destructionsDue q = if q = r then [p] else [])
    (hd : ∀ q : RegionIx, (s.destroyKey r p).destructionsDue q = []) : s.destroyAllDue = s.destroyKey r p := by
  have one (l : List RegionIx) (hr : r ∈ l) : l.foldl (fun t q => t.destroyIfDue q) s = s.destroyKey r p := by
    induction l with
    | nil => cases hr
    | cons q l ih =>
      rw [List.foldl_cons]
      by_cases hq : q = r
      · subst hq
        have due : s.destroyIfDue q = s.destroyKey q p := by
          rw [State.destroyIfDue, h, if_pos rfl, List.foldl_cons, List.foldl_nil]
        rw [due]
        exact foldl_of_still _ _ (fun k => State.destroyIfDue_of_not_due (hd k)) _
      · rw [State.destroyIfDue_of_not_due ((h q).trans (if_neg hq))]
        exact ih ((List.mem_cons.mp hr).resolve_left (Ne.symm hq))
  exact one allRegions (mem_allRegions r)

/-- A disabling's destruction step: no material is drawn, and the unit is handed over (R40, R46, R50). -/
theorem State.destroyKey_disabling {d : DefineRequest} (hd : s.define = some d) {r : RegionIx}
    (hg : s.keys[r].highestDrawn ≠ lastGeneration) : s.destroyKey r .disabling = State.submit (.regionDefinition d)
      { s with
        keys := s.keys.set r ⟨s.keys[r].highestDrawn + 1, none⟩
        work := { s.work with keys := s.work.keys.set r ⟨s.keys[r].highestDrawn + 1, none⟩ }
        erases := s.erases.map fun e => if e.region = r ∧ e.party = .disabling then { e with stage := .committing }
          else e } := by
  have spent : ¬ (s.setSlotKey r { s.keys[r] with loaded := none }).spent r = true := by
    rw [State.spent, beq_iff_eq]
    change ¬ (s.keys.set r _)[r].highestDrawn = lastGeneration
    rw [getElem_set_fin, if_pos rfl]
    exact hg
  unfold State.destroyKey
  dsimp only
  rw [if_neg spent, if_neg (by simp [drawsMaterial])]
  unfold State.keyComplete
  dsimp only
  split
  · rename_i e he
    obtain rfl : e = d := Option.some.inj (he.symm.trans hd)
    congr 1
    simp [State.setEraseStage, State.takeGeneration, State.setSlotKey, State.setKey, State.nextGeneration]
  · rename_i he
    cases he.symm.trans hd

/-- The end of an event in which, at most, destructions are due and the gate takes the head. -/
theorem State.settle_of_destroyed (hr : s.ResponseStill) (hd : s.destroyAllDue = t) (hp : t.startUp.phase ≠ .resuming)
    (hl : t.work.scrubList = []) (hg : t.nextGrant = .nothing) : s.settle = t.serveStore := by
  simp only [State.settle, State.takeIfFree_of_still hr, hd, State.progress_of_not_resuming hp,
    State.startWalkIfDue_of_not_due (State.walkDue_of_no_list hl), State.serveMedia_of_no_list hl hg]

/-- A disabling of region r has begun, and no other crypto-erase is under way (R40, R149). -/
def State.disablingBegun (s : State) (r : RegionIx) : State := { s with
  regions := s.regions.set r ⟨.locked, .locked, true, s.regions[r].admitted⟩
  keys := (s.lockBoth r).keys
  erases := [⟨r, .disabling, false, .begun⟩] }

theorem State.beginDisabling_of_calm (h : s.Calm) (i : Nat) (r : RegionIx) : s.beginDisabling i r
    = (State.disablingBegun { s with define := some ⟨i, r, .disabling⟩ } r).settle := by
  obtain ⟨-, erases, -, list, -⟩ := h
  have begun := State.beginErase_of_no_list (s := { s with define := some ⟨i, r, .disabling⟩ }) list r .disabling false
  rw [State.beginDisabling, begun]
  simp only [erases, List.nil_append]
  rfl

/-- The one crypto-erase is due once its region is drained. -/
theorem State.disablingBegun_due (h : s.work.scrubList = []) (r q : RegionIx) :
    (s.disablingBegun r).destructionsDue q = if q = r ∧ s.regions[r].admitted = 0 then [.disabling] else [] := by
  have head : (s.disablingBegun r).scrubHead = none := by simp [State.scrubHead, State.disablingBegun, h]
  have admitted : (s.disablingBegun r).regions[q].admitted = s.regions[q].admitted := by
    change (s.regions.set r _)[q].admitted = _
    rw [getElem_set_fin]
    split
    · rename_i e; rw [e]
    · rfl
  unfold State.destructionsDue
  rw [head, admitted]
  by_cases hq : q = r
  · subst hq
    by_cases ha : s.regions[q].admitted = 0
    · rw [if_pos ⟨ha, by simp⟩, if_pos ⟨rfl, ha⟩]
      simp [State.disablingBegun]
    · rw [if_neg fun n => ha n.1, if_neg fun n => ha n.2]
  · have others : (s.disablingBegun r).erases.filter (fun e => e.region == q && e.stage == .begun) = [] := by
      simp [State.disablingBegun, Ne.symm hq]
    rw [others, List.map_nil, ite_self, if_neg fun n => hq n.1]

/-- A disabling in its taking event, the region not drained: it waits (R40). -/
theorem State.settle_disablingBegun_waits (h : s.Calm) (hs : s.StoreStill) {r : RegionIx}
    (ha : s.regions[r].admitted ≠ 0) : (s.disablingBegun r).settle = { s with
      regions := s.regions.set r ⟨.locked, .locked, true, s.regions[r].admitted⟩
      erases := [⟨r, .disabling, false, .begun⟩] } := by
  obtain ⟨still, -, phase, list, grant⟩ := h
  have none_due (q : RegionIx) : (s.disablingBegun r).destructionsDue q = [] := by
    rw [State.disablingBegun_due list, if_neg fun n => ha n.2]
  have keys : (s.lockBoth r).keys = s.keys := (State.lockBoth_keys r).resolve_right fun n => ha n.1
  have idle : (s.disablingBegun r).nextGrant = .nothing := State.nextGrant_nothing_congr grant rfl rfl rfl
  have ended : (s.disablingBegun r).settle = (s.disablingBegun r).serveStore :=
    State.settle_of_destroyed still (State.destroyAllDue_of_not_due none_due) phase list idle
  rw [ended, State.serveStore_of_still (s := s.disablingBegun r) hs]
  unfold State.disablingBegun
  rw [keys]

/-- A disabling has destroyed the key of region r: a record one generation higher, without material (R46, R50). -/
def State.disablingDestroyed (s : State) (r : RegionIx) : State := { s with
  regions := s.regions.set r ⟨.locked, .locked, true, s.regions[r].admitted⟩
  erases := [⟨r, .disabling, false, .committing⟩]
  keys := s.keys.set r ⟨s.keys[r].highestDrawn + 1, none⟩
  work := { s.work with keys := s.work.keys.set r ⟨s.keys[r].highestDrawn + 1, none⟩ } }

theorem State.lockBoth_keys_set (r : RegionIx) (x : KeySlot) : (s.lockBoth r).keys.set r x = s.keys.set r x := by
  rcases State.lockBoth_keys (s := s) r with h | ⟨-, h⟩
  · rw [h]
  · rw [h, Vector.set_set]

theorem State.lockBoth_highestDrawn (r : RegionIx) :
    (s.lockBoth r).keys[r].highestDrawn = s.keys[r].highestDrawn := by
  rcases State.lockBoth_keys (s := s) r with h | ⟨-, h⟩
  · rw [h]
  · rw [h, getElem_set_fin, if_pos rfl]

theorem State.destroyKey_disablingBegun {d : DefineRequest} (hd : s.define = some d) {r : RegionIx}
    (hg : s.keys[r].highestDrawn ≠ lastGeneration) :
    (s.disablingBegun r).destroyKey r .disabling = State.submit (.regionDefinition d) (s.disablingDestroyed r) := by
  have highest : (s.disablingBegun r).keys[r].highestDrawn = s.keys[r].highestDrawn := State.lockBoth_highestDrawn r
  have keys := State.lockBoth_keys_set (s := s) r ⟨s.keys[r].highestDrawn + 1, none⟩
  have begun : (s.disablingBegun r).define = some d := hd
  rw [State.destroyKey_disabling begun (by rw [highest]; exact hg), highest]
  congr 1
  unfold State.disablingBegun State.disablingDestroyed
  dsimp only
  rw [keys]
  simp

/-- A disabling in its taking event, the region drained: the key is gone and the unit is submitted (R40, R46, R50). -/
theorem State.settle_disablingBegun_drained (h : s.Calm) {d : DefineRequest} (hd : s.define = some d) {r : RegionIx}
    (ha : s.regions[r].admitted = 0) (hg : s.keys[r].highestDrawn ≠ lastGeneration) :
    (s.disablingBegun r).settle = State.submitNow (.regionDefinition d) (s.disablingDestroyed r) := by
  obtain ⟨still, -, phase, list, grant⟩ := h
  have destroyed := State.destroyKey_disablingBegun hd hg
  have due : (s.disablingBegun r).destroyAllDue = State.submit (.regionDefinition d) (s.disablingDestroyed r) := by
    refine (State.destroyAllDue_of_one (fun q => ?_) (State.destructionsDue_of_none_begun ?_)).trans destroyed
    · rw [State.disablingBegun_due list]
      simp only [ha, and_true]
    · rw [destroyed]
      simp [State.disablingDestroyed]
  have submitted : (State.submit (.regionDefinition d) (s.disablingDestroyed r)).nextGrant = .nothing :=
    State.nextGrant_nothing_congr grant (by simp [State.disablingDestroyed]) (by simp [State.disablingDestroyed])
      (by simp [State.disablingDestroyed])
  exact State.settle_of_destroyed still due (by simpa [State.disablingDestroyed] using phase)
    (by simpa [State.disablingDestroyed] using list) submitted

/-! ### The eighth low code (R168, R169) -/

theorem trials_zero (n code : Nat) : trials n 0 code = code := rfl

/-- One trial more. What a trial compares is set aside first: the kernel would count its constants down. -/
theorem trials_succ (n k code : Nat) : trials n (k + 1) code =
    trials n k (if keepsTrial n (code + 2 ^ k) then code + 2 ^ k else code) := by
  delta trials trials._f
  generalize keepsTrial = keeps
  rfl

/-- A trial is kept up to the rounded voltage (R168). -/
theorem keepsTrial_iff (n : Nat) {trial : Nat} (h : 0 < trial) :
    keepsTrial n trial = true ↔ trial ≤ (512 * n + 3300000000) / 6600000000 := by
  rw [keepsTrial, decide_eq_true_eq, Nat.le_div_iff_mul_le (by decide)]
  obtain ⟨k, rfl⟩ := Nat.exists_eq_add_of_le' h
  omega

/-- Trials from a code that is not above a bound raise it to that bound, as far as they reach. -/
theorem trials_eq_min {n bound : Nat} (keeps : ∀ trial, 0 < trial → (keepsTrial n trial = true ↔ trial ≤ bound))
    (k code : Nat) (h : code ≤ bound) : trials n k code = min (code + 2 ^ k - 1) bound := by
  induction k generalizing code with
  | zero => rw [trials_zero]; omega
  | succ k ih =>
    have power : 0 < 2 ^ k := by positivity
    have doubled : 2 ^ (k + 1) = 2 ^ k + 2 ^ k := by ring
    have kept := keeps (code + 2 ^ k) (by omega)
    rw [trials_succ]
    by_cases hk : code + 2 ^ k ≤ bound
    · rw [if_pos (kept.mpr hk), ih _ hk]
      omega
    · rw [if_neg fun e => hk (kept.mp e), ih _ h]
      omega

theorem conversionCode_eq (n : Nat) : conversionCode n = min 255 ((512 * n + 3300000000) / 6600000000) :=
  trials_eq_min (fun _ => keepsTrial_iff n) 8 0 (Nat.zero_le _)

/-- The state in which the requester of a unit that was alone in the queue takes the failed write's answer. -/
def State.spurned (s : State) (v : CommitUnit) (code : Nat) : State := { s with
  sent := [], store := emptyStore
  alerts := s.alerts.arrive ⟨.storeUnsafe, .high, none, none, some v.number, s.time.stamp, 0⟩
  holdup := { s.holdup with
    latestCode := code, converting := decide (s.gateMode = .continuous ∧ s.startUp.powerGood = true), lowCount := 0 } }

/-- The eighth low code of a head that is alone in the queue: its requester takes the failed write's answer (R169). -/
theorem exec_eighthLow {v : CommitUnit} {nanovolts : BitVec 32} (h : s.MeetsEighthLow v nanovolts)
    (hs : (State.unitUnsafe v (s.spurned v (conversionCode nanovolts.toNat))).store = emptyStore)
    (hc : (State.unitUnsafe v (s.spurned v (conversionCode nanovolts.toNat))).Calm) :
    exec (.conversionEnd nanovolts) s
      = .next (State.unitUnsafe v (s.spurned v (conversionCode nanovolts.toNat))) := by
  obtain ⟨queue, deferred, waiting, power, converting, count, episode, low⟩ := h
  generalize hcode : conversionCode nanovolts.toNat = code at hs hc ⊢
  have below : ¬ s.work.holdup.threshold ≤ code := by rw [← hcode, conversionCode_eq]; omega
  have run : exec (.conversionEnd nanovolts) s = .next (s.quiet.conversionEnds code) := by rw [← hcode]; rfl
  have recorded : s.quiet.conversionEnds code = (s.quiet.recordCode code).codeLow code := by
    rw [State.conversionEnds, if_pos (by exact converting)]
    exact if_neg below
  have entered : (s.quiet.recordCode code).enterEpisode code = s.quiet.recordCode code := if_pos episode
  have answered : (s.quiet.recordCode code).codeLow code = (s.quiet.recordCode code).answerUnsafe v := by
    have decided : (s.quiet.recordCode code).decides = true := by
      simp [State.decides, State.recordCode, waiting, power]
    have eighth : 8 ≤ (s.quiet.recordCode code).holdup.lowCount + 1 := by
      change 8 ≤ s.holdup.lowCount + 1
      omega
    have head : (s.quiet.recordCode code).store.queue = [v] := queue
    rw [State.codeLow, entered]
    simp only [head, decided, if_true, eighth]
  have store : (s.quiet.recordCode code).popHead.store = emptyStore := by
    simp [State.popHead, State.recordCode, queue, deferred, emptyStore]
  have spurned : State.alert .storeUnsafe .high none none (some v.number) 0
      { (s.quiet.recordCode code).popHead with holdup := { (s.quiet.recordCode code).holdup with lowCount := 0 } }
      = s.spurned v code := by
    have filled (x : SecureStore) (hx : x = emptyStore) : State.alert .storeUnsafe .high none none (some v.number) 0
        { s.quiet.recordCode code with
          store := x, holdup := { (s.quiet.recordCode code).holdup with lowCount := 0 } } = s.spurned v code := by
      rw [hx]; rfl
    exact filled _ store
  rw [run, recorded, answered, State.answerUnsafe]
  dsimp only
  rw [spurned, State.submitDeferred_none _ (by rw [hs]; rfl), State.settle_of_calm_empty hc (by rw [hs]; rfl)]

/-! ### DEFINE-REGION's checks (R37) -/

theorem regionIxOf_ofNat (r : RegionIx) : regionIxOf (BitVec.ofNat 8 r.val) = some r := by revert r; decide

theorem regionIxOf_none {b : Byte} (h : 15 < b.toNat) : regionIxOf b = none := dif_neg (by omega)

theorem yes_eq_false_iff (b : Byte) : yes b = false ↔ b = 0 := by
  rw [yes, bne_eq_false_iff_eq]

theorem exec_defineRegion (h : s.TakesAdministrator) (b e : Byte) (start length : BitVec 48) (pr pw cl ab : Byte) :
    exec (.defineRegion b e start length pr pw cl ab) s
      = .next (defineRegionRequest s.nextRequest b e start length pr pw cl ab s.working) :=
  exec_request_handed (k := 0x09) rfl rfl h.1 h.2

/-- The range of a request meets another enabled region 1 to 15 (R37 check 6). -/
theorem State.meetsOther_iff (r : RegionIx) (e : Extent) : s.meetsOther r e = true ↔
    ∃ q : RegionIx, q ≠ 0 ∧ q ≠ r ∧ s.work.regions[q].enabled = true
      ∧ ∃ y, s.work.regions[q].extent = some y ∧ e.start < y.start + y.length ∧ y.start < e.start + e.length := by
  unfold State.meetsOther
  rw [List.any_eq_true]
  refine exists_congr fun q => ?_
  cases s.work.regions[q].extent with
  | none => simp
  | some y => simp [overlaps, and_assoc]

theorem RegionRecord.ratchetForbids_none (x : RegionRecord) : x.ratchetForbids none = x.ratchets.fixedBounds := by
  simp [RegionRecord.ratchetForbids]

section
variable (id : Nat) (start length : BitVec 48) (pr pw cl ab : Byte)

theorem defineRegionRequest_unknown {b : Byte} (h : 15 < b.toNat) (e : Byte) :
    defineRegionRequest id b e start length pr pw cl ab s = s.reply id 0x09 .badRequest [] := by
  rw [defineRegionRequest, regionIxOf_none h]

theorem defineRegionRequest_zero :
    defineRegionRequest id (BitVec.ofNat 8 (0 : RegionIx).val) 0 start length pr pw cl ab s
      = s.reply id 0x09 .badRequest [] := by
  rw [defineRegionRequest, regionIxOf_ofNat]
  exact if_pos ⟨rfl, rfl⟩

/-- Region 0 cannot be disabled; any other request names something that it asks for. -/
theorem not_disables_zero {r : RegionIx} {e : Byte} (h : r ≠ 0 ∨ e ≠ 0) : ¬ (r = 0 ∧ yes e = false) :=
  fun n => h.elim (absurd n.1) fun k => k ((yes_eq_false_iff e).mp n.2)

theorem defineRegionRequest_busy {r : RegionIx} {e : Byte} (h : r ≠ 0 ∨ e ≠ 0) (busy : s.define ≠ none) :
    defineRegionRequest id (BitVec.ofNat 8 r.val) e start length pr pw cl ab s = s.reply id 0x09 .busy [] := by
  rw [defineRegionRequest, regionIxOf_ofNat]
  dsimp only
  rw [if_neg (not_disables_zero h), if_pos (Option.isSome_iff_ne_none.mpr busy)]

theorem defineRegionRequest_active {r : RegionIx} {e : Byte} (h : r ≠ 0 ∨ e ≠ 0) (idle : s.define = none)
    (active : s.response.running ≠ none) : defineRegionRequest id (BitVec.ofNat 8 r.val) e start length pr pw cl ab s
      = s.reply id 0x09 .responseActive [] := by
  rw [defineRegionRequest, regionIxOf_ofNat]
  dsimp only
  rw [if_neg (not_disables_zero h), if_neg (Option.not_isSome_iff_eq_none.mpr idle),
    if_pos (Option.isSome_iff_ne_none.mpr active)]

theorem defineRegionRequest_listed {r : RegionIx} {e : Byte} (h : r ≠ 0 ∨ e ≠ 0) (idle : s.define = none)
    (free : s.response.running = none) (listed : s.work.scrubList ≠ []) :
    defineRegionRequest id (BitVec.ofNat 8 r.val) e start length pr pw cl ab s = s.reply id 0x09 .scrubActive [] := by
  rw [defineRegionRequest, regionIxOf_ofNat]
  dsimp only
  rw [if_neg (not_disables_zero h), if_neg (Option.not_isSome_iff_eq_none.mpr idle),
    if_neg (Option.not_isSome_iff_eq_none.mpr free), if_pos listed]

end

/-- Nothing that a DEFINE-REGION waits for stands (R37 checks 2 to 4). -/
def State.DefineFree (s : State) : Prop :=
  s.define = none ∧ s.response.running = none ∧ s.work.scrubList = []

/-- A disabling past the first four checks (R37, R40). -/
theorem defineRegionRequest_disabling (h : s.DefineFree) (id : Nat) {r : RegionIx} (hr : r ≠ 0)
    (start length : BitVec 48) (pr pw cl ab : Byte) :
    defineRegionRequest id (BitVec.ofNat 8 r.val) 0 start length pr pw cl ab s =
      if s.work.regions[r].enabled = false then s.reply id 0x09 .done []
      else if s.work.regions[r].ratchets.fixedBounds = true then s.reply id 0x09 .ratcheted []
      else s.beginDisabling id r := by
  obtain ⟨idle, free, list⟩ := h
  have off : yes 0 = false := rfl
  rw [defineRegionRequest, regionIxOf_ofNat]
  simp only [hr, idle, free, list, off, RegionRecord.ratchetForbids_none]
  simp

/-- The fields of a request that enables or changes region r. -/
def definedFields (r : RegionIx) (start length : BitVec 48) (pr pw cl ab : Byte) : RegionFields :=
  ⟨if r = 0 then none else some ⟨start.toNat, length.toNat⟩, rightOf pr, rightOf pw, cl != 0, ab != 0⟩

/-- FIXED-BOUNDS and FIXED-FLAGS forbid other bounds, and conceal and absorb turned off (R42). -/
theorem RegionRecord.ratchetForbids_defined_iff (x : RegionRecord) (r : RegionIx) (start length : BitVec 48)
    (pr pw cl ab : Byte) : x.ratchetForbids (some (definedFields r start length pr pw cl ab)) = true ↔
      x.ratchets.fixedBounds = true ∧ (definedFields r start length pr pw cl ab).extent ≠ x.extent
        ∨ x.ratchets.fixedFlags = true ∧ (x.conceal = true ∧ cl = 0 ∨ x.absorb = true ∧ ab = 0) := by
  simp only [RegionRecord.ratchetForbids, Bool.or_eq_true, Bool.and_eq_true, bne_iff_ne, Bool.not_eq_true']
  simp only [definedFields, bne_eq_false_iff_eq]

/-- An enabling or a change past the first four checks (R37 to R39, R47). -/
theorem defineRegionRequest_enabling (h : s.DefineFree) (id : Nat) (r : RegionIx) {e : Byte} (he : e ≠ 0)
    (start length : BitVec 48) (pr pw cl ab : Byte) :
    defineRegionRequest id (BitVec.ofNat 8 r.val) e start length pr pw cl ab s =
      if r ≠ 0 ∧ ¬ (0 < length.toNat ∧ start.toNat + length.toNat ≤ s.geometry.capacity) then s.reply id 0x09 .range []
      else if r ≠ 0 ∧ s.meetsOther r ⟨start.toNat, length.toNat⟩ = true then s.reply id 0x09 .overlap []
      else if s.work.regions[r].ratchetForbids (some (definedFields r start length pr pw cl ab)) then
        s.reply id 0x09 .ratcheted []
      else if s.work.regions[r].enabled = true then s.beginChange id r (definedFields r start length pr pw cl ab)
      else if s.spent r then s.reply id 0x09 .range []
      else s.beginEnabling id r (definedFields r start length pr pw cl ab) := by
  obtain ⟨idle, free, list⟩ := h
  have on : yes e = true := bne_iff_ne.mpr he
  have range : (length.toNat = 0 ∨ s.geometry.capacity ≤ start.toNat
      ∨ s.geometry.capacity < start.toNat + length.toNat)
      ↔ ¬ (0 < length.toNat ∧ start.toNat + length.toNat ≤ s.geometry.capacity) := by omega
  rw [defineRegionRequest, regionIxOf_ofNat]
  dsimp only
  rw [if_neg (by simp [on]), if_neg (by simp [idle]), if_neg (by simp [free]), if_neg (by simp [list]),
    if_neg (by simp [on])]
  simp only [on, true_and, range, Bool.true_eq_false, if_false]
  rfl

theorem drawKey_of_idle (hq : s.random.queue = []) (r : RegionIx) (use : DrawUse) : s.drawKey r use = { s with
    keys := s.keys.set r { s.keys[r] with highestDrawn := s.keys[r].highestDrawn + 1 }
    random := { s.random with queue := [.key r (s.keys[r].highestDrawn + 1) use] } } := by
  simp [State.drawKey, State.takeGeneration, State.setSlotKey, State.requestDraw, hq, State.nextGeneration]

/-! ### RATCHET's checks (R44) -/

theorem regionSetOf_regionSetByte (rs : RegionRatchets) : regionSetOf (regionSetByte rs) = some rs := by
  obtain ⟨a, b, c, d⟩ := rs
  revert a b c d
  decide

theorem deviceSetOf_deviceSetByte (ds : DeviceRatchets) : deviceSetOf (deviceSetByte ds) = some ds := by
  obtain ⟨a, b, c⟩ := ds
  revert a b c
  decide

theorem regionSetOf_none {b : Byte} (h : 15 < b.toNat) : regionSetOf b = none := if_neg (by omega)

theorem deviceSetOf_none {b : Byte} (h : 7 < b.toNat) : deviceSetOf b = none := if_neg (by omega)

/-- The sets of the named regions and of the device are the ones that the statements spell out (R44, R182). -/
theorem State.ratchetBytes_eq (s : State) (mask : BitVec 16) : s.ratchetBytes mask = s.ratchetSets mask := by
  have region (x : RegionRatchets) : regionSetByte x
      = flagsByte [x.fixedBounds, x.fixedGrants, x.fixedFlags, x.theftWipe] := by
    rw [regionSetByte, packByte_eq_flagsByte, flagsByte_four]
  have device (x : DeviceRatchets) : deviceSetByte x
      = flagsByte [x.fixedResponses, x.fixedTamper, x.fixedDeadlines] := by
    obtain ⟨a, b, c⟩ := x
    revert a b c
    decide
  simp only [State.ratchetBytes, State.ratchetSets, region, device]
  rfl

/-- A disabling is in progress (R40). -/
theorem State.any_disabling_iff : (allRegions.any fun r => s.disabling r) = true ↔
    ∃ d, s.define = some d ∧ d.kind = .disabling := by
  rw [List.any_eq_true]
  constructor
  · rintro ⟨r, -, h⟩
    unfold State.disabling at h
    split at h
    · rename_i d hd
      exact ⟨d, hd, by simpa using (Bool.and_eq_true_iff.mp h).2⟩
    · cases h
  · rintro ⟨d, hd, hk⟩
    exact ⟨d.region, mem_allRegions _, by simp [State.disabling, hd, hk]⟩

/-- A region of the mask is not enabled (R44). -/
theorem State.any_unknown_iff (mask : BitVec 16) :
    (allRegions.any fun r => inMask mask r.val && !s.work.regions[r].enabled) = true ↔
      ¬ ∀ r : RegionIx, mask.getLsbD r.val = true → s.work.regions[r].enabled = true := by
  rw [List.any_eq_true]
  push Not
  refine exists_congr fun r => ?_
  rw [Bool.and_eq_true, Bool.not_eq_true', ← Bool.not_eq_true]
  exact and_iff_right (mem_allRegions r)

/-- A RATCHET adds nothing (R44). -/
theorem State.ratchetsNothing_iff (mask : BitVec 16) (rs : RegionRatchets) (ds : DeviceRatchets) :
    s.ratchetsNothing mask rs ds = true ↔ ¬ ((∃ r : RegionIx, mask.getLsbD r.val = true
        ∧ s.work.regions[r].ratchets.union rs ≠ s.work.regions[r].ratchets)
      ∨ s.work.deviceRatchets.union ds ≠ s.work.deviceRatchets) := by
  rw [State.ratchetsNothing, Bool.and_eq_true, List.all_eq_true, beq_iff_eq]
  push Not
  refine and_congr_left fun _ => forall_congr' fun r => ?_
  rw [Bool.or_eq_true, Bool.not_eq_true', beq_iff_eq, inMask, ← Bool.not_eq_true, ← imp_iff_not_or]
  exact imp_iff_right (mem_allRegions r)

theorem exec_ratchet (h : s.TakesAdministrator) (mask : BitVec 16) (b d : Byte) :
    exec (.ratchet mask b d) s = .next (ratchetRequest s.nextRequest mask b d s.working) :=
  exec_request_handed (k := 0x0A) rfl rfl h.1 h.2

/-- A RATCHET whose sets are known (R44). -/
theorem ratchetRequest_known (id : Nat) (mask : BitVec 16) (rs : RegionRatchets) (ds : DeviceRatchets) :
    ratchetRequest id mask (regionSetByte rs) (deviceSetByte ds) s =
      if rs.fixedBounds = true ∧ mask.getLsbD 0 = true ∨ rs ≠ ⟨false, false, false, false⟩ ∧ mask = 0 then
        s.reply id 0x0A .badRequest []
      else if allRegions.any fun r => s.disabling r then s.reply id 0x0A .busy []
      else if allRegions.any fun r => inMask mask r.val && !s.work.regions[r].enabled then s.reply id 0x0A .notFound []
      else if s.ratchetsNothing mask rs ds then s.reply id 0x0A .done (s.ratchetSets mask)
      else s.submitNow (.ratchet id mask rs ds) := by
  rw [ratchetRequest, regionSetOf_regionSetByte, deviceSetOf_deviceSetByte, ← State.ratchetBytes_eq]
  rfl

/-! ### A disabling in its taking event (R40) -/

/-- What calm looks at is the same once a DEFINE-REGION has been taken and has begun. -/
theorem State.Calm.begun (h : s.Calm) (d : DefineRequest) : State.Calm { s.working with define := some d } := by
  obtain ⟨still, erases, phase, list, grant⟩ := h
  exact ⟨still, erases, phase, list, State.nextGrant_nothing_congr grant rfl rfl rfl⟩

/-- A disabling that no check refuses (R40). -/
theorem exec_disabling (h : s.TakesAdministrator) (calm : s.Calm) (idle : s.define = none)
    (free : s.response.running = none) {r : RegionIx} (hr : r ≠ 0) (on : s.work.regions[r].enabled = true)
    (fixed : s.work.regions[r].ratchets.fixedBounds = false) (start length : BitVec 48) (pr pw cl ab : Byte) :
    exec (.defineRegion (BitVec.ofNat 8 r.val) 0 start length pr pw cl ab) s = .next (State.settle
      (State.disablingBegun { s.working with define := some ⟨s.nextRequest, r, .disabling⟩ } r)) := by
  obtain ⟨still, erases, phase, list, grant⟩ := id calm
  have enabled : ¬ s.working.work.regions[r].enabled = false := fun off => by cases on.symm.trans off
  have loose : ¬ s.working.work.regions[r].ratchets.fixedBounds = true := Bool.eq_false_iff.mp fixed
  have taken : s.working.Calm := ⟨still, erases, phase, list, State.nextGrant_nothing_congr grant rfl rfl rfl⟩
  rw [exec_defineRegion h, defineRegionRequest_disabling (by exact ⟨idle, free, list⟩) _ hr, if_neg enabled,
    if_neg loose,
    State.beginDisabling_of_calm taken]

/-! ### The region-definition unit and its answers (R38 to R40, R51) -/

theorem Condition.storable_of_ne {c : Condition} (h : c ≠ .scrubbing) : c.storable = c := by
  cases c <;> first | rfl | exact absurd rfl h

/-- A change writes the new fields over a condition that the store can hold (R34, R39). -/
theorem State.image_change (id : Nat) {r : RegionIx} (f : RegionFields)
    (h : s.work.regions[r].condition ≠ .scrubbing) :
    s.image (.regionDefinition ⟨id, r, .change f⟩) = { s.stored with
      regions := s.stored.regions.set r { s.work.regions[r] with
        extent := f.extent, powerOnRead := f.powerOnRead, powerOnWrite := f.powerOnWrite
        conceal := f.conceal, absorb := f.absorb } } := by
  have stored : s.storableRegion r = s.work.regions[r] := by
    unfold State.storableRegion
    rw [Condition.storable_of_ne h]
  change s.stored.setRegion r { s.storableRegion r with
    extent := f.extent, powerOnRead := f.powerOnRead, powerOnWrite := f.powerOnWrite
    conceal := f.conceal, absorb := f.absorb } = _
  rw [stored]
  rfl

theorem State.entryToStart_of_no_list (h : s.work.scrubList = []) (r : RegionIx) : s.entryToStart r = s := by
  have head : ¬ s.scrubHead = some r := by simp [State.scrubHead, h]
  unfold State.entryToStart
  simp only [if_neg head]
  rw [h, List.map_nil, ← h]

/-- The last crypto-erase of a region ends with its disabling (R40). -/
theorem State.endDisabling_of_one {r : RegionIx} (h : s.erases = [⟨r, .disabling, false, .committing⟩]) :
    s.endDisabling r = { s with
      regions := s.regions.set r { s.regions[r] with eraseHold := false }, erases := [], define := none } := by
  have dropped : s.dropErase r .disabling = { s with erases := [] } := by simp [State.dropErase, h]
  rw [State.endDisabling, dropped]
  rfl

theorem State.afterDisabling_of_none (h : s.erases = []) (r : RegionIx) : s.afterDisabling r = s := by
  simp [State.afterDisabling, State.eraseOf, h]

/-- The working region table with region d's record put in its place, and the boundary list rebuilt. -/
def State.redefined (s : State) (d : DefineRequest) (x : RegionRecord) : State := { s with
  work := { s.work with regions := s.work.regions.set d.region x }
  boundary := boundaryOf (s.work.regions.set d.region x)
  define := none }

/-- The record a change leaves in the working copy (R39). -/
def changedRecord (x : RegionRecord) (f : RegionFields) : RegionRecord := { x with
  extent := f.extent, powerOnRead := f.powerOnRead, powerOnWrite := f.powerOnWrite
  conceal := f.conceal, absorb := f.absorb }

section
variable {d : DefineRequest} (hc : s.management.current = some d.id)
include hc

theorem State.defineDone_enabling {f : RegionFields} (hk : d.kind = .enabling f) : ∃ t, s.defineDone d = t ∧ t =
    { s.redefined d s.stored.regions[d.region] with
      regions := s.regions.set d.region ⟨.locked, .locked, false, 0⟩
      keys := s.keys.set d.region { s.keys[d.region] with loaded := none }
      management := s.replied 0x09 .done (t.summary d.region) } := by
  refine ⟨_, rfl, ?_⟩
  unfold State.defineDone
  simp only [hk]
  rw [State.reply_current (by exact hc), State.regionSummary_eq]
  rfl

theorem State.defineDone_change (hl : s.work.scrubList = []) {f : RegionFields} (hk : d.kind = .change f) :
    s.defineDone d = { s.redefined d (changedRecord s.work.regions[d.region] f) with
      management := s.replied 0x09 .done [] } := by
  unfold State.defineDone
  simp only [hk]
  rw [State.entryToStart_of_no_list (by exact hl), ite_self, State.reply_current (by exact hc)]
  rfl

theorem State.defineDone_disabling (he : s.erases = [⟨d.region, .disabling, false, .committing⟩])
    (hk : d.kind = .disabling) : s.defineDone d = { s.redefined d s.stored.regions[d.region] with
      regions := s.regions.set d.region { s.regions[d.region] with eraseHold := false }
      erases := []
      management := s.replied 0x09 .done [] } := by
  unfold State.defineDone
  simp only [hk]
  rw [State.endDisabling_of_one (by exact he), State.reply_current (by exact hc), State.afterDisabling_of_none rfl]
  rfl

theorem State.defineUnsafe_enabling {f : RegionFields} (hk : d.kind = .enabling f) :
    s.defineUnsafe d = { s with
      work := { s.work with keys := s.work.keys.set d.region s.stored.keys[d.region] }
      define := none
      management := s.replied 0x09 .storeUnsafe [] } := by
  unfold State.defineUnsafe
  simp only [hk]
  rw [State.reply_current (by exact hc)]
  rfl

theorem State.defineUnsafe_change {f : RegionFields} (hk : d.kind = .change f) :
    s.defineUnsafe d = { s with define := none, management := s.replied 0x09 .storeUnsafe [] } := by
  unfold State.defineUnsafe
  simp only [hk]
  rw [State.reply_current (by exact hc)]
  rfl

theorem State.defineUnsafe_disabling (he : s.erases = [⟨d.region, .disabling, false, .committing⟩])
    (hk : d.kind = .disabling) : s.defineUnsafe d = { s with
      work := { s.work with keys := s.work.keys.set d.region s.stored.keys[d.region] }
      regions := s.regions.set d.region { s.regions[d.region] with eraseHold := false }
      erases := []
      define := none
      management := s.replied 0x09 .storeUnsafe [] } := by
  unfold State.defineUnsafe
  simp only [hk]
  rw [State.endDisabling_of_one (by exact he), State.reply_current (by exact hc), State.afterDisabling_of_none rfl]
  rfl

end

/-- The answers to a region-definition unit leave nothing else due in their event. -/
theorem State.calm_of_answered (still : s.ResponseStill) (phase : s.startUp.phase ≠ .resuming)
    (list : s.work.scrubList = []) (grant : s.nextGrant = .nothing)
    (ht : (t.response, t.reverting, t.startUp, t.work.scrubList, t.port, t.scrub)
      = (s.response, s.reverting, s.startUp, s.work.scrubList, s.port, s.scrub))
    (he : t.erases = []) : t.Calm := by
  simp only [Prod.mk.injEq] at ht
  obtain ⟨response, reverting, startUp, scrubList, port, scrub⟩ := ht
  refine ⟨?_, he, startUp ▸ phase, scrubList.trans list, State.nextGrant_nothing_congr grant ?_ ?_ ?_⟩
  · unfold State.ResponseStill State.responseFree at *
    rw [response, reverting]
    exact still
  · rw [port]
  · rw [port]
  · rw [scrub]

/-- The write of a region-definition unit that was alone in the queue ends (R167). -/
theorem exec_commitWriteEnd_definition {d : DefineRequest} {image : Records}
    (h : s.Writes (.regionDefinition d) image) (done : (s.written image).defineDone d = t)
    (hs : t.store = emptyStore) (hc : t.Calm) : exec .commitWriteEnd s = .next t := by
  obtain ⟨queue, deferred, writing⟩ := h
  subst done
  exact exec_commitWriteEnd queue deferred writing hs hc

/-- A region-definition unit that was alone in the queue is answered that the write failed (R169). -/
theorem exec_eighthLow_definition {d : DefineRequest} {nanovolts : BitVec 32}
    (h : s.MeetsEighthLow (.regionDefinition d) nanovolts)
    (done : (s.spurned (.regionDefinition d) (conversionCode nanovolts.toNat)).defineUnsafe d = t)
    (hs : t.store = emptyStore) (hc : t.Calm) : exec (.conversionEnd nanovolts) s = .next t := by
  subst done
  exact exec_eighthLow h hs hc

end Sys2Proof.Machine

namespace Sys2Proof.Proofs

open Sys2Proof Sys2Proof.Machine

/-- Settles O59: the checks by the branch of the request they take; a disabling in its taking event by whether its
region is drained; the unit's answers by the course of its DEFINE-REGION. -/
theorem regionRequests : Obligations.RegionRequests := by
  refine ⟨fun s r b e start length pr pw cl ab h => ⟨fun hb => ?_, fun hr he => ?_, fun hre =>
    ⟨fun busy => ?_, fun idle active => ?_, fun idle free listed => ?_, fun idle free list => ?_⟩⟩, ?_, ?_, ?_, ?_⟩
  · rw [exec_defineRegion h, defineRegionRequest_unknown _ _ _ _ _ _ _ hb, State.reply_working]
  · subst hr he
    rw [exec_defineRegion h, defineRegionRequest_zero, State.reply_working]
  · rw [exec_defineRegion h, defineRegionRequest_busy _ _ _ _ _ _ _ hre (by exact busy), State.reply_working]
  · rw [exec_defineRegion h, defineRegionRequest_active _ _ _ _ _ _ _ hre (by exact idle) (by exact active),
      State.reply_working]
  · rw [exec_defineRegion h, defineRegionRequest_listed _ _ _ _ _ _ _ hre (by exact idle) (by exact free)
      (by exact listed), State.reply_working]
  · have unhindered : s.working.DefineFree := ⟨idle, free, list⟩
    refine ⟨fun he hx => ?_, fun he hx fixed => ?_, fun he => ?_⟩
    · subst he
      rw [exec_defineRegion h, defineRegionRequest_disabling unhindered _ (hre.elim id (absurd rfl)),
        if_pos (by exact hx), State.reply_working]
    · subst he
      have on : ¬ s.working.work.regions[r].enabled = false := fun off => by cases hx.symm.trans off
      rw [exec_defineRegion h, defineRegionRequest_disabling unhindered _ (hre.elim id (absurd rfl)), if_neg on,
        if_pos (by exact fixed), State.reply_working]
    · have run := exec_defineRegion h (BitVec.ofNat 8 r.val) e start length pr pw cl ab
      rw [defineRegionRequest_enabling unhindered _ r he] at run
      have meets_iff := State.meetsOther_iff (s := s.working) r ⟨start.toNat, length.toNat⟩
      have fixed_iff := s.work.regions[r].ratchetForbids_defined_iff r start length pr pw cl ab
      refine ⟨fun hr out => ?_, fun hr inside meets => ?_, fun fits => ?_⟩
      · rw [run, if_pos (by exact ⟨hr, out⟩), State.reply_working]
      · rw [run, if_neg (by exact fun n => n.2 inside), if_pos (by exact ⟨hr, meets_iff.mpr meets⟩),
          State.reply_working]
      · rw [if_neg (by exact fun n => fits.elim n.1 fun k => n.2 k.1),
          if_neg (by exact fun n => fits.elim n.1 fun k => k.2 (meets_iff.mp n.2))] at run
        refine ⟨fun fixed => ?_, fun fixed hx hold => ?_, fun fixed hx => ⟨fun spent => ?_, fun spent hq => ?_⟩⟩
        · rw [run, if_pos (by exact fixed_iff.mpr fixed), State.reply_working]
        · rw [if_neg (by exact fun n => fixed (fixed_iff.mp n)), if_pos (by exact hx)] at run
          exact ⟨_, run, State.submitNow_submitted (by exact hold)⟩
        all_goals
          rw [if_neg (by exact fun n => fixed (fixed_iff.mp n)), if_neg (by exact Bool.eq_false_iff.mp hx)] at run
        · rw [run, if_pos (by exact beq_iff_eq.mpr spent), State.reply_working]
        · rw [run, if_neg (by exact fun n => spent (beq_iff_eq.mp n)), State.beginEnabling,
            drawKey_of_idle (by exact hq)]
          rfl
  · intro s mask rs ds b h
    have run := exec_ratchet h mask (regionSetByte rs) (deviceSetByte ds)
    rw [ratchetRequest_known] at run
    have disabling_iff := State.any_disabling_iff (s := s)
    have unknown_iff := State.any_unknown_iff (s := s) mask
    have nothing_iff := State.ratchetsNothing_iff (s := s) mask rs ds
    refine ⟨fun hb => ?_, fun hb => ?_, fun bad => ?_, fun good off => ?_, fun good on unknown => ?_,
      fun good on known none => ?_, fun good on known adds hold => ?_⟩
    · rw [exec_ratchet h, ratchetRequest, regionSetOf_none hb]
      exact congrArg Host.Outcome.next (State.reply_working _ _ _)
    · rw [exec_ratchet h, ratchetRequest, regionSetOf_regionSetByte, deviceSetOf_none hb]
      exact congrArg Host.Outcome.next (State.reply_working _ _ _)
    · rw [run, if_pos bad, State.reply_working]
    all_goals rw [if_neg good] at run
    · rw [run, if_pos (by exact disabling_iff.mpr off), State.reply_working]
    all_goals rw [if_neg (by exact fun n => on (disabling_iff.mp n))] at run
    · rw [run, if_pos (by exact unknown_iff.mpr unknown), State.reply_working]
    all_goals rw [if_neg (by exact fun n => unknown_iff.mp n known)] at run
    · rw [run, if_pos (by exact nothing_iff.mpr none), State.reply_working]
      rfl
    · rw [if_neg (by exact fun n => nothing_iff.mp n adds)] at run
      exact ⟨_, run, State.submitNow_submitted (by exact hold)⟩
  · intro s r start length pr pw cl ab h hr calm still deferred hold idle free on fixed spent
    have run := exec_disabling h calm idle free hr on fixed start length pr pw cl ab
    refine ⟨fun undrained => ?_, fun drained => ?_⟩
    · rw [run, State.settle_disablingBegun_waits (calm.begun _) (by exact still) (by exact undrained)]
      rfl
    · rw [run, State.settle_disablingBegun_drained (calm.begun _) rfl (by exact drained) (by exact spent)]
      exact ⟨_, rfl, State.submitNow_submitted (by exact hold)⟩
  · exact fun s id r f => ⟨rfl, fun h => State.image_change id f h, rfl⟩
  · intro s ⟨id, r, kind⟩ still phase list grant define erases current
    refine ⟨fun image writes => ⟨fun f hk => ?_, fun f hk => ?_, fun hk => ?_⟩, fun nanovolts low => ?_⟩
    · obtain rfl : kind = .enabling f := hk
      have left : s.erases = [] := erases
      obtain ⟨t, done, ht⟩ := State.defineDone_enabling (s := s.written image) (by exact current) rfl
      refine ⟨t, exec_commitWriteEnd_definition writes done (by rw [ht]; rfl)
        (State.calm_of_answered still phase list grant (by rw [ht]; rfl) (by rw [ht]; exact left)), ht.trans ?_⟩
      rw [← left]
      rfl
    · obtain rfl : kind = .change f := hk
      have left : s.erases = [] := erases
      have done := State.defineDone_change (s := s.written image) (by exact current) (by exact list) rfl
      rw [exec_commitWriteEnd_definition writes done rfl
        (State.calm_of_answered still phase list grant rfl left), ← left]
      rfl
    · obtain rfl : kind = .disabling := hk
      have one : s.erases = [⟨r, .disabling, false, .committing⟩] := erases
      have done := State.defineDone_disabling (s := s.written image) (d := ⟨id, r, .disabling⟩) current one rfl
      rw [exec_commitWriteEnd_definition writes done rfl (State.calm_of_answered still phase list grant rfl rfl)]
      rfl
    · cases kind with
      | enabling f =>
        have left : s.erases = [] := erases
        have done := State.defineUnsafe_enabling
          (s := s.spurned (.regionDefinition ⟨id, r, .enabling f⟩) (conversionCode nanovolts.toNat))
          (d := ⟨id, r, .enabling f⟩) current rfl
        refine ⟨_, exec_eighthLow_definition low done rfl
          (State.calm_of_answered still phase list grant rfl left), ?_, rfl⟩
        rw [← left]
        rfl
      | change f =>
        have left : s.erases = [] := erases
        have done := State.defineUnsafe_change
          (s := s.spurned (.regionDefinition ⟨id, r, .change f⟩) (conversionCode nanovolts.toNat))
          (d := ⟨id, r, .change f⟩) current rfl
        refine ⟨_, exec_eighthLow_definition low done rfl
          (State.calm_of_answered still phase list grant rfl left), ?_, rfl⟩
        rw [← left]
        rfl
      | disabling =>
        have done := State.defineUnsafe_disabling
          (s := s.spurned (.regionDefinition ⟨id, r, .disabling⟩) (conversionCode nanovolts.toNat))
          (d := ⟨id, r, .disabling⟩) current erases rfl
        refine ⟨_, exec_eighthLow_definition low done rfl
          (State.calm_of_answered still phase list grant rfl rfl), ?_, rfl⟩
        rfl

end Sys2Proof.Proofs

end

section
/-! PROOFS. What every move of the part keeps of the key slots: a key is loaded under an open right, an admitted
segment or the scrub head alone (R52, R54), generations stay in order and never fall (R46), and what was fixed at
manufacture stands (R45, R162). The rules of such moves: rights, the cipher key store, draws and key records. -/

namespace Sys2Proof.Machine

variable {s t u : State}

/-! ### What lets a key stay loaded (R52) -/

/-- An open right, or an admitted segment. -/
def RegionStatus.Warrants (x : RegionStatus) : Prop := x.read = .opened ∨ x.write = .opened ∨ 0 < x.admitted

/-- What lets a region's key stay loaded. -/
def State.Warranted (s : State) (r : RegionIx) : Prop := s.regions[r].Warrants ∨ s.scrubHead = some r

theorem State.keyLaw_iff : s.KeyLaw ↔ ∀ r : RegionIx, s.keys[r].loaded.isSome = true → s.Warranted r := by
  simp only [State.KeyLaw, State.Warranted, RegionStatus.Warrants, or_assoc]

/-- The unload test passes exactly where nothing lets the key stay loaded (R54). -/
theorem State.unloadDue_iff (r : RegionIx) : s.unloadDue r = true ↔ ¬ s.Warranted r := by
  have locked (x : Right) : x = .locked ↔ x ≠ .opened := by cases x <;> decide
  simp only [State.unloadDue, State.Warranted, RegionStatus.Warrants, Bool.and_eq_true, beq_iff_eq, bne_iff_ne,
    locked, not_or, Nat.pos_iff_ne_zero, ne_eq, not_not, and_assoc]

/-- No more keys are loaded, and each of them is warranted as before. -/
theorem State.KeyLaw.of_fewer (h : s.KeyLaw)
    (hl : ∀ r : RegionIx, t.keys[r].loaded.isSome = true → s.keys[r].loaded.isSome = true)
    (hw : ∀ r, s.Warranted r → t.Warranted r) : t.KeyLaw :=
  State.keyLaw_iff.mpr fun r hr => hw r (State.keyLaw_iff.mp h r (hl r hr))

/-- Where one region's key alone may lack a warrant, its unload test restores the law (R54). -/
theorem State.keyLaw_unloadTest {r : RegionIx}
    (h : ∀ q : RegionIx, q ≠ r → s.keys[q].loaded.isSome = true → s.Warranted q) : (s.unloadTest r).KeyLaw := by
  have same (q : RegionIx) : (s.unloadTest r).Warranted q ↔ s.Warranted q := by
    simp only [State.Warranted, State.scrubHead, State.unloadTest_rest]
  refine State.keyLaw_iff.mpr fun q hq => (same q).mpr ?_
  rw [State.unloadTest_keys] at hq
  by_cases hr : q = r
  · subst hr
    by_contra lacking
    rw [if_pos ⟨rfl, (State.unloadDue_iff q).mpr lacking⟩] at hq
    cases hq
  · rw [if_neg fun n => hr n.1] at hq
    exact h q hr hq

/-! ### Moves -/

/-- A move that keeps what was fixed at manufacture, the law of loaded keys, and the order of generations, and lets no
stored generation fall. -/
structure State.Keeps (s t : State) : Prop where
  manufacture : t.geometry = s.geometry ∧ t.fuses = s.fuses
  keys : s.KeyLaw → t.KeyLaw
  generations : s.GenerationLaw →
    t.GenerationLaw ∧ ∀ r : RegionIx, s.stored.keys[r].generation ≤ t.stored.keys[r].generation

theorem State.Keeps.refl (s : State) : s.Keeps s := ⟨⟨rfl, rfl⟩, id, fun h => ⟨h, fun _ => le_refl _⟩⟩

theorem State.Keeps.trans (f : s.Keeps t) (g : t.Keeps u) : s.Keeps u where
  manufacture := ⟨g.manufacture.1.trans f.manufacture.1, g.manufacture.2.trans f.manufacture.2⟩
  keys h := g.keys (f.keys h)
  generations h := by
    obtain ⟨ht, rise⟩ := f.generations h
    obtain ⟨hu, rise'⟩ := g.generations ht
    exact ⟨hu, fun r => (rise r).trans (rise' r)⟩

/-- The last of two moves named first, so that it says where the first one ends. -/
theorem State.Keeps.after (g : t.Keeps u) (f : s.Keeps t) : s.Keeps u := f.trans g

theorem State.Keeps.ite {c : Prop} [Decidable c] (ht : c → s.Keeps t) (hu : ¬ c → s.Keeps u) :
    s.Keeps (if c then t else u) := by
  split
  · exact ht ‹_›
  · exact hu ‹_›

theorem State.foldl_keepsKeys {α : Type} {f : State → α → State} (h : ∀ (t : State) (a : α), t.Keeps (f t a))
    (l : List α) (s : State) : s.Keeps (l.foldl f s) :=
  foldl_relates State.Keeps State.Keeps.refl (fun _ _ _ => State.Keeps.trans) f h l s

/-- What the order of generations looks at, the cipher key store apart. -/
def State.recordLook (s : State) : Geometry × Fuses × Vector KeyRecord 16 × Vector KeyRecord 16 × List Draw × List Draw
    × Option Records :=
  (s.geometry, s.fuses, s.stored.keys, s.work.keys, s.random.queue, s.random.waiting, s.store.writing)

/-- What `Keeps` looks at. -/
def State.keyLook (s : State) : (Geometry × Fuses × Vector KeyRecord 16 × Vector KeyRecord 16 × List Draw × List Draw
    × Option Records) × Vector KeySlot 16 × Vector RegionStatus 16 × Option RegionIx :=
  (s.recordLook, s.keys, s.regions, s.scrubHead)

/-- Key records, draws and highest drawn numbers stay; what is loaded, and under which rights, may change. -/
theorem State.Keeps.of_records (h : t.recordLook = s.recordLook)
    (hd : ∀ r : RegionIx, t.keys[r].highestDrawn = s.keys[r].highestDrawn) (law : s.KeyLaw → t.KeyLaw) :
    s.Keeps t := by
  simp only [State.recordLook, Prod.mk.injEq] at h
  obtain ⟨geometry, fuses, stored, work, queue, waiting, writing⟩ := h
  refine ⟨⟨geometry, fuses⟩, law, fun order => ⟨fun r => ?_, fun r => ?_⟩⟩
  · rw [stored, work, queue, waiting, writing, hd]
    exact order r
  · rw [stored]

theorem State.Keeps.of_look (h : t.keyLook = s.keyLook) : s.Keeps t := by
  simp only [State.keyLook, Prod.mk.injEq] at h
  obtain ⟨records, keys, regions, head⟩ := h
  refine .of_records records (fun r => by rw [keys]) fun law => law.of_fewer (fun r => by rw [keys]; exact id) ?_
  simp only [State.Warranted, regions, head]
  exact fun _ => id

/-- What loaded keys, their warrants, key records and draws look at. -/
def State.slotLook (s : State) : Fuses × Vector KeyRecord 16 × List Draw × List Draw × Vector KeySlot 16
    × Vector RegionStatus 16 × Option RegionIx :=
  (s.fuses, s.work.keys, s.random.queue, s.random.waiting, s.keys, s.regions, s.scrubHead)

/-- A move that is known to leave the store's copy and, at most, to end a write under way. -/
theorem State.Keeps.of_moves (f : s.Moves t) (h : t.slotLook = s.slotLook) : s.Keeps t := by
  simp only [State.slotLook, Prod.mk.injEq] at h
  obtain ⟨fuses, work, queue, waiting, keys, regions, head⟩ := h
  refine ⟨⟨f.geometry, fuses⟩, fun law => law.of_fewer (fun r => by rw [keys]; exact id) ?_, fun order => ⟨fun r => ?_,
    fun r => by rw [f.stored]⟩⟩
  · simp only [State.Warranted, regions, head]
    exact fun _ => id
  · obtain ⟨rise, drawn, last, write, draws⟩ := order r
    rw [f.stored, work, queue, waiting, keys]
    exact ⟨rise, drawn, last, fun image hw => write image (f.writing image hw).1, draws⟩

theorem State.Keeps.of_follows (f : s.Follows t) (h : t.slotLook = s.slotLook) : s.Keeps t := .of_moves f.toMoves h

/-! ### The cipher key store and rights (R28, R53, R54) -/

theorem State.unloadTest_highestDrawn (r q : RegionIx) :
    (s.unloadTest r).keys[q].highestDrawn = s.keys[q].highestDrawn := by
  rw [State.unloadTest_keys]; split <;> rfl

theorem State.loadKey_highestDrawn (r q : RegionIx) :
    (s.loadKey r).keys[q].highestDrawn = s.keys[q].highestDrawn := by
  rw [State.loadKey_keys]; split <;> rfl

/-- Whatever becomes of a region's rights and count, its unload test follows (R28, R36, R54). -/
theorem State.keeps_setStatus_unloadTest (r : RegionIx) (x : RegionStatus) :
    s.Keeps ((s.setStatus r x).unloadTest r) := by
  refine .of_records (by simp [State.recordLook]) (fun q => ?_) fun law => ?_
  · rw [State.unloadTest_highestDrawn, State.setStatus_keys]
  · refine State.keyLaw_unloadTest fun q hq loaded => ?_
    have warrant := State.keyLaw_iff.mp law q loaded
    unfold State.Warranted
    rw [State.setStatus_regions, getElem_set_fin, if_neg hq]
    exact warrant

/-- A region keeps its warrant where its volatile fields are written. -/
theorem State.keeps_setStatus {r : RegionIx} {x : RegionStatus} (h : s.regions[r].Warrants → x.Warrants) :
    s.Keeps (s.setStatus r x) := by
  refine .of_records rfl (fun _ => rfl) fun law => law.of_fewer (fun _ => id) fun q hq => ?_
  unfold State.Warranted
  rw [State.setStatus_regions, getElem_set_fin]
  split
  · rename_i e; subst e; exact hq.imp h id
  · exact hq

theorem State.keeps_setHold (r : RegionIx) (v : Bool) : s.Keeps (s.setHold r v) := State.keeps_setStatus id

theorem State.keeps_releaseHold (r : RegionIx) : s.Keeps (s.releaseHold r) :=
  .ite (fun _ => .refl s) fun _ => State.keeps_setHold r false

theorem State.keeps_lockRight (k : RightKind) (r : RegionIx) : s.Keeps (s.lockRight k r) :=
  .ite (fun _ => .refl s) fun _ => State.keeps_setStatus_unloadTest r _

theorem State.keeps_lockBoth (r : RegionIx) : s.Keeps (s.lockBoth r) :=
  (State.keeps_lockRight .read r).trans (State.keeps_lockRight .write r)

theorem State.keeps_lockAll : s.Keeps s.lockAll := State.foldl_keepsKeys (fun _ r => State.keeps_lockBoth r) _ s

theorem State.keeps_lowerAdmitted (r : RegionIx) : s.Keeps (s.lowerAdmitted r) := by
  refine .ite (fun _ => State.keeps_setStatus_unloadTest r _) fun rest => State.keeps_setStatus fun _ => .inr (.inr ?_)
  rw [State.setStatus_regions, getElem_set_fin, if_pos rfl] at rest
  exact Nat.pos_of_ne_zero rest

theorem State.keeps_zeroAdmitted (r : RegionIx) : s.Keeps (s.zeroAdmitted r) :=
  .ite (fun _ => .refl s) fun _ => State.keeps_setStatus_unloadTest r _

theorem State.keeps_raiseAdmitted (x : Segment) : s.Keeps (s.raiseAdmitted x) := by
  unfold State.raiseAdmitted
  split
  · exact State.keeps_setStatus fun _ => .inr (.inr (Nat.succ_pos _))
  · exact .refl s

/-- A key is loaded where something warrants it (R53). -/
theorem State.keeps_loadKey {r : RegionIx} (h : s.Warranted r) : s.Keeps (s.loadKey r) := by
  refine .of_records (by simp [State.recordLook]) (fun q => State.loadKey_highestDrawn r q) fun law => ?_
  refine State.keyLaw_iff.mpr fun q loaded => ?_
  have same : (s.loadKey r).Warranted q ↔ s.Warranted q := by
    simp only [State.Warranted, State.scrubHead, State.loadKey_rest]
  rw [State.loadKey_keys] at loaded
  by_cases hq : q = r
  · exact same.mpr (hq ▸ h)
  · rw [if_neg fun n => hq n.1] at loaded
    exact same.mpr (State.keyLaw_iff.mp law q loaded)

/-- A right opens over a loaded key, or stays LOCKED over none (R28, R53). -/
theorem State.keeps_openRight (k : RightKind) (r : RegionIx) : s.Keeps (s.openRight k r) := by
  have opened (x : RegionStatus) : (x.setRight k .opened).Warrants := by
    cases k
    · exact .inl rfl
    · exact .inr (.inl rfl)
  unfold State.openRight
  refine .ite (fun _ => .refl s) fun _ => .of_records ?_ (fun q => ?_) fun law =>
    State.keyLaw_iff.mpr fun q loaded => ?_
  · dsimp only; split <;> simp [State.recordLook]
  · dsimp only; split <;> simp only [State.setStatus_keys, State.loadKey_highestDrawn]
  · have other (hq : q ≠ r) (hk : (s.loadKey r).keys[q].loaded.isSome = true) : (s.loadKey r).Warranted q := by
      rw [State.loadKey_keys, if_neg fun n => hq n.1] at hk
      simpa only [State.Warranted, State.scrubHead, State.loadKey_rest] using State.keyLaw_iff.mp law q hk
    dsimp only at loaded ⊢
    by_cases hk : (s.loadKey r).keys[r].loaded.isSome = true
    · rw [if_pos hk] at loaded ⊢
      by_cases hq : q = r
      · subst hq
        refine .inl ?_
        rw [State.setStatus_regions, getElem_set_fin, if_pos rfl]
        exact opened _
      · refine (other hq loaded).imp (fun w => ?_) id
        rw [State.setStatus_regions, getElem_set_fin, if_neg hq]
        exact w
    · rw [if_neg hk] at loaded ⊢
      exact other (fun hq => hk (hq ▸ loaded)) loaded

/-- A region's key is unloaded outright (R50). -/
theorem State.keeps_unloaded (r : RegionIx) : s.Keeps (s.setSlotKey r { s.keys[r] with loaded := none }) := by
  refine .of_records rfl (fun q => ?_) fun law => law.of_fewer (fun q loaded => ?_) fun _ => id
  · rw [State.setSlotKey_keys, getElem_set_fin]
    split
    · rename_i e; rw [e]
    · rfl
  · rw [State.setSlotKey_keys, getElem_set_fin] at loaded
    split at loaded
    · cases loaded
    · exact loaded

/-! ### Key records, generations and draws (R46, R48, R49) -/

/-- The law of loaded keys does not look at records, draws and highest drawn numbers. -/
theorem State.KeyLaw.of_loaded (h : s.KeyLaw) (hk : ∀ r : RegionIx, t.keys[r].loaded = s.keys[r].loaded)
    (hr : t.regions = s.regions) (hh : t.scrubHead = s.scrubHead) : t.KeyLaw := by
  refine h.of_fewer (fun r => by rw [hk]; exact id) fun r => ?_
  simp only [State.Warranted, hr, hh]
  exact id

/-- The order of generations of one slot, between what is stored and the last generation (R46). -/
theorem State.GenerationLaw.work_le (h : s.GenerationLaw) (r : RegionIx) :
    s.work.keys[r].generation ≤ s.keys[r].highestDrawn ∧ s.keys[r].highestDrawn ≤ lastGeneration := by
  obtain ⟨-, drawn, last, -, -⟩ := h r
  exact ⟨drawn, last⟩

/-- A working record takes a generation that is not below its own and was drawn (R46). -/
theorem State.keeps_setKey {r : RegionIx} {x : KeyRecord} (h : s.GenerationLaw →
    s.work.keys[r].generation ≤ x.generation ∧ x.generation ≤ s.keys[r].highestDrawn) : s.Keeps (s.setKey r x) := by
  refine ⟨⟨rfl, rfl⟩, fun law => law.of_loaded (fun _ => rfl) rfl rfl, fun order => ⟨fun q => ?_, fun _ => le_refl _⟩⟩
  obtain ⟨up, below⟩ := h order
  obtain ⟨rise, drawn, last, write, draws⟩ := order q
  have record : (s.setKey r x).work.keys[q] = if q = r then x else s.work.keys[q] := getElem_set_fin _ _ _ _
  rw [record]
  split
  · rename_i e
    subst e
    refine ⟨rise.trans up, below, last, fun image hw => ?_, draws⟩
    exact ⟨(write image hw).1, (write image hw).2.trans up⟩
  · exact ⟨rise, drawn, last, write, draws⟩

/-- The next generation is taken of a slot that is not spent (R46, R47). -/
theorem State.keeps_takeGeneration {r : RegionIx} (h : s.keys[r].highestDrawn ≠ lastGeneration) :
    s.Keeps (s.takeGeneration r) := by
  have slot (q : RegionIx) : (s.takeGeneration r).keys[q]
      = if q = r then { s.keys[r] with highestDrawn := s.keys[r].highestDrawn + 1 } else s.keys[q] :=
    getElem_set_fin _ _ _ _
  refine ⟨⟨rfl, rfl⟩, fun law => law.of_loaded (fun q => ?_) rfl rfl, fun order => ⟨fun q => ?_, fun _ => le_refl _⟩⟩
  · rw [slot]
    split
    · rename_i e; rw [e]
    · rfl
  · obtain ⟨rise, drawn, last, write, draws⟩ := order q
    rw [slot]
    split
    · rename_i e
      subst e
      exact ⟨rise, drawn.trans (Nat.le_succ _), Nat.lt_of_le_of_ne last h, write,
        fun g use hg => (draws g use hg).trans (Nat.le_succ _)⟩
    · exact ⟨rise, drawn, last, write, draws⟩

/-- Draws are requested, taken up or dropped: each is of a generation that counts as drawn (R46, R48). -/
theorem State.keeps_draws {x : RandomSource} (h : ∀ (r : RegionIx) (g : Nat) (use : DrawUse), s.GenerationLaw →
    .key r g use ∈ x.queue ++ x.waiting → g ≤ s.keys[r].highestDrawn) : s.Keeps { s with random := x } := by
  refine ⟨⟨rfl, rfl⟩, fun law => law.of_loaded (fun _ => rfl) rfl rfl, fun order => ⟨fun r => ?_, fun _ => le_refl _⟩⟩
  obtain ⟨rise, drawn, last, write, -⟩ := order r
  exact ⟨rise, drawn, last, write, fun g use hg => h r g use order (List.mem_append.mpr hg)⟩

/-- No draw comes in. -/
theorem State.keeps_fewerDraws {x : RandomSource}
    (h : ∀ d, d ∈ x.queue ++ x.waiting → d ∈ s.random.queue ++ s.random.waiting) : s.Keeps { s with random := x } := by
  refine State.keeps_draws fun r g use order hg => ?_
  obtain ⟨-, -, -, -, draws⟩ := order r
  exact draws g use (List.mem_append.mp (h _ hg))

theorem State.keeps_requestDraw {d : Draw}
    (h : ∀ (r : RegionIx) (g : Nat) (use : DrawUse), d = .key r g use → g ≤ s.keys[r].highestDrawn) :
    s.Keeps (s.requestDraw d) := by
  have random : s.requestDraw d = { s with random := (s.requestDraw d).random } := State.requestDraw_frame d
  rw [random]
  refine State.keeps_draws fun r g use order hg => ?_
  rcases State.mem_draws_requestDraw.mp hg with hg | hg
  · obtain ⟨-, -, -, -, draws⟩ := order r
    exact draws g use (List.mem_append.mp hg)
  · exact h r g use hg.symm

theorem State.keeps_drawKey {r : RegionIx} (h : s.keys[r].highestDrawn ≠ lastGeneration) (use : DrawUse) :
    s.Keeps (s.drawKey r use) := by
  refine (State.keeps_requestDraw fun q g use' e => ?_).after (State.keeps_takeGeneration h)
  cases e
  have slot : (s.takeGeneration r).keys[r] = { s.keys[r] with highestDrawn := s.keys[r].highestDrawn + 1 } := by
    refine (getElem_set_fin _ r r _).trans (if_pos rfl)
  rw [slot]
  exact le_refl _

theorem State.keeps_submit (v : CommitUnit) : s.Keeps (s.submit v) := by
  refine .of_look ?_
  unfold State.submit
  split <;> rfl

theorem State.keeps_reply (i : Nat) (k : Byte) (c : ResultCode) (b : List Byte) : s.Keeps (s.reply i k c b) :=
  .of_look (by simp [State.keyLook, State.recordLook, State.scrubHead])

end Sys2Proof.Machine
end

section
/-! PROOFS. The shared operations of an event as moves that keep the laws of the key slots: destruction steps (R50,
R150), the response controller, the scrub engine and the media port, the start-up sequence and the gate. -/

namespace Sys2Proof.Machine

variable {s t u : State}

/-! ### Crypto-erases (R149, R150) -/

theorem State.keeps_beginErase (r : RegionIx) (p : Party) (scrub : Bool) : s.Keeps (s.beginErase r p scrub) := by
  have held : s.Keeps ((s.lockBoth r).setHold r true) := (State.keeps_lockBoth r).trans (State.keeps_setHold r true)
  exact held.trans (.of_look (by simp [State.beginErase, State.keyLook, State.recordLook, State.scrubHead]))

theorem State.moves_keyComplete (r : RegionIx) (p : Party) : s.Moves (s.keyComplete r p) := by
  by_cases h : p = .disabling
  · subst h; exact State.moves_keyComplete_disabling r
  · exact (State.follows_keyComplete h r).toMoves

theorem State.keeps_keyComplete (r : RegionIx) (p : Party) : s.Keeps (s.keyComplete r p) :=
  .of_moves (State.moves_keyComplete r p) (by simp [State.slotLook, State.scrubHead])

/-- A destruction step: a spent slot ends at the last generation, another moves to the one above its highest drawn
number, at once or with its draw (R46, R47, R50). -/
theorem State.keeps_destroyKey (r : RegionIx) (p : Party) : s.Keeps (s.destroyKey r p) := by
  have unloaded : s.Keeps (s.setSlotKey r { s.keys[r] with loaded := none }) := State.keeps_unloaded r
  unfold State.destroyKey
  dsimp only
  generalize s.setSlotKey r { s.keys[r] with loaded := none } = a at unloaded ⊢
  by_cases spent : a.spent r = true
  · rw [if_pos spent]
    have last : a.keys[r].highestDrawn = lastGeneration := beq_iff_eq.mp spent
    refine (State.keeps_keyComplete r p).after (unloaded.trans (State.keeps_setKey fun order => ?_))
    have := order.work_le r
    exact ⟨this.1.trans this.2, last.ge⟩
  · have unspent : a.keys[r].highestDrawn ≠ lastGeneration := fun e => spent (beq_iff_eq.mpr e)
    rw [if_neg spent]
    refine .ite (fun _ => ?_) fun _ => ?_
    · have emptied : a.Keeps (a.setKey r { a.work.keys[r] with material := none }) :=
        State.keeps_setKey fun order => ⟨le_refl _, (order.work_le r).1⟩
      exact .after (State.keeps_drawKey (by exact unspent) _) ((unloaded.trans emptied).trans (.of_look rfl))
    · have taken : a.Keeps (a.takeGeneration r) := State.keeps_takeGeneration unspent
      have slot : (a.takeGeneration r).keys[r].highestDrawn = a.nextGeneration r :=
        congrArg KeySlot.highestDrawn ((getElem_set_fin _ r r _).trans (if_pos rfl))
      have recorded : (a.takeGeneration r).Keeps ((a.setKey r ⟨a.nextGeneration r, none⟩).takeGeneration r) :=
        State.keeps_setKey (x := ⟨a.nextGeneration r, none⟩) fun order =>
          ⟨slot ▸ (order.work_le r).1, slot.ge⟩
      exact (State.keeps_keyComplete r p).after (unloaded.trans (taken.trans recorded))

theorem State.keeps_destroyIfDue (r : RegionIx) : s.Keeps (s.destroyIfDue r) :=
  State.foldl_keepsKeys (fun _ p => State.keeps_destroyKey r p) _ s

theorem State.keeps_destroyAllDue : s.Keeps s.destroyAllDue :=
  State.foldl_keepsKeys (fun _ r => State.keeps_destroyIfDue r) _ s

/-! ### The response controller (R135 to R147) -/

theorem State.keeps_relockKeepingMode : s.Keeps s.relockKeepingMode :=
  State.keeps_lockAll.trans (.of_look (by simp [State.relockKeepingMode, State.keyLook, State.recordLook,
    State.scrubHead]))

theorem State.keeps_relock : s.Keeps s.relock := State.keeps_relockKeepingMode.trans
  (.of_look (by simp [State.relock, State.lockDown, State.keyLook, State.recordLook, State.scrubHead]))

theorem State.keeps_relockIfDue : s.Keeps s.relockIfDue := by
  unfold State.relockIfDue
  repeat' split
  · exact State.keeps_relock
  · exact .refl s
  · exact .refl s

theorem State.keeps_record : s.Keeps s.record := (State.keeps_submit _).after (.of_look rfl)

theorem State.keeps_close : s.Keeps s.close := (State.keeps_submit _).after (.of_look rfl)

theorem State.keeps_startResponse (e : PendingTrigger) : s.Keeps (s.startResponse e) := by
  unfold State.startResponse
  dsimp only
  exact .ite (fun _ => State.keeps_record.after (State.keeps_relockIfDue.after (.of_look rfl)))
    fun _ => State.keeps_close.after (State.keeps_relockIfDue.after (.of_look rfl))

theorem State.keeps_takeIfFree : s.Keeps s.takeIfFree := by
  unfold State.takeIfFree
  repeat' split
  · exact State.keeps_startResponse _
  · exact .refl s
  · exact .refl s

theorem State.keeps_handOver (r : RegionIx) (scrub : Bool) : s.Keeps (s.handOver r scrub) :=
  .ite (fun _ => .of_look rfl) fun _ => State.keeps_beginErase r .response scrub

theorem State.keeps_escalate (r : RunningResponse) (l : List PendingTrigger) : s.Keeps (s.escalate r l) :=
  State.keeps_record.after (State.keeps_relockIfDue.after (.of_look rfl))

theorem State.keeps_boundaryStep (n : Nat) (s : State) : s.Keeps (s.boundaryStep n) := by
  induction n generalizing s with
  | zero => exact .refl s
  | succ n ih =>
    unfold State.boundaryStep
    split
    · exact .refl s
    · dsimp only
      split
      · split
        · exact State.keeps_close
        · split
          · exact (State.keeps_handOver _ _).after (.of_look rfl)
          · exact (ih _).after (.of_look rfl)
      · exact State.keeps_escalate _ _

theorem State.keeps_stepBoundary : s.Keeps s.stepBoundary := State.keeps_boundaryStep 17 s

theorem State.keeps_passOver (r : RegionIx) : s.Keeps (s.passOver r) :=
  State.keeps_stepBoundary.after (.of_look rfl)

theorem State.keeps_resume (p : InProgress) : s.Keeps (s.resume p) := by
  unfold State.resume
  dsimp only
  exact .ite (fun _ => State.keeps_relockKeepingMode.after (.of_look rfl)) fun _ => .of_look rfl

theorem State.keeps_releaseController : s.Keeps s.releaseController := by
  have released : s.Keeps { s with response := { s.response with released := true } } := .of_look rfl
  unfold State.releaseController
  dsimp only
  split
  · exact released
  · rename_i p _
    exact State.keeps_stepBoundary.after ((released.trans (State.keeps_resume p)).trans (.of_look rfl))

theorem State.keeps_submitCountReset : s.Keeps s.submitCountReset :=
  .ite (fun _ => (State.keeps_submit _).after (.of_look rfl)) fun _ => .refl s

theorem State.keeps_resubmit (v : CommitUnit) : s.Keeps (s.resubmit v) :=
  .ite (fun _ => (State.keeps_submit v).after State.keeps_submitCountReset) fun _ => State.keeps_submitCountReset

theorem State.keeps_administratorRefund : s.Keeps s.administratorRefund :=
  .ite (fun _ => .of_look rfl) fun _ => (State.keeps_submit _).after (.of_look rfl)

/-! ### The scrub engine and the media port -/

theorem State.keeps_tryFinish : s.Keeps s.tryFinish :=
  .of_follows State.follows_tryFinish (by simp [State.slotLook, State.scrubHead])

/-- The head's key is loaded for its walk (R52, R155). -/
theorem State.keeps_startWalk : s.Keeps s.startWalk := by
  unfold State.startWalk
  split
  · exact .of_look rfl
  · rename_i h head
    refine .ite (fun _ => .of_look rfl) fun _ => ?_
    have marked : s.Keeps (s.setRegion h { s.work.regions[h] with condition := .scrubbing }) := .of_look rfl
    have loaded := marked.trans (State.keeps_loadKey (r := h) (.inr head))
    dsimp only
    exact .ite (fun _ => loaded.trans (.of_look rfl)) fun _ => State.keeps_tryFinish.after (loaded.trans (.of_look rfl))

theorem State.keeps_startWalkIfDue : s.Keeps s.startWalkIfDue := .ite (fun _ => State.keeps_startWalk) fun _ => .refl s

theorem State.keeps_serveMedia : s.Keeps s.serveMedia :=
  .of_follows State.follows_serveMedia (by simp [State.slotLook, State.scrubHead])

theorem State.setCursor_work (p : Nat) :
    (s.setCursor p).work.keys = s.work.keys ∧ (s.setCursor p).scrubHead = s.scrubHead := by
  unfold State.setCursor State.scrubHead
  split
  · rename_i l; simp [l]
  · exact ⟨rfl, rfl⟩

theorem State.keeps_moveCursor (p : Nat) : s.Keeps (s.moveCursor p) := by
  refine .of_follows (State.follows_moveCursor p) ?_
  have cursor := s.setCursor_work p
  unfold State.moveCursor
  split
  · rfl
  · simp only [State.scrubHead] at cursor ⊢
    simp [State.slotLook, State.scrubHead, cursor]

theorem State.keeps_chunkEnd (c : Chunk) (status : Status) : s.Keeps (s.chunkEnd c status) := by
  unfold State.chunkEnd
  dsimp only
  refine .ite (fun _ => .of_look rfl) fun _ => State.keeps_tryFinish.after ((State.keeps_moveCursor _).after ?_)
  exact .ite (fun _ => .of_look rfl) fun _ => .of_look rfl

theorem State.keeps_takeSegment (tag index : Nat) (status : Status) (held : List Block) :
    s.Keeps (s.takeSegment tag index status held) := by
  unfold State.takeSegment
  split
  · exact .refl s
  · split
    · exact .refl s
    · rename_i x _ _ g _
      have done (b : State) (hb : s.Keeps b) : s.Keeps (b.completeIfDone (x.segmentDone index g status)) :=
        hb.trans (.of_look (by simp [State.keyLook, State.recordLook, State.scrubHead]))
      have sent : s.Keeps (if x.kind = .read then
          s.send (.readData tag (g.first - x.start) (segmentData g status held)) else s) :=
        .ite (fun _ => .of_look rfl) fun _ => .refl s
      dsimp only
      split
      · exact (State.keeps_lowerAdmitted _).after (done _ sent)
      · exact done _ sent

theorem State.keeps_release (i : SlotIx) (x : SlotRecord) (status : Status) : s.Keeps (s.release i x status) := by
  unfold State.release
  dsimp only
  split
  · exact (State.keeps_takeSegment _ _ _ _).after (.of_look rfl)
  · exact (State.keeps_chunkEnd _ _).after (.of_look rfl)

theorem State.keeps_expire (i : SlotIx) : s.Keeps (s.expire i) := by
  unfold State.expire
  split
  · exact .refl s
  · exact (State.keeps_release _ _ _).after (.of_look rfl)

/-! ### The start-up sequence -/

theorem State.keeps_powerOnRights (r : RegionIx) : s.Keeps (s.powerOnRights r) := by
  have locked : s.Keeps (s.lockBoth r) := State.keeps_lockBoth r
  unfold State.powerOnRights
  dsimp only
  refine .ite (fun _ => ?_) fun _ => locked
  have read : s.Keeps (if s.work.regions[r].powerOnRead = .opened then (s.lockBoth r).openRight .read r
      else s.lockBoth r) := .ite (fun _ => locked.trans (State.keeps_openRight .read r)) fun _ => locked
  exact .ite (fun _ => read.trans (State.keeps_openRight .write r)) fun _ => read

theorem State.keeps_setPowerOnRights : s.Keeps s.setPowerOnRights :=
  State.foldl_keepsKeys (fun _ r => State.keeps_powerOnRights r) _ s

theorem State.keeps_settleHead : s.Keeps s.settleHead := by
  refine .of_look ?_
  unfold State.settleHead
  split <;> rfl

theorem State.keeps_resumeScrub : s.Keeps s.resumeScrub :=
  .ite (fun _ => .refl s) fun _ => State.keeps_startWalk.after State.keeps_settleHead

theorem State.keeps_lastSteps : s.Keeps s.lastSteps := by
  have rights : s.Keeps s.setPowerOnRights.showAtPowerOn.startBackoffs :=
    State.keeps_setPowerOnRights.trans (.of_look (by simp [State.keyLook, State.recordLook, State.scrubHead]))
  exact (State.keeps_resumeScrub.after rights).trans
    (.of_look (by simp [State.lastSteps, State.keyLook, State.recordLook, State.scrubHead]))

theorem State.keeps_progress : s.Keeps s.progress := .ite (fun _ => State.keeps_lastSteps) fun _ => .refl s

theorem State.keeps_settleBlocks : s.Keeps s.settleBlocks :=
  State.keeps_serveMedia.after (State.keeps_startWalkIfDue.after (State.keeps_progress.after
    (State.keeps_destroyAllDue.after State.keeps_takeIfFree)))

/-! ### The gate (R165, R167, R169) -/

/-- A unit carries the key records as they are stored, with one or all of them from the working copy. -/
theorem State.image_keys (v : CommitUnit) : (s.image v).keys = s.stored.keys
    ∨ (∃ r : RegionIx, (s.image v).keys = s.stored.keys.set r s.work.keys[r]) ∨ (s.image v).keys = s.work.keys := by
  cases v with
  | regionDefinition d =>
    simp only [State.image]
    split
    · exact .inr (.inl ⟨d.region, rfl⟩)
    · exact .inl rfl
  | keyDestruction r =>
    simp only [State.image]
    split
    · exact .inr (.inl ⟨r, rfl⟩)
    · exact .inl rfl
  | responseBegin | responseEnd | finish =>
    simp only [State.image]
    split <;> exact .inl rfl
  | revert id scrub => exact .inr (.inr rfl)
  | _ => exact .inl rfl

/-- A unit carries each generation between the stored and the working one. -/
theorem State.image_generation (h : s.GenerationLaw) (v : CommitUnit) (r : RegionIx) :
    s.stored.keys[r].generation ≤ (s.image v).keys[r].generation
      ∧ (s.image v).keys[r].generation ≤ s.work.keys[r].generation := by
  obtain ⟨rise, -⟩ := h r
  rcases s.image_keys v with e | ⟨q, e⟩ | e
  · rw [e]; exact ⟨le_refl _, rise⟩
  · rw [e, getElem_set_fin]
    split
    · rename_i hq; subst hq; exact ⟨rise, le_refl _⟩
    · exact ⟨le_refl _, rise⟩
  · rw [e]; exact ⟨rise, le_refl _⟩

theorem State.keeps_startWrite (v : CommitUnit) : s.Keeps (s.startWrite v) := by
  refine ⟨⟨rfl, rfl⟩, id, fun order => ⟨fun r => ?_, fun _ => le_refl _⟩⟩
  obtain ⟨rise, drawn, last, -, draws⟩ := order r
  refine ⟨rise, drawn, last, fun image hw => ?_, draws⟩
  obtain rfl : s.image v = image := Option.some.inj hw
  exact State.image_generation order v r

theorem State.keeps_serveStore : s.Keeps s.serveStore := by
  unfold State.serveStore
  split
  · rename_i v _ _ _
    refine .ite (fun _ => ?_) fun _ => .refl s
    dsimp only
    exact .ite (fun _ => (State.keeps_startWrite v).after (.of_look rfl)) fun _ => .of_look rfl
  · exact .refl s

/-- The end of an event (R102, R136, R150, R155, R169). -/
theorem State.keeps_settle : s.Keeps s.settle := State.keeps_serveStore.after State.keeps_settleBlocks

theorem State.Keeps.settle (f : s.Keeps t) : s.Keeps t.settle := State.keeps_settle.after f

theorem State.keeps_submitNow (v : CommitUnit) : s.Keeps (s.submitNow v) :=
  State.keeps_serveStore.after (State.keeps_submit v)

end Sys2Proof.Machine
end

section
/-! PROOFS. Requesters and their answers as moves that keep the laws of the key slots: time, draws and derivations
(R48, R49, R81), units answered done (R167) or that their write failed (R169). -/

namespace Sys2Proof.Machine

variable {s t u : State}

/-! ### Time and tamper lines -/

theorem State.keeps_askCharge : s.Keeps s.askCharge :=
  .of_follows State.follows_askCharge (by simp [State.slotLook, State.scrubHead])

theorem State.keeps_chargeP : s.Keeps s.chargeP := .of_look (by
  unfold State.chargeP; dsimp only; split <;> simp [State.keyLook, State.recordLook, State.scrubHead])

theorem State.keeps_chargeNp : s.Keeps s.chargeNp := .of_look (by
  unfold State.chargeNp; dsimp only; split <;> simp [State.keyLook, State.recordLook, State.scrubHead])

theorem State.keeps_takeQMark : s.Keeps s.takeQMark :=
  .ite (fun _ => State.keeps_askCharge.after (State.keeps_chargeP.after (.of_look rfl)))
    fun _ => State.keeps_askCharge.after (.of_look rfl)

theorem State.keeps_countMinute : s.Keeps s.countMinute :=
  .ite (fun _ => State.keeps_takeQMark.after (.of_look rfl)) fun _ => .of_look rfl

theorem State.keeps_countSecond : s.Keeps s.countSecond :=
  .ite (fun _ => State.keeps_countMinute) fun _ => .of_look rfl

theorem State.keeps_second : s.Keeps s.second := by
  have expired (l : List SlotIx) (b : State) : b.Keeps (b.expireSlots l) :=
    State.foldl_keepsKeys (fun _ i => State.keeps_serveMedia.after
      (State.keeps_startWalkIfDue.after (State.keeps_expire i))) l b
  have ticked : s.Keeps (s.tickBackoffs.tickSlots.expireSlots s.expiring) := (expired _ _).after (.of_look rfl)
  exact State.keeps_countSecond.after (ticked.trans (.of_look rfl))

theorem State.keeps_timeFault (v : Nat) : s.Keeps (s.timeFault v) :=
  .of_look (by simp [State.keyLook, State.recordLook, State.scrubHead])

theorem State.keeps_seeSlow : s.Keeps s.seeSlow := .of_look (by
  unfold State.seeSlow; repeat' split
  all_goals rfl)

theorem State.keeps_seeNeverStarted : s.Keeps s.seeNeverStarted :=
  .ite (fun _ => .ite (fun _ => State.keeps_timeFault 1) fun _ => .refl s)
    fun _ => .ite (fun _ => .of_look rfl) fun _ => .refl s

theorem State.keeps_seeStopped : s.Keeps s.seeStopped :=
  .ite (fun _ => (State.keeps_timeFault 2).after (State.keeps_second.after (.of_look rfl))) fun _ => .refl s

theorem State.keeps_groupEvent (g : Group) (lines : List LineIx) (b : Bool) : s.Keeps (s.groupEvent g lines b) := by
  have latched := State.foldl_keepsKeys (fun c n => .of_look (t := c.latch n) rfl) lines s
  exact latched.trans (.of_look (by simp [State.groupEvent, State.keyLook, State.recordLook, State.scrubHead]))

theorem State.keeps_setArmed (g : Group) (v : Bool) : s.Keeps (s.setArmed g v) :=
  .of_look (by simp [State.keyLook, State.recordLook, State.scrubHead])

theorem State.keeps_eventIfDue (g : Group) : s.Keeps (s.eventIfDue g) :=
  .ite (fun _ => State.keeps_groupEvent _ _ _) fun _ => .refl s

theorem State.keeps_rearmIfDue (g : Group) : s.Keeps (s.rearmIfDue g) :=
  .ite (fun _ => State.keeps_setArmed g true) fun _ => .refl s

theorem State.keeps_sample (levels : BitVec 4) : s.Keeps (s.sample levels) :=
  (State.foldl_keepsKeys (fun _ g => .ite (fun _ => State.keeps_eventIfDue g) fun _ => State.keeps_rearmIfDue g)
    _ _).after (.of_look rfl)

theorem State.keeps_firstSample (levels : BitVec 4) : s.Keeps (s.firstSample levels) := by
  refine (State.foldl_keepsKeys (fun c g => ?_) _ _).after (.of_look rfl)
  exact .ite (fun _ => State.keeps_groupEvent _ _ _)
    fun _ => .ite (fun _ => State.keeps_setArmed g true) fun _ => State.keeps_setArmed g false

theorem State.keeps_startUp (x : StartUp) : s.Keeps { s with startUp := x } := .of_look rfl

theorem State.keeps_stepFive (levels : BitVec 4) : s.Keeps (s.stepFive levels) :=
  State.keeps_releaseController.after ((State.keeps_startUp _).after (State.keeps_firstSample levels))

/-! ### Derivations and draws (R48, R49, R81) -/

theorem State.keeps_presentFails (p : PresentRequest) (a : Nat) : s.Keeps (s.presentFails p a) :=
  .of_look (by simp [State.keyLook, State.recordLook, State.scrubHead])

theorem State.keeps_derivationEnds : s.Keeps s.derivationEnds := by
  unfold State.derivationEnds
  dsimp only
  repeat' split
  · exact .refl s
  · exact (State.keeps_submit _).after (.of_look rfl)
  · exact (State.keeps_presentFails _ _).after (.of_look rfl)
  · exact (State.keeps_presentFails _ _).after (.of_look rfl)
  · exact (State.keeps_submit _).after (.of_look rfl)

/-- A link reset, up to the end of its event. -/
theorem State.keeps_linkReset_blocks : s.Keeps
    (allRegions.foldl State.zeroAdmitted s.emptyPort.abandonChunks).resetChannel.stopDerivation.dropWaitingSalts := by
  have zeroed : s.Keeps (allRegions.foldl State.zeroAdmitted s.emptyPort.abandonChunks) :=
    (State.foldl_keepsKeys (fun _ r => State.keeps_zeroAdmitted r) _ _).after
      (.of_look (by simp [State.keyLook, State.recordLook, State.scrubHead]))
  have stopped (b : State) : b.Keeps b.resetChannel.stopDerivation :=
    .of_look (by simp [State.keyLook, State.recordLook, State.scrubHead])
  have dropped (b : State) : b.Keeps b.dropWaitingSalts :=
    State.keeps_fewerDraws fun d hd => ((List.Sublist.refl _).append List.filter_sublist).subset hd
  exact (dropped _).after ((stopped _).after zeroed)

theorem State.keeps_requestWaiting (key : Bool) : s.Keeps (s.requestWaiting key) := by
  unfold State.requestWaiting
  split
  · rename_i d hd
    have perm : ((s.random.queue ++ [d]) ++ s.random.waiting.erase d).Perm (s.random.queue ++ s.random.waiting) := by
      rw [List.append_assoc]
      exact List.Perm.append_left _ (List.perm_cons_erase (List.mem_of_find?_eq_some hd)).symm
    exact State.keeps_fewerDraws fun c hc => perm.subset hc
  · exact .refl s

/-- The working record takes drawn material (R49). -/
theorem State.keeps_wrapMaterial {r : RegionIx} {g : Nat} (h : g ≤ s.keys[r].highestDrawn) (bits : BitVec 512) :
    s.Keeps (s.wrapMaterial r g bits) :=
  .ite (fun newer => State.keeps_setKey fun _ => ⟨Nat.le_of_lt newer, h⟩) fun _ => .refl s

theorem State.keeps_takeMaterial {r : RegionIx} {g : Nat} (h : g ≤ s.keys[r].highestDrawn) (use : DrawUse)
    (bits : BitVec 512) : s.Keeps (s.takeMaterial r g use bits) := by
  unfold State.takeMaterial
  repeat' split
  · exact (State.keeps_submit _).after (State.keeps_wrapMaterial h bits)
  · exact .refl s
  · exact (State.keeps_keyComplete _ _).after (State.keeps_wrapMaterial h bits)
  · exact .refl s

theorem State.keeps_saltArrives (q : SecretRequest) (salt : BitVec 128) : s.Keeps (s.saltArrives q salt) :=
  .ite (fun _ => .of_look rfl) fun _ => .refl s

/-- A draw's end leaves what is loaded, and what warrants it. -/
theorem State.endDraw_rest (bits : BitVec 512) : (s.endDraw bits).geometry = s.geometry
    ∧ (s.endDraw bits).fuses = s.fuses ∧ (s.endDraw bits).keys = s.keys ∧ (s.endDraw bits).regions = s.regions
    ∧ (s.endDraw bits).scrubHead = s.scrubHead := by
  have wrapped (b : State) (r : RegionIx) (g : Nat) : (b.wrapMaterial r g bits).work.scrubList = b.work.scrubList := by
    unfold State.wrapMaterial; split <;> rfl
  unfold State.endDraw
  split
  · exact ⟨rfl, rfl, rfl, rfl, rfl⟩
  · dsimp only
    split
    · unfold State.takeMaterial
      repeat' split
      all_goals simp [State.scrubHead, wrapped]
    · unfold State.saltArrives
      split <;> simp [State.scrubHead]

/-- The drawn generation counts as drawn, by the law (R46). -/
theorem State.keeps_endDraw (bits : BitVec 512) : s.Keeps (s.endDraw bits) := by
  obtain ⟨geometry, fuses, keys, regions, head⟩ := s.endDraw_rest bits
  refine ⟨⟨geometry, fuses⟩, fun law => law.of_loaded (fun r => by rw [keys]) regions head, fun order => ?_⟩
  refine State.Keeps.generations ?_ order
  unfold State.endDraw
  split
  · exact .refl s
  · rename_i d rest queue
    have popped : s.Keeps { s with random := { s.random with queue := rest } } :=
      State.keeps_fewerDraws fun c hc => by
        rw [queue]
        exact ((List.sublist_cons_self d rest).append (.refl _)).subset hc
    have next := popped.trans (State.keeps_requestWaiting d.isKey)
    dsimp only
    split
    · rename_i r g use
      refine next.trans (State.keeps_takeMaterial ?_ use bits)
      obtain ⟨-, -, -, -, draws⟩ := order r
      have slots (b : State) : (b.requestWaiting (Draw.isKey (.key r g use))).keys = b.keys := by simp
      rw [slots]
      exact draws g use (.inl (by rw [queue]; exact List.mem_cons_self))
    · exact next.trans (State.keeps_saltArrives _ _)

/-! ### Units that wait inside a requester (R166) -/

theorem State.keeps_submitDeferredUpTo (q : Requester) (n : Nat) (s : State) :
    s.Keeps (s.submitDeferredUpTo q n) := by
  induction n generalizing s with
  | zero => exact .refl s
  | succ n ih =>
    unfold State.submitDeferredUpTo
    refine .ite (fun _ => .refl s) fun _ => ?_
    split
    · exact .refl s
    · dsimp only
      split
      · exact (ih _).after ((State.keeps_reply _ _ _ _).after (.of_look rfl))
      · exact (State.keeps_submit _).after (.of_look rfl)

theorem State.keeps_submitDeferred (q : Requester) : s.Keeps (s.submitDeferred q) :=
  State.keeps_submitDeferredUpTo q _ s

/-! ### The answers to a PRESENT and a REVERT charge (R83, R85, R162) -/

theorem State.keeps_chargeDone (p : PresentRequest) (secret : List Byte) : s.Keeps (s.chargeDone p secret) := by
  unfold State.chargeDone
  dsimp only
  repeat' split
  · exact .of_look rfl
  · exact (State.keeps_presentFails _ _).after (.of_look rfl)
  · exact (State.keeps_presentFails _ _).after (.of_look rfl)

theorem State.keeps_openRequest (p : PresentRequest) : s.Keeps (s.openRequest p) := by
  have opened (k : RightKind) (b : State) : b.Keeps (allRegions.foldl (State.openNamed p k) b) :=
    State.foldl_keepsKeys (fun c r => .ite (fun _ => State.keeps_openRight k r) fun _ => .refl c) _ b
  exact (opened .read s).trans (opened .write _)

theorem State.keeps_opening (p : PresentRequest) : s.Keeps (s.opening p) := by
  unfold State.opening
  refine .ite (fun _ => State.keeps_reply _ _ _ _) fun _ => ?_
  have presented : s.Keeps (s.setCredStatus p.credential { s.credentials[p.credential] with presented := true }) :=
    .of_look rfl
  have opened := presented.trans (State.keeps_openRequest p)
  have retired (b : State) : b.Keeps (if p.retire then b.retire else b) :=
    .ite (fun _ => .of_look (by simp [State.keyLook, State.recordLook, State.scrubHead])) fun _ => .refl b
  exact (State.keeps_reply _ _ _ _).after (opened.trans (retired _))

theorem State.keeps_refundDone (p : PresentRequest) : s.Keeps (s.refundDone p) := by
  unfold State.refundDone
  dsimp only
  exact (State.keeps_opening p).after (.ite (fun _ => State.keeps_administratorRefund.after (.of_look rfl))
    fun _ => .of_look rfl)

theorem State.keeps_beginRevert (id : Nat) (scrub : Bool) : s.Keeps (s.beginRevert id scrub) := by
  have begun (b : State) : b.Keeps { b.clearFlags with reverting := true, revertRequest := some (id, scrub) } :=
    .of_look rfl
  have begun := State.keeps_lockAll.trans (begun s.lockAll)
  exact begun.trans (State.foldl_keepsKeys (fun c r => .ite (fun _ => State.keeps_beginErase r _ _) fun _ => .refl c)
    _ _)

theorem State.keeps_revertChargeDone (id : Nat) (scrub : Bool) (code : List Byte) :
    s.Keeps (s.revertChargeDone id scrub code) := by
  unfold State.revertChargeDone
  dsimp only
  exact .ite (fun _ => .ite (fun _ => (State.keeps_beginRevert id scrub).after (.of_look rfl))
    fun _ => (State.keeps_reply _ _ _ _).after (.of_look rfl)) fun _ => .of_look rfl

/-! ### Crypto-erases, DEFINE-REGION and walks answered (R38 to R40, R51, R151, R160) -/

/-- The head of the scrub list stays where the entries keep their regions. -/
theorem State.entryToStart_scrubHead (r : RegionIx) : (s.entryToStart r).scrubHead = s.scrubHead := by
  unfold State.entryToStart State.scrubHead
  cases s.work.scrubList with
  | nil => rfl
  | cons e l =>
    simp only [List.map_cons, List.head?_cons, Option.map_some]
    split <;> rfl

theorem State.keeps_entryToStart (r : RegionIx) : s.Keeps (s.entryToStart r) :=
  .of_look (by simp only [State.keyLook, State.entryToStart_scrubHead]; rfl)

/-- The head of a scrub list that is not empty stays where an entry is appended. -/
theorem State.keeps_appendEntry (e : ScrubEntry) :
    s.Keeps { s with work := { s.work with scrubList := s.work.scrubList ++ [e] } } := by
  refine .of_records rfl (fun _ => rfl) fun law => law.of_fewer (fun _ => id) fun r warrant =>
    warrant.imp id fun head => ?_
  unfold State.scrubHead at head ⊢
  cases hl : s.work.scrubList with
  | nil => rw [hl] at head; cases head
  | cons x l => rw [hl] at head; exact head

theorem State.keeps_applyScrubEntry (r : RegionIx) : s.Keeps (s.applyScrubEntry r) := by
  have outdated : s.Keeps { s with scrub := s.scrub.outdate (· == r) } := .of_look rfl
  unfold State.applyScrubEntry
  dsimp only
  refine .ite (fun _ => ?_) fun _ => ?_
  · have moved := outdated.trans (State.keeps_entryToStart r)
    split
    · exact moved.trans (.of_look rfl)
    · exact moved
  · have appended := outdated.trans (State.keeps_appendEntry ⟨r, s.work.regions[r].startLba⟩)
    split
    · exact appended.trans State.keeps_settleHead
    · exact appended

theorem State.keeps_eraseDone (r : RegionIx) (scrub : Bool) : s.Keeps (s.eraseDone r scrub) := by
  have marked : s.Keeps (s.setRegion r { s.work.regions[r] with condition := s.eraseCondition r scrub }) := .of_look rfl
  unfold State.eraseDone
  dsimp only
  have dropped (b : State) : b.Keeps (b.dropErase r .response) := .of_look rfl
  refine (State.keeps_releaseHold r).after ((dropped _).after ?_)
  exact .ite (fun _ => marked.trans (State.keeps_applyScrubEntry r)) fun _ => marked

theorem State.keeps_keyDestructionDone (r : RegionIx) : s.Keeps (s.keyDestructionDone r) := by
  unfold State.keyDestructionDone
  dsimp only
  split
  · rename_i e _
    have ended := State.Keeps.after (State.keeps_eraseDone r e.scrub)
      (.of_look (s := s) (t := { s with work := { s.work with inProgress := s.stored.inProgress } }) rfl)
    exact State.keeps_stepBoundary.after (ended.trans (.of_look rfl))
  · exact .of_look rfl

theorem State.keeps_responseEndDone : s.Keeps s.responseEndDone := by
  unfold State.responseEndDone
  dsimp only
  split <;> exact .of_look rfl

theorem State.keeps_afterDisabling (r : RegionIx) : s.Keeps (s.afterDisabling r) := by
  unfold State.afterDisabling
  repeat' split
  · exact (State.keeps_beginErase r _ _).after (.of_look rfl)
  · exact State.keeps_passOver r
  · exact .refl s
  · exact .refl s

theorem State.keeps_endDisabling (r : RegionIx) : s.Keeps (s.endDisabling r) := by
  have released : s.Keeps ((s.dropErase r .disabling).releaseHold r) :=
    (State.keeps_releaseHold r).after (.of_look rfl)
  exact released.trans (.of_look rfl)

/-- A region that is enabled begins with both rights LOCKED, nothing admitted and no key loaded (R38). -/
theorem State.keeps_enabled (r : RegionIx) :
    s.Keeps ((s.setStatus r ⟨.locked, .locked, false, 0⟩).setSlotKey r { s.keys[r] with loaded := none }) := by
  refine .of_records rfl (fun q => ?_) fun law => State.keyLaw_iff.mpr fun q loaded => ?_
  · rw [State.setSlotKey_keys, getElem_set_fin]
    split
    · rename_i e; rw [e]
    · rfl
  · rw [State.setSlotKey_keys, getElem_set_fin] at loaded
    split at loaded
    · cases loaded
    · rename_i hq
      refine (State.keyLaw_iff.mp law q loaded).imp (fun warrant => ?_) id
      change ((s.regions.set r _)[q]).Warrants
      rw [getElem_set_fin, if_neg hq]
      exact warrant

theorem State.keeps_defineDone (d : DefineRequest) : s.Keeps (s.defineDone d) := by
  have defined (x : RegionRecord) : s.Keeps (s.setRegion d.region x).rebuildBoundary := .of_look rfl
  unfold State.defineDone
  cases d.kind with
  | enabling f =>
    dsimp only
    exact (State.keeps_reply _ _ _ _).after (((defined _).trans (State.keeps_enabled d.region)).trans (.of_look rfl))
  | change f =>
    dsimp only
    refine (State.keeps_reply _ _ _ _).after (.trans (.ite (fun _ => defined _) fun _ => ?_) (.of_look rfl))
    exact (defined _).trans (State.keeps_entryToStart d.region)
  | disabling =>
    dsimp only
    exact (State.keeps_afterDisabling _).after ((State.keeps_reply _ _ _ _).after
      ((defined _).trans (State.keeps_endDisabling d.region)))

/-- The head leaves the list, and its key makes the unload test (R54, R160). -/
theorem State.keeps_finishDone : s.Keeps s.finishDone := by
  unfold State.finishDone
  split
  · exact .refl s
  · rename_i h head
    refine State.keeps_settleHead.after (.of_records (by simp [State.recordLook]) (fun r => ?_) fun law => ?_)
    · rw [State.unloadTest_highestDrawn]; rfl
    · refine State.keyLaw_unloadTest fun q hq loaded => ?_
      refine .inl ((State.keyLaw_iff.mp law q loaded).resolve_right fun e => hq ?_)
      exact Option.some.inj (e.symm.trans head)

/-! ### What a failed write and a REVERT restore (R51, R163, R164) -/

/-- With no write under way a working record takes its stored copy again. -/
theorem State.keeps_restoreKey (hw : s.store.writing = none) (r : RegionIx) :
    s.Keeps (s.setKey r s.stored.keys[r]) := by
  refine ⟨⟨rfl, rfl⟩, id, fun order => ⟨fun q => ?_, fun _ => le_refl _⟩⟩
  obtain ⟨rise, drawn, last, -, draws⟩ := order q
  have record : (s.setKey r s.stored.keys[r]).work.keys[q] = if q = r then s.stored.keys[r] else s.work.keys[q] :=
    getElem_set_fin _ _ _ _
  have none_written (image : Records) : (s.setKey r s.stored.keys[r]).store.writing ≠ some image :=
    fun e => nomatch hw.symm.trans e
  rw [record]
  split
  · rename_i e
    subst e
    exact ⟨le_refl _, rise.trans drawn, last, fun image e => absurd e (none_written image), draws⟩
  · exact ⟨rise, drawn, last, fun image e => absurd e (none_written image), draws⟩

theorem State.keeps_defineUnsafe (hw : s.store.writing = none) (d : DefineRequest) : s.Keeps (s.defineUnsafe d) := by
  have restored := State.keeps_restoreKey hw d.region
  unfold State.defineUnsafe
  split
  · exact (State.keeps_reply _ _ _ _).after (restored.trans (.of_look rfl))
  · exact (State.keeps_reply _ _ _ _).after (.of_look rfl)
  · exact (State.keeps_afterDisabling _).after ((State.keeps_reply _ _ _ _).after
      (restored.trans (State.keeps_endDisabling _)))

theorem State.keeps_endRevertErase (hw : s.store.writing = none) (r : RegionIx) : s.Keeps (s.endRevertErase r) :=
  .ite (fun _ => .refl s) fun _ => (State.keeps_restoreKey hw r).trans (State.keeps_setHold r false)

theorem State.keeps_revertUnsafe (hw : s.store.writing = none) (id : Nat) : s.Keeps (s.revertUnsafe id) := by
  have ended (l : List RegionIx) (b : State) (hb : b.store.writing = none) :
      b.Keeps (l.foldl (fun c r => c.endRevertErase r) b) := by
    induction l generalizing b with
    | nil => exact .refl b
    | cons r l ih => exact (State.keeps_endRevertErase hb r).trans (ih _ (by simpa using hb))
  exact (State.keeps_reply _ _ _ _).after ((ended _ _ (by exact hw)).after (.of_look rfl))

theorem State.keeps_unloadTest (r : RegionIx) : s.Keeps (s.unloadTest r) := by
  refine .of_records (by simp [State.recordLook]) (fun q => State.unloadTest_highestDrawn r q) fun law => ?_
  exact State.keyLaw_unloadTest fun q _ => State.keyLaw_iff.mp law q

theorem State.keeps_unloadOldHead (old : Option RegionIx) : s.Keeps (s.unloadOldHead old) := by
  unfold State.unloadOldHead
  split
  · exact State.keeps_unloadTest _
  · exact .refl s

/-- What a REVERT's done answer makes of what the laws look at: the working copies are the stored ones, and every right
is LOCKED (R163). -/
theorem State.takeReverted_look : s.takeReverted.clearReverted.settleHead.recordLook
      = (s.geometry, s.fuses, s.stored.keys, s.stored.keys, s.random.queue, s.random.waiting, s.store.writing)
    ∧ s.takeReverted.clearReverted.settleHead.stored = s.stored
    ∧ s.takeReverted.clearReverted.settleHead.keys = s.lockAll.keys
    ∧ s.takeReverted.clearReverted.settleHead.regions
      = tabMap (fun x => { x with eraseHold := false }) s.lockAll.regions := by
  rw [State.takeReverted_eq]
  simp [State.clearReverted, State.recordLook]

/-- Only the key of the head that the list had may lack a warrant, until its unload test (R54, R163). -/
theorem State.keeps_reverted (hw : s.store.writing = none) :
    s.Keeps (s.takeReverted.clearReverted.settleHead.unloadOldHead s.scrubHead) := by
  obtain ⟨records, stored, keys, regions⟩ := s.takeReverted_look
  have locked : s.Keeps s.lockAll := State.keeps_lockAll
  generalize s.takeReverted.clearReverted.settleHead = b at *
  simp only [State.recordLook, Prod.mk.injEq] at records
  obtain ⟨geometry, fuses, -, work, queue, waiting, writing⟩ := records
  have old : b.Keeps (b.unloadOldHead s.scrubHead) := State.keeps_unloadOldHead _
  refine ⟨⟨old.manufacture.1.trans geometry, old.manufacture.2.trans fuses⟩, fun law => ?_, fun order => ?_⟩
  · have others (q : RegionIx) (hq : s.scrubHead ≠ some q) (loaded : b.keys[q].loaded.isSome = true) :
        b.Warranted q := by
      rw [keys] at loaded
      have warrant := State.keyLaw_iff.mp (locked.keys law) q loaded
      simp only [State.Warranted, State.scrubHead, State.lockAll_rest] at warrant
      have held : b.regions[q] = { s.lockAll.regions[q] with eraseHold := false } := by
        rw [regions]; exact getElem_tabMap _ _ _ _
      generalize s.lockAll.regions[q] = x at held warrant
      exact .inl (held ▸ warrant.resolve_right hq)
    cases head : s.scrubHead with
    | none => exact State.keyLaw_iff.mpr fun q => others q (by simp [head])
    | some h => exact State.keyLaw_unloadTest fun q hq => others q (by rw [head]; simpa using Ne.symm hq)
  · have reread : b.GenerationLaw := fun r => by
      obtain ⟨rise, drawn, last, -, draws⟩ := (locked.generations order).1 r
      simp only [State.lockAll_rest] at rise drawn draws
      rw [stored, work, queue, waiting, writing, hw, keys]
      exact ⟨le_refl _, rise.trans drawn, last, (fun _ e => nomatch e), draws⟩
    obtain ⟨ended, rise⟩ := old.generations reread
    exact ⟨ended, fun r => stored ▸ rise r⟩

theorem State.keeps_alert (kind : AlertKind) (severity : Severity) (source : Option SourceIx)
    (mask : Option (BitVec 16)) (value : Option Nat) (repeats : Nat) :
    s.Keeps (s.alert kind severity source mask value repeats) := .of_look rfl

theorem State.keeps_revertDone (hw : s.store.writing = none) (id : Nat) : s.Keeps (s.revertDone id) :=
  (State.keeps_reply _ _ _ _).after ((State.keeps_alert _ _ _ _ _ _).after
    (State.keeps_startWalkIfDue.after (State.keeps_reverted hw)))

end Sys2Proof.Machine
end

section
/-! PROOFS. Every step keeps the laws of the key slots: loaded keys are warranted (R52), generations are in order and
none that is stored falls (R46), and what was fixed at manufacture stands. -/

namespace Sys2Proof.Machine

variable {s t u : State}

/-! ### The answers (R167, R169) -/

theorem State.keeps_unitDone (hw : s.store.writing = none) (v : CommitUnit) : s.Keeps (s.unitDone v) := by
  cases v with
  | charge p secret => exact State.keeps_chargeDone p secret
  | revertCharge id scrub code => exact State.keeps_revertChargeDone id scrub code
  | refund p => exact State.keeps_refundDone p
  | regionDefinition d => exact State.keeps_defineDone d
  | responseBegin => exact State.keeps_stepBoundary.after (State.keeps_submitCountReset.trans (.of_look rfl))
  | keyDestruction r => exact (State.keeps_keyDestructionDone r).after State.keeps_submitCountReset
  | responseEnd => exact State.keeps_responseEndDone
  | countReset => exact State.keeps_submitCountReset.after (.of_look rfl)
  | checkpoint => exact State.keeps_tryFinish.after (.of_look rfl)
  | finish => exact State.keeps_finishDone
  | setTamper id n x =>
    exact .of_look (by simp [State.unitDone, State.tamperDone, State.keyLook, State.recordLook, State.scrubHead])
  | revert id scrub => exact State.keeps_revertDone hw id
  | deadlineCharge => exact .of_look rfl
  | _ => exact (State.keeps_reply _ _ _ _).after (.of_look rfl)

theorem State.keeps_unitUnsafe (hw : s.store.writing = none) (v : CommitUnit) : s.Keeps (s.unitUnsafe v) := by
  cases v with
  | regionDefinition d => exact State.keeps_defineUnsafe hw d
  | responseBegin | responseEnd => exact State.keeps_resubmit _
  | keyDestruction r => exact .ite (fun _ => State.keeps_resubmit _) fun _ => .refl s
  | countReset => exact State.keeps_submitCountReset
  | checkpoint => exact State.keeps_tryFinish.after (.of_look rfl)
  | finish => exact State.keeps_submit _
  | revert id scrub => exact State.keeps_revertUnsafe hw id
  | deadlineCharge => exact .of_look rfl
  | _ => exact (State.keeps_reply _ _ _ _).after (.of_look rfl)

theorem State.keeps_popHead : s.Keeps s.popHead := .of_follows State.follows_popHead rfl

/-- The store holds what the head wrote: generations at or above the stored ones (R46, R167). -/
theorem State.keeps_headWritten {image : Records} (hw : s.store.writing = some image) :
    s.Keeps (s.headWritten image) := by
  refine ⟨⟨rfl, rfl⟩, id, fun order => ⟨fun r => ?_, fun r => ?_⟩⟩
  · obtain ⟨-, drawn, last, write, draws⟩ := order r
    exact ⟨(write image hw).2, drawn, last, (fun _ e => nomatch e), draws⟩
  · obtain ⟨-, -, -, write, -⟩ := order r
    exact (write image hw).1

theorem State.keeps_answerDone {image : Records} (hw : s.store.writing = some image) (v : CommitUnit) :
    s.Keeps (s.answerDone v image) := by
  refine State.keeps_settle.after ((State.keeps_submitDeferred _).after ?_)
  exact (State.keeps_unitDone (s := s.headWritten image) rfl v).after (State.keeps_headWritten hw)

theorem State.keeps_answerUnsafe (v : CommitUnit) : s.Keeps (s.answerUnsafe v) := by
  have counted : s.popHead.Keeps { s.popHead with holdup := { s.holdup with lowCount := 0 } } := .of_look rfl
  refine State.keeps_settle.after ((State.keeps_submitDeferred _).after (.after (State.keeps_unitUnsafe rfl v) ?_))
  exact (State.keeps_alert _ _ _ _ _ _).after (State.keeps_popHead.trans counted)

theorem State.keeps_codePasses : s.Keeps s.codePasses := by
  unfold State.codePasses
  dsimp only
  split
  · exact .ite (fun _ => (State.keeps_startWrite _).after (.of_look rfl)) fun _ => .of_look rfl
  · exact .of_look rfl

theorem State.keeps_enterEpisode (code : Nat) : s.Keeps (s.enterEpisode code) :=
  .ite (fun _ => .refl s) fun _ => .of_look rfl

theorem State.keeps_codeLow (code : Nat) : s.Keeps (s.codeLow code) := by
  have entered := s.keeps_enterEpisode code
  unfold State.codeLow
  dsimp only
  split
  · refine .ite (fun _ => .ite (fun _ => ?_) fun _ => ?_) fun _ => entered
    · exact entered.trans (State.keeps_answerUnsafe _)
    · exact entered.trans (.of_look rfl)
  · exact entered

theorem State.keeps_conversionEnds (code : Nat) : s.Keeps (s.conversionEnds code) := by
  have recorded : s.Keeps (s.recordCode code) := .of_look rfl
  unfold State.conversionEnds
  dsimp only
  exact .ite (fun _ => .ite (fun _ => recorded.trans State.keeps_codePasses)
    fun _ => recorded.trans (State.keeps_codeLow code)) fun _ => .refl s

/-! ### Requests (R174) -/

theorem State.keeps_lockMask (k : RightKind) (mask : BitVec 16) : s.Keeps (s.lockMask k mask) :=
  State.foldl_keepsKeys (fun c r => .ite (fun _ => State.keeps_lockRight k r) fun _ => .refl c) _ s

theorem keeps_lockRequest (i : Nat) (r w : BitVec 16) (f : Byte) (s : State) : s.Keeps (lockRequest i r w f s) := by
  have locked : s.Keeps ((s.lockMask .read r).lockMask .write w) :=
    (State.keeps_lockMask .read r).trans (State.keeps_lockMask .write w)
  have cleared (b : State) : b.Keeps b.clearFlags := .of_look rfl
  unfold lockRequest
  dsimp only
  exact (State.keeps_reply _ _ _ _).after (.ite (fun _ => locked.trans (cleared _)) fun _ => locked)

theorem keeps_setSecretRequest (i : Nat) (c cost : Byte) (secret : List Byte) (s : State) :
    s.Keeps (setSecretRequest i c cost secret s) := by
  unfold setSecretRequest
  repeat' split
  · exact State.keeps_reply _ _ _ _
  · exact State.keeps_reply _ _ _ _
  · exact State.keeps_requestDraw fun _ _ _ e => nomatch e

theorem State.keeps_triggerOrder (l : Level) (m : BitVec 16) : s.Keeps (s.triggerOrder l m) := .of_look rfl

theorem keeps_eraseOrderRequest (i : Nat) (m : BitVec 16) (l : Byte) (s : State) :
    s.Keeps (eraseOrderRequest i m l s) := by
  unfold eraseOrderRequest
  split
  · exact State.keeps_reply _ _ _ _
  · split
    · exact State.keeps_reply _ _ _ _
    · exact ((State.keeps_reply _ _ _ _).after (State.keeps_triggerOrder _ _)).settle

theorem keeps_beginLoadRequest (i : Nat) (s : State) : s.Keeps (beginLoadRequest i s) :=
  .ite (fun _ => State.keeps_reply _ _ _ _) fun _ => .ite (fun _ => State.keeps_reply _ _ _ _) fun _ =>
    (State.keeps_reply _ _ _ _).after (.of_look rfl)

theorem keeps_retireWindowRequest (i : Nat) (s : State) : s.Keeps (retireWindowRequest i s) := by
  refine .ite (fun _ => State.keeps_reply _ _ _ _) fun _ => (State.keeps_reply _ _ _ _).after ?_
  exact .ite (fun _ => .of_look rfl) fun _ => .refl s

/-- The courses of a DEFINE-REGION (R38 to R40); a draw is made of a slot that is not spent (R47). -/
theorem keeps_defineRegionRequest (i : Nat) (region enable : Byte) (start length : BitVec 48)
    (pr pw conceal absorb : Byte) (s : State) :
    s.Keeps (defineRegionRequest i region enable start length pr pw conceal absorb s) := by
  have replied (c : ResultCode) : s.Keeps (s.reply i 0x09 c []) := State.keeps_reply _ _ _ _
  have begun (d : DefineRequest) : s.Keeps { s with define := some d } := .of_look rfl
  unfold defineRegionRequest
  split
  · exact replied _
  · extract_lets x e f
    refine .ite (fun _ => replied _) fun _ => .ite (fun _ => replied _) fun _ => .ite (fun _ => replied _) fun _ =>
      .ite (fun _ => replied _) fun _ => .ite (fun _ => replied _) fun _ => .ite (fun _ => replied _) fun _ =>
      .ite (fun _ => replied _) fun _ => .ite (fun _ => .ite (fun _ => replied _) fun _ => ?_) fun _ =>
      .ite (fun _ => replied _) fun _ => .ite (fun _ => ?_) fun _ => .ite (fun _ => replied _) fun unspent => ?_
    · exact ((State.keeps_beginErase _ _ _).after (begun _)).settle
    · exact (State.keeps_submitNow _).after (begun _)
    · exact (State.keeps_drawKey (by exact fun last => unspent (beq_iff_eq.mpr last)) _).after (begun _)

/-- Every request keeps the laws: beside those above, each is refused with a reply, or marks its block and submits its
unit. -/
theorem keeps_handRequest (id : Nat) (i : Instr) (s : State) : s.Keeps (handRequest id i s) := by
  cases i with
  | lock r w f => exact keeps_lockRequest id r w f s
  | setSecret c cost secret => exact keeps_setSecretRequest id c cost secret s
  | defineRegion r e st n pr pw cl ab => exact keeps_defineRegionRequest id r e st n pr pw cl ab s
  | eraseOrder m l => exact keeps_eraseOrderRequest id m l s
  | clearTamper m => exact (State.keeps_reply _ _ _ _).after (.of_look rfl)
  | fetchAlerts level => exact (State.keeps_reply _ _ _ _).after (.of_look rfl)
  | beginLoad => exact keeps_beginLoadRequest id s
  | retireWindow => exact keeps_retireWindowRequest id s
  | _ =>
    simp only [handRequest, statusQueryRequest, presentRequest, removeCredentialRequest, grantRequest, setLimitRequest,
      resetAttemptsRequest, ratchetRequest, setResponseRequest, setTamperRequest, setDeadlineRequest, setHoldupRequest,
      setScrubShareRequest, setMediaTimeoutRequest, setWindowRequest, endLoadRequest, setLabelRequest, revertRequest]
    repeat' split
    all_goals first
      | exact State.keeps_reply _ _ _ _
      | exact (State.keeps_submitNow _).after (.of_look rfl)
      | exact .refl s

end Sys2Proof.Machine
end

section
/-! PROOFS. O7, O8 and O11 settled: every command keeps the laws of the key slots. -/

namespace Sys2Proof.Machine

variable {s t u : State}

/-! ### The upstream port and the management channel -/

theorem State.keeps_takeMessage (kind : Byte) (read : Option Instr) (s : State) :
    s.Keeps (s.takeMessage kind read) := by
  have begun : s.Keeps s.beginRequest := .of_look rfl
  unfold State.takeMessage
  dsimp only
  repeat' split
  · exact (State.keeps_reply _ _ _ _).after begun
  · exact (State.keeps_reply _ _ _ _).after begun
  · exact (keeps_handRequest _ _ _).after begun

theorem State.keeps_offerRequest (i : Instr) (s : State) : s.Keeps (s.offerRequest i) :=
  .ite (fun _ => .refl s) fun _ => State.keeps_takeMessage _ _ s

theorem State.keeps_send (e : PortEvent) : s.Keeps (s.send e) := .of_look rfl

/-- An admitted segment warrants a key of its region (R13). -/
theorem State.keeps_admitTransfer (x : Transfer) : s.Keeps (s.admitTransfer x) := by
  have raised := State.foldl_keepsKeys (fun t (g : Segment) => State.keeps_raiseAdmitted (s := t) g) x.segments s
  have served (t : State) : t.Keeps (x.segments.foldl (State.serveAtAdmission x.tag x.start x.kind) t) :=
    State.foldl_keepsKeys (fun t g => by rw [State.serveAtAdmission_frame]; exact .of_look rfl) _ t
  refine State.Keeps.after (.ite (fun _ => State.keeps_send _) fun _ => ?_) ((served _).after raised)
  exact .of_look rfl

theorem State.keeps_takeBlocks (kind : TransferKind) (tag : BitVec 8) (start : BitVec 48) (count : BitVec 17)
    (data : List Block) : s.Keeps (s.takeBlocks kind tag start count data) := by
  unfold State.takeBlocks
  split
  · exact State.keeps_send _
  · split
    · exact State.keeps_send _
    · dsimp only
      split
      · exact State.keeps_send _
      · exact State.keeps_serveMedia.after (State.keeps_admitTransfer _)

theorem State.keeps_takeFlush (tag : BitVec 8) : s.Keeps (s.takeFlush tag) := by
  unfold State.takeFlush
  split
  · exact State.keeps_send _
  · exact State.keeps_serveMedia.after (State.keeps_admitTransfer _)

theorem State.keeps_takeManageSend (tag : BitVec 8) (message : List Byte) :
    s.Keeps (s.takeManageSend tag message) := by
  unfold State.takeManageSend
  repeat' split
  · exact State.keeps_send _
  · exact State.keeps_send _
  · exact State.keeps_send _
  · exact (State.keeps_takeMessage _ _ _).after (State.keeps_send _)

theorem State.keeps_takeManageFetch (tag : BitVec 8) : s.Keeps (s.takeManageFetch tag) := by
  unfold State.takeManageFetch
  split
  · exact State.keeps_send _
  · exact .of_look rfl

theorem State.keeps_takeRequest (i : Instr) (s : State) : s.Keeps (s.takeRequest i) := by
  cases i with
  | read tag start count => exact State.keeps_takeBlocks _ _ _ _ _
  | write tag start count data => exact State.keeps_takeBlocks _ _ _ _ _
  | discard tag start count => exact State.keeps_takeBlocks _ _ _ _ _
  | flush tag => exact State.keeps_takeFlush tag
  | manageSend tag message => exact State.keeps_takeManageSend tag message
  | manageFetch tag => exact State.keeps_takeManageFetch tag
  | requestOfUnknownKind tag => exact State.keeps_send _
  | _ => first | exact State.keeps_offerRequest _ s | exact .refl s

theorem State.keeps_request (i : Instr) (s : State) : s.Keeps (s.request i) := by
  unfold State.request
  split
  · exact State.keeps_takeRequest i s
  · exact .of_look rfl

theorem State.keeps_takeOffered : s.Keeps s.takeOffered := by
  have taken : s.Keeps { s with offered := [] } := .of_look rfl
  exact .ite (fun _ => taken.trans (State.foldl_keepsKeys (fun t i => State.keeps_takeRequest i t) _ _))
    fun _ => .refl s

/-! ### Power and start-up (R99, R100) -/

theorem keysAtPowerOn_get (p : Records) (r : RegionIx) :
    (keysAtPowerOn p)[r] = { highestDrawn := p.keys[r].generation, loaded := none } := by
  simp [keysAtPowerOn]

/-- At the rise of power-good no key is loaded, and the highest drawn generations are the stored ones (R50, R99). -/
theorem State.keeps_powerOn : s.Keeps
    (State.atPowerOn s.geometry s.fuses s.stored s.offered s.pending).rebuildBoundary := by
  refine ⟨⟨rfl, rfl⟩, fun _ => State.keyLaw_iff.mpr fun r loaded => ?_, fun order => ⟨fun r => ?_, fun _ => le_refl _⟩⟩
  · change (keysAtPowerOn s.stored)[r].loaded.isSome = true at loaded
    rw [keysAtPowerOn_get] at loaded
    cases loaded
  · obtain ⟨rise, drawn, last, -, -⟩ := order r
    have kept : (State.atPowerOn s.geometry s.fuses s.stored s.offered s.pending).rebuildBoundary.keys[r].highestDrawn
        = s.stored.keys[r].generation := congrArg KeySlot.highestDrawn (keysAtPowerOn_get s.stored r)
    rw [kept]
    refine ⟨le_refl _, le_refl _, (rise.trans drawn).trans last, (fun _ e => nomatch e), fun _ _ e => ?_⟩
    rcases e with e | e <;> cases e

/-- Step 1 takes the stored key records as the working ones and leaves no key loaded (R100). -/
theorem State.keeps_readStore : s.Keeps s.readStore := by
  have slot (r : RegionIx) : s.readStore.keys[r] = { s.keys[r] with loaded := none } := getElem_tabMap _ _ _ _
  refine ⟨⟨rfl, rfl⟩, fun _ => State.keyLaw_iff.mpr fun r loaded => ?_, fun order => ⟨fun r => ?_, fun _ => le_refl _⟩⟩
  · rw [slot] at loaded
    cases loaded
  · obtain ⟨rise, drawn, last, -, draws⟩ := order r
    rw [slot]
    exact ⟨le_refl _, rise.trans drawn, last, (fun _ e => nomatch e), draws⟩

theorem State.keeps_startTicks : s.Keeps s.startTicks := by
  unfold State.startTicks
  split
  · exact .of_look rfl
  · exact .of_look rfl
  · exact (State.keeps_timeFault 1).after (.of_look rfl)

theorem State.keeps_firstSteps : s.Keeps s.firstSteps := by
  have np (t : State) : t.Keeps (if t.work.deadlines.dn ≠ 0 then t.chargeNp.askCharge else t) :=
    .ite (fun _ => State.keeps_askCharge.after State.keeps_chargeNp) fun _ => .refl t
  have p (t : State) : t.Keeps (if t.work.deadlines.dp ≠ 0 then t.chargeP.askCharge else t) :=
    .ite (fun _ => State.keeps_askCharge.after State.keeps_chargeP) fun _ => .refl t
  exact (p _).after ((np _).after (State.keeps_startTicks.after State.keeps_readStore))

/-! ### The step -/

theorem State.keeps_takeData (operation : BitVec 32) (offset : Nat) (block : Block) :
    s.Keeps (s.takeData operation offset block) := .of_look (by simp [State.keyLook, State.recordLook, State.scrubHead])

theorem State.keeps_takeCompletion (operation : BitVec 32) (good : Bool) (s : State) :
    s.Keeps (s.takeCompletion operation good) := by
  unfold State.takeCompletion
  repeat' split
  · exact .refl s
  · exact .refl s
  · exact (State.keeps_release _ _ _).settle

theorem State.keeps_grantOnce (g : Grant) : s.Keeps (s.grantOnce g) :=
  .of_look (by simp [State.keyLook, State.recordLook, State.scrubHead])

theorem State.keeps_sampleTick (levels : BitVec 4) (s : State) : s.Keeps (s.sampleTick levels) := by
  unfold State.sampleTick
  split
  · exact .refl s
  · exact State.keeps_takeOffered.after (State.keeps_stepFive levels).settle
  · exact (State.keeps_sample levels).settle
  · exact (State.keeps_sample levels).settle

theorem State.keeps_passHead (s : State) : s.Keeps s.passHead := by
  unfold State.passHead
  repeat' split
  · exact State.keeps_startWrite _
  · exact .refl s
  · exact .refl s

theorem State.keeps_writeEnds (s : State) : s.Keeps s.writeEnds := by
  unfold State.writeEnds
  split
  · rename_i image _ hw
    exact State.keeps_answerDone hw _
  · exact .refl s

/-- Every command keeps the laws of the key slots. -/
theorem State.keeps_exec {i : Instr} (he : Machine.exec i s = .next t) : s.Keeps t := by
  have next {u : State} (hu : Machine.exec i s = .next u) (h : s.Keeps u) : s.Keeps t := by
    rw [hu] at he; cases he; exact h
  have quiet : s.Keeps s.quiet := .of_look rfl
  have guarded {c : Prop} [Decidable c] {u : State} (h : s.quiet.Keeps u) : s.Keeps (if c then u else s.quiet) :=
    .ite (fun _ => quiet.trans h) fun _ => quiet
  have settled {u : State} (h : s.quiet.Keeps u) : s.Keeps u.settle := quiet.trans h.settle
  cases i with
  | powerGoodRise => exact next rfl State.keeps_powerOn
  | powerGoodFall => exact next rfl (.of_look rfl)
  | storeReadEnd => exact next rfl (guarded State.keeps_firstSteps.settle)
  | linkReset => exact next rfl (settled State.keeps_linkReset_blocks)
  | mediaData operation offset block => exact next rfl (guarded (State.keeps_takeData _ _ _))
  | mediaCompletion operation good => exact next rfl (guarded (State.keeps_takeCompletion _ _ _))
  | mediaTimeout slot => exact next rfl (guarded (State.keeps_expire slot).settle)
  | segmentIssue =>
    refine next rfl (quiet.trans ?_)
    split
    · exact State.keeps_grantOnce _
    all_goals exact .refl _
  | chunkIssue =>
    refine next rfl (quiet.trans ?_)
    split
    · exact State.keeps_grantOnce _
    · exact State.keeps_grantOnce _
    all_goals exact .refl _
  | secondTick => exact next rfl (guarded State.keeps_second.settle)
  | minuteCounted => exact next rfl (guarded State.keeps_countMinute.settle)
  | qMark => exact next rfl (guarded State.keeps_takeQMark.settle)
  | backoffEnd credential => exact next rfl (guarded (.of_look rfl))
  | revertBackoffEnd => exact next rfl (guarded (.of_look rfl))
  | sampleTick levels => exact next rfl (quiet.trans (State.keeps_sampleTick levels _))
  | tamperEvent group => exact next rfl (settled (State.keeps_eventIfDue group))
  | groupRearm group => exact next rfl (quiet.trans (State.keeps_rearmIfDue group))
  | slowSourceRunning => exact next rfl (quiet.trans State.keeps_seeSlow)
  | timeFaultNeverStarted => exact next rfl (settled State.keeps_seeNeverStarted)
  | timeFaultStopped => exact next rfl (settled State.keeps_seeStopped)
  | randomSourceReady => exact next rfl (quiet.trans (.of_look rfl))
  | randomDrawEnd bits =>
    exact next rfl (guarded (State.keeps_takeOffered.after (State.keeps_endDraw bits).settle))
  | derivationEnd => exact next rfl (settled State.keeps_derivationEnds)
  | conversionEnd nanovolts => exact next rfl (quiet.trans (State.keeps_conversionEnds _))
  | commitWriteStart => exact next rfl (quiet.trans (State.keeps_passHead _))
  | commitWriteEnd => exact next rfl (quiet.trans (State.keeps_writeEnds _))
  | deferredUnitSubmit requester => exact next rfl (quiet.trans (State.keeps_submitDeferred requester).settle)
  | keyDestruction region => exact next rfl (settled (State.keeps_destroyIfDue region))
  | responseTake => exact next rfl (settled State.keeps_takeIfFree)
  | scrubWalkStart => exact next rfl (settled State.keeps_startWalkIfDue)
  | _ => exact next rfl (quiet.trans (State.keeps_request _ _))

/-- Every step keeps the laws of the key slots. -/
theorem State.keeps_step (hs : step s = .next t) : s.Keeps t := by
  cases hp : s.pending with
  | nil =>
    rw [step, hp] at hs
    cases hs
    exact .refl s
  | cons c rest =>
    rw [step, hp] at hs
    have removed : s.Keeps { s with pending := rest } := .of_look rfl
    exact removed.trans (State.keeps_exec hs)

end Sys2Proof.Machine

namespace Sys2Proof.Proofs

open Sys2Proof Sys2Proof.Machine

/-- Settles O7: a key is loaded where a right opens, a transfer is admitted or a walk starts, and what takes a warrant
away unloads it. -/
theorem keyLawKept : Obligations.KeyLawKept := fun _ _ h hs => (State.keeps_step hs).keys h

/-- Settles O8: a generation is taken one above the highest drawn, and the store takes what a unit holds of the working
records. -/
theorem generationsNeverFall : Obligations.GenerationsNeverFall := fun _ _ h hs => (State.keeps_step hs).generations h

/-- Settles O11: no move changes what was fixed at manufacture. -/
theorem manufactureUnchanged : Obligations.ManufactureUnchanged := fun _ _ hs => (State.keeps_step hs).manufacture

end Sys2Proof.Proofs
end

section
/-! PROOFS. The random source: what becomes of the bits of a draw that ends (R48, R49, R93, R150). -/

namespace Sys2Proof.Machine

variable {s t : State}

/-- A still state in which a unit is submitted meets the gate, and nothing else is due (R166, R169). -/
theorem State.settle_submit (h : s.Still) (v : CommitUnit) : (s.submit v).settle = s.submitNow v := by
  obtain ⟨response, destructions, phase, walk, media, -⟩ := h
  rw [State.submitNow, State.submit_frame]
  exact State.settle_to_gate response destructions phase walk media

/-- Without requests that wait for port ready, its assertion takes none (R1). -/
theorem State.takeOffered_of_none (h : s.offered = []) : s.takeOffered = s := by
  unfold State.takeOffered
  split
  · rw [h, List.foldl_nil, ← h]
  · rfl

/-- The random source without the draw that was first in its queue. -/
def State.drawn (s : State) (rest : List Draw) : State :=
  { s with sent := [], random := { s.random with queue := rest } }

theorem State.still_drawn (h : s.Still) (rest : List Draw) : (s.drawn rest).Still := h

theorem State.requestWaiting_of_none (h : s.random.waiting = []) (key : Bool) : s.requestWaiting key = s := by
  rw [State.requestWaiting, h, List.find?_nil]

/-- A draw of key material ends, and its requester holds no second one (R48). -/
theorem State.endDraw_of_key {r : RegionIx} {g : Nat} {use : DrawUse} {rest : List Draw}
    (hq : s.random.queue = .key r g use :: rest) (hw : s.random.waiting = []) (bits : BitVec 512) :
    s.quiet.endDraw bits = (s.drawn rest).takeMaterial r g use bits := by
  have first : s.quiet.random.queue = .key r g use :: rest := hq
  rw [State.endDraw, first]
  exact congrArg (State.takeMaterial r g use bits) (State.requestWaiting_of_none (s := s.drawn rest) hw _)

/-- A draw of a salt ends, and no second one is held back (R48). -/
theorem State.endDraw_of_salt {q : SecretRequest} {rest : List Draw} (hq : s.random.queue = .salt q :: rest)
    (hw : s.random.waiting = []) (bits : BitVec 512) :
    s.quiet.endDraw bits = (s.drawn rest).saltArrives q (bits.extractLsb' 0 128) := by
  have first : s.quiet.random.queue = .salt q :: rest := hq
  rw [State.endDraw, first]
  exact congrArg (State.saltArrives q _) (State.requestWaiting_of_none (s := s.drawn rest) hw _)

theorem exec_randomDrawEnd_of_ready (hr : s.random.ready = true) (bits : BitVec 512) :
    exec (.randomDrawEnd bits) s = .next (s.quiet.endDraw bits).settle.takeOffered := by
  have run : exec (.randomDrawEnd bits) s
      = .next (if s.random.ready then (s.quiet.endDraw bits).settle.takeOffered else s.quiet) := rfl
  rw [run, if_pos hr]

/-- A draw that ends in a still state: nothing else is due in the event. -/
theorem exec_randomDrawEnd_still {bits : BitVec 512} (hr : s.random.ready = true)
    (he : s.quiet.endDraw bits = t) (ht : t.Still) (ho : t.offered = []) : exec (.randomDrawEnd bits) s = .next t := by
  rw [exec_randomDrawEnd_of_ready hr, he, State.settle_of_still ht, State.takeOffered_of_none ho]

/-- A draw that ends with the submission of a unit in an otherwise still state (R150, R166). -/
theorem exec_randomDrawEnd_submits {bits : BitVec 512} {v : CommitUnit} (hr : s.random.ready = true)
    (he : s.quiet.endDraw bits = t.submit v) (ht : t.Still) (ho : t.offered = [])
    (free : t.holds v.requester = false) :
    ∃ u, exec (.randomDrawEnd bits) s = .next u ∧ t.Submitted u v := by
  have waits : (t.submitNow v).offered = [] := by rw [State.submitNow_frame]; exact ho
  refine ⟨t.submitNow v, ?_, State.submitNow_submitted free⟩
  rw [exec_randomDrawEnd_of_ready hr, he, State.settle_submit ht, State.takeOffered_of_none waits]

/-- New material is wrapped under the root key where the record has not passed its generation (R46, R49). -/
theorem State.wrapMaterial_of_newer {r : RegionIx} {g : Nat} (h : s.work.keys[r].generation < g)
    (bits : BitVec 512) : s.wrapMaterial r g bits = { s with
      work := { s.work with keys := s.work.keys.set r ⟨g, some ⟨bits, s.fuses.rootKey⟩⟩ } } :=
  if_pos h

/-- The material of an enabling goes into the record, and the DEFINE-REGION unit follows (R38, R49). -/
theorem State.takeMaterial_enabling {d : DefineRequest} (h : s.define = some d) (r : RegionIx) (g : Nat)
    (bits : BitVec 512) :
    s.takeMaterial r g .enabling bits = (s.wrapMaterial r g bits).submit (.regionDefinition d) := by
  simp only [State.takeMaterial, h]

/-- A salt begins the derivation of its SET-SECRET, unless the request was abandoned (R93, R94). -/
theorem State.saltArrives_eq (q : SecretRequest) (salt : BitVec 128) : s.saltArrives q salt = { s with
    derivation := if s.management.current = some q.id then some ⟨salt, q.cost, q.secret, .secret q⟩
      else s.derivation } := by
  by_cases h : s.management.current = some q.id <;> simp [State.saltArrives, State.attached, h]

theorem State.awaitsDraw_eq_false {r : RegionIx} {p : Party} {g : Nat}
    (h : ∀ e ∈ s.erases, e.region = r → e.party = p → e.stage ≠ .destroyed g) : s.awaitsDraw r p g = false := by
  simp only [State.awaitsDraw, List.any_eq_false, Bool.and_eq_true, beq_iff_eq]
  rintro e he ⟨⟨hr, hp⟩, hg⟩
  exact h e he hr hp hg

end Sys2Proof.Machine

namespace Sys2Proof.Proofs

open Sys2Proof Sys2Proof.Machine

/-- Settles O35, by the requester of the draw in service. -/
theorem drawsEnd : Obligations.DrawsEnd := by
  intro s bits
  refine ⟨rfl, fun hr => ?_, fun still offered ready waiting => ⟨fun q rest hq => ?_,
    fun r g rest d hq hd hg free => ?_,
    fun r g p rest hq unawaited => ?_⟩⟩
  · have run : exec (.randomDrawEnd bits) s
        = .next (if s.random.ready then (s.quiet.endDraw bits).settle.takeOffered else s.quiet) := rfl
    rw [run, hr]
    rfl
  · refine exec_randomDrawEnd_still ready ?_ (by exact still) offered
    rw [State.endDraw_of_salt hq waiting]
    exact State.saltArrives_eq (s := s.drawn rest) q _
  · have wrapped := State.wrapMaterial_of_newer (s := s.drawn rest) hg bits
    refine exec_randomDrawEnd_submits ready ?_ (by exact still) offered free
    rw [State.endDraw_of_key hq waiting, State.takeMaterial_enabling (s := s.drawn rest) hd, wrapped]
    rfl
  · refine exec_randomDrawEnd_still ready ?_ (State.still_drawn still rest) offered
    rw [State.endDraw_of_key hq waiting]
    exact if_neg (by rw [State.awaitsDraw_eq_false (s := s.drawn rest) unawaited]; exact Bool.false_ne_true)

end Sys2Proof.Proofs
end

section
/-! PROOFS. The destruction step of crypto-erases (R50, R150): what each moves on, and what an event leaves of them. -/

namespace Sys2Proof.Machine

variable {s t u : State}

/-! ### One destruction step -/

/-- A crypto-erase of region r by a party has gone past its destruction step: its unit is handed over, or its draw is
asked for (R150). -/
def State.Advanced (s : State) (r : RegionIx) (p : Party) : Prop :=
  ∃ f ∈ s.erases, f.region = r ∧ f.party = p ∧ (f.stage = .committing ∨ ∃ g, f.stage = .destroyed g
    ∧ Draw.key r g (.erase p) ∈ s.random.queue ++ s.random.waiting)

theorem State.keyComplete_still (h : s.ResponseStill) (r : RegionIx) (p : Party) :
    (s.keyComplete r p).ResponseStill := by
  refine State.responseStill_congr h ?_ ?_ ?_ (by simp)
  all_goals
    unfold State.keyComplete
    dsimp only
    repeat' split
    all_goals simp

theorem State.destroyKey_still (h : s.ResponseStill) (r : RegionIx) (p : Party) :
    (s.destroyKey r p).ResponseStill := by
  unfold State.destroyKey
  dsimp only
  repeat' split
  · exact State.keyComplete_still (by exact h) r p
  · refine State.responseStill_congr h ?_ ?_ ?_ ?_ <;> simp
  · exact State.keyComplete_still (by exact h) r p

/-- The stage a destruction step moves the crypto-erase to, and the draw that goes with it (R50, R150). -/
theorem State.destroyKey_stage (r : RegionIx) (p : Party) :
    ∃ x, (s.destroyKey r p).erases = (s.setEraseStage r p x).erases ∧ (x = .committing ∨ ∃ g, x = .destroyed g
      ∧ Draw.key r g (.erase p) ∈ (s.destroyKey r p).random.queue ++ (s.destroyKey r p).random.waiting) := by
  unfold State.destroyKey
  dsimp only
  repeat' split
  · exact ⟨.committing, State.keyComplete_erases r p, .inl rfl⟩
  · exact ⟨_, (State.drawKey_erases r _).trans rfl, .inr ⟨_, rfl, State.mem_draws_requestDraw.mpr (.inr rfl)⟩⟩
  · exact ⟨.committing, (State.keyComplete_erases r p).trans (by simp [State.setEraseStage_erases]), .inl rfl⟩

/-- No draw that was asked for is lost in a destruction step (R48). -/
theorem State.mem_draws_destroyKey {d : Draw} (h : d ∈ s.random.queue ++ s.random.waiting) (r : RegionIx) (p : Party) :
    d ∈ (s.destroyKey r p).random.queue ++ (s.destroyKey r p).random.waiting := by
  unfold State.destroyKey
  dsimp only
  repeat' split
  · simpa using h
  · exact State.mem_draws_requestDraw.mpr (.inl h)
  · simpa using h

theorem State.mem_setEraseStage {e : EraseOperation} (r : RegionIx) (p : Party) (x : EraseStage) :
    e ∈ (s.setEraseStage r p x).erases ↔ e ∈ s.erases ∧ ¬ (e.region = r ∧ e.party = p)
      ∨ e.region = r ∧ e.party = p ∧ e.stage = x ∧ ∃ f ∈ s.erases, f = { e with stage := f.stage } := by
  rw [State.setEraseStage_erases, List.mem_map]
  constructor
  · rintro ⟨f, hf, rfl⟩
    split
    · rename_i h
      exact .inr ⟨h.1, h.2, rfl, f, hf, rfl⟩
    · rename_i h
      exact .inl ⟨hf, h⟩
  · rintro (⟨he, hn⟩ | ⟨hr, hp, hx, f, hf, hfe⟩)
    · exact ⟨e, he, if_neg hn⟩
    · refine ⟨f, hf, ?_⟩
      rw [hfe]
      rw [if_pos ⟨hr, hp⟩, ← hx]

/-! ### Destruction steps of an event -/

/-- From s to t destruction steps were taken: no crypto-erase begins, one that had begun still waits or has advanced,
and none falls back. -/
structure State.Destroys (s t : State) : Prop where
  still : s.ResponseStill → t.ResponseStill
  begun : ∀ e ∈ t.erases, e.stage = .begun → e ∈ s.erases
  advances : ∀ e ∈ s.erases, e.stage = .begun → e ∈ t.erases ∨ t.Advanced e.region e.party
  advanced : ∀ (r : RegionIx) (p : Party), s.Advanced r p → t.Advanced r p

theorem State.Destroys.refl (s : State) : s.Destroys s := ⟨id, fun _ h _ => h, fun _ h _ => .inl h, fun _ _ => id⟩

theorem State.Destroys.trans (f : s.Destroys t) (g : t.Destroys u) : s.Destroys u where
  still h := g.still (f.still h)
  begun e h hb := f.begun e (g.begun e h hb) hb
  advances e h hb := (f.advances e h hb).elim (fun h => g.advances e h hb) fun h => .inr (g.advanced _ _ h)
  advanced r p h := g.advanced r p (f.advanced r p h)

/-- After a region's destruction step for a party, whatever crypto-erase of the two there was has advanced. -/
theorem State.advanced_destroyKey {e : EraseOperation} (he : e ∈ s.erases) :
    (s.destroyKey e.region e.party).Advanced e.region e.party := by
  obtain ⟨x, erases, stage⟩ := s.destroyKey_stage e.region e.party
  refine ⟨{ e with stage := x }, ?_, rfl, rfl, stage⟩
  rw [erases, State.mem_setEraseStage]
  exact .inr ⟨rfl, rfl, rfl, e, he, rfl⟩

theorem State.not_begun_destroyKey {e : EraseOperation} {r : RegionIx} {p : Party} (he : e ∈ (s.destroyKey r p).erases)
    (hb : e.stage = .begun) : e ∈ s.erases ∧ ¬ (e.region = r ∧ e.party = p) := by
  obtain ⟨x, erases, stage⟩ := s.destroyKey_stage r p
  rw [erases, State.mem_setEraseStage] at he
  rcases he with h | ⟨-, -, hx, -⟩
  · exact h
  · rw [← hx, hb] at stage
    rcases stage with h | ⟨g, h, -⟩ <;> cases h

theorem State.destroys_destroyKey (r : RegionIx) (p : Party) : s.Destroys (s.destroyKey r p) := by
  obtain ⟨x, erases, stage⟩ := s.destroyKey_stage r p
  have others {e : EraseOperation} (he : e ∈ s.erases) (hn : ¬ (e.region = r ∧ e.party = p)) :
      e ∈ (s.destroyKey r p).erases := by
    rw [erases, State.mem_setEraseStage]
    exact .inl ⟨he, hn⟩
  refine ⟨fun h => State.destroyKey_still h r p, fun e he hb => (State.not_begun_destroyKey he hb).1,
    fun e he _ => ?_, fun q k adv => ?_⟩
  · by_cases own : e.region = r ∧ e.party = p
    · obtain ⟨rfl, rfl⟩ := own
      exact .inr (State.advanced_destroyKey he)
    · exact .inl (others he own)
  · obtain ⟨f, hf, rfl, rfl, at_stage⟩ := adv
    by_cases own : f.region = r ∧ f.party = p
    · obtain ⟨rfl, rfl⟩ := own
      exact State.advanced_destroyKey hf
    · refine ⟨f, others hf own, rfl, rfl, at_stage.imp_right ?_⟩
      exact fun ⟨g, hg, draw⟩ => ⟨g, hg, State.mem_draws_destroyKey draw r p⟩

theorem State.foldl_destroys {α : Type} {f : State → α → State} (h : ∀ (t : State) (a : α), t.Destroys (f t a))
    (l : List α) (s : State) : s.Destroys (l.foldl f s) :=
  foldl_relates State.Destroys State.Destroys.refl (fun _ _ _ => State.Destroys.trans) f h l s

theorem State.destroys_destroyIfDue (r : RegionIx) : s.Destroys (s.destroyIfDue r) :=
  State.foldl_destroys (fun _ p => State.destroys_destroyKey r p) _ s

theorem State.destroys_destroyAllDue : s.Destroys s.destroyAllDue :=
  State.foldl_destroys (fun _ r => State.destroys_destroyIfDue r) _ s

theorem State.foldl_destroyKey_not_begun (r : RegionIx) (l : List Party) (s : State) {e : EraseOperation}
    (he : e ∈ (l.foldl (fun t p => t.destroyKey r p) s).erases) (hr : e.region = r) (hb : e.stage = .begun) :
    e.party ∉ l := by
  induction l generalizing s with
  | nil => exact List.not_mem_nil
  | cons p l ih =>
    rw [List.foldl_cons] at he
    have after := (State.foldl_destroys (fun _ q => State.destroys_destroyKey r q) l _).begun e he hb
    have other := (State.not_begun_destroyKey after hb).2
    exact fun h => (List.mem_cons.mp h).elim (fun hp => other ⟨hr, hp⟩) (ih _ he)

theorem State.mem_destructionsDue {r : RegionIx} {e : EraseOperation} (ha : s.regions[r].admitted = 0)
    (hf : ¬ (s.scrub.commitHeld = .finish ∧ s.scrubHead = some r)) (he : e ∈ s.erases) (hr : e.region = r)
    (hb : e.stage = .begun) : e.party ∈ s.destructionsDue r := by
  unfold State.destructionsDue
  rw [if_pos ⟨ha, hf⟩]
  exact List.mem_map.mpr ⟨e, List.mem_filter.mpr ⟨he, by simp [hr, hb]⟩, rfl⟩

/-- The waits of a region's crypto-erases have ended: each comes to its destruction in one event (R150). -/
theorem State.destroyIfDue_not_begun {r : RegionIx} (ha : s.regions[r].admitted = 0)
    (hf : ¬ (s.scrub.commitHeld = .finish ∧ s.scrubHead = some r)) :
    ∀ e ∈ (s.destroyIfDue r).erases, e.region = r → e.stage ≠ .begun := fun e he hr hb =>
  State.foldl_destroyKey_not_begun r _ s he hr hb
    (State.mem_destructionsDue ha hf ((State.destroys_destroyIfDue r).begun e he hb) hr hb)

/-- The event of a destruction step goes on with what it makes due. -/
theorem exec_keyDestruction_settle (r : RegionIx) :
    exec (.keyDestruction r) s = .next (s.quiet.destroyIfDue r).settle := rfl

theorem State.settle_draws (hr : s.ResponseStill) (hp : s.startUp.phase ≠ .resuming) :
    s.settle.erases = s.destroyAllDue.erases ∧ s.settle.random = s.destroyAllDue.random := by
  have phase : s.destroyAllDue.startUp.phase ≠ .resuming := by simpa using hp
  rw [State.settle, State.takeIfFree_of_still hr, State.progress_of_not_resuming phase]
  simp

/-- Every crypto-erase of a drained region comes to its destruction in the one event (R150). -/
theorem exec_keyDestruction_advances {r : RegionIx} (hr : s.ResponseStill) (hp : s.startUp.phase ≠ .resuming)
    (ha : s.regions[r].admitted = 0) (hf : s.scrub.commitHeld = .finish → s.scrubHead ≠ some r) :
    ∃ t, exec (.keyDestruction r) s = .next t ∧ (∀ e ∈ t.erases, e.region = r → e.stage ≠ .begun)
      ∧ ∀ e ∈ s.erases, e.region = r → e.stage = .begun → t.Advanced r e.party := by
  have due := State.destroyIfDue_not_begun (s := s.quiet) ha fun h => hf h.1 h.2
  have first : s.quiet.Destroys (s.quiet.destroyIfDue r) := State.destroys_destroyIfDue r
  have phase : (s.quiet.destroyIfDue r).startUp.phase ≠ .resuming := by simpa using hp
  obtain ⟨erases, random⟩ := State.settle_draws (first.still hr) phase
  have run := exec_keyDestruction_settle (s := s) r
  generalize s.quiet.destroyIfDue r = d at *
  have all : d.Destroys d.destroyAllDue := State.destroys_destroyAllDue
  have none_begun (e : EraseOperation) (he : e ∈ d.destroyAllDue.erases) (hr : e.region = r) : e.stage ≠ .begun :=
    fun hb => due e (all.begun e he hb) hr hb
  refine ⟨d.settle, run, by rw [erases]; exact none_begun, fun e he hr hb => ?_⟩
  have moved := ((first.trans all).advances e he hb).resolve_left fun h => none_begun e h hr hb
  subst hr
  unfold State.Advanced at moved ⊢
  rw [erases, random]
  exact moved

/-! ### The one crypto-erase of a response (R46, R49, R50, R150) -/

/-- A response's destruction step of a slot that is not spent: the key is gone and the draw asked for. -/
theorem State.destroyKey_response {r : RegionIx} {scrub : Bool} (he : s.erases = [⟨r, .response, scrub, .begun⟩])
    (hg : s.keys[r].highestDrawn ≠ lastGeneration) (hq : s.random.queue = []) : s.destroyKey r .response = { s with
      keys := s.keys.set r ⟨s.keys[r].highestDrawn + 1, none⟩
      work := { s.work with keys := s.work.keys.set r { s.work.keys[r] with material := none } }
      erases := [⟨r, .response, scrub, .destroyed (s.keys[r].highestDrawn + 1)⟩]
      random := { s.random with queue := [.key r (s.keys[r].highestDrawn + 1) (.erase .response)] } } := by
  have spent : ¬ (s.setSlotKey r { s.keys[r] with loaded := none }).spent r = true := by
    rw [State.spent, beq_iff_eq]
    change ¬ (s.keys.set r _)[r].highestDrawn = lastGeneration
    rw [getElem_set_fin, if_pos rfl]
    exact hg
  unfold State.destroyKey
  dsimp only
  have draws : drawsMaterial r .response = true := rfl
  rw [if_neg spent, if_pos draws, drawKey_of_idle (by exact hq)]
  simp [State.setEraseStage, State.setSlotKey, State.setKey, State.nextGeneration, he]

/-- The destruction step of the one crypto-erase under way, taken alone. -/
theorem exec_keyDestruction_alone {r : RegionIx} {scrub : Bool} (hr : s.ResponseStill)
    (hp : s.startUp.phase ≠ .resuming) (hw : s.walkDue = false) (hm : s.MediaStill) (hs : s.StoreStill)
    (head : s.scrubHead ≠ some r) (he : s.erases = [⟨r, .response, scrub, .begun⟩])
    (ha : s.regions[r].admitted = 0) (hg : s.keys[r].highestDrawn ≠ lastGeneration) (hq : s.random.queue = []) :
    exec (.keyDestruction r) s = .next { s with
      sent := []
      keys := s.keys.set r ⟨s.keys[r].highestDrawn + 1, none⟩
      work := { s.work with keys := s.work.keys.set r { s.work.keys[r] with material := none } }
      erases := [⟨r, .response, scrub, .destroyed (s.keys[r].highestDrawn + 1)⟩]
      random := { s.random with queue := [.key r (s.keys[r].highestDrawn + 1) (.erase .response)] } } := by
  have due : s.quiet.destructionsDue r = [.response] := by
    unfold State.destructionsDue
    rw [if_pos ⟨ha, fun h => head h.2⟩]
    simp [he]
  have destroyed : s.quiet.destroyIfDue r = s.quiet.destroyKey r .response := by
    rw [State.destroyIfDue, due, List.foldl_cons, List.foldl_nil]
  rw [exec_keyDestruction_settle, destroyed, State.destroyKey_response (s := s.quiet) he hg hq, State.settle_of_still]
  · rfl
  · refine ⟨hr, State.destructionsDue_of_none_begun ?_, hp, hw, hm, hs⟩
    simp

/-- The awaited material of the one crypto-erase goes into the record, and the key destruction unit is handed over
(R49, R150). -/
theorem State.takeMaterial_awaited {r : RegionIx} {g : Nat} {scrub : Bool}
    (he : s.erases = [⟨r, .response, scrub, .destroyed g⟩]) (hg : s.work.keys[r].generation < g) (bits : BitVec 512) :
    s.takeMaterial r g (.erase .response) bits = State.submit (.keyDestruction r) { s with
      work := { s.work with keys := s.work.keys.set r ⟨g, some ⟨bits, s.fuses.rootKey⟩⟩ }
      erases := [⟨r, .response, scrub, .committing⟩]
      response := { s.response with answerDue := false } } := by
  have awaited : s.awaitsDraw r .response g = true := by simp [State.awaitsDraw, he]
  rw [State.takeMaterial]
  dsimp only
  rw [if_pos awaited, State.wrapMaterial_of_newer hg, State.keyComplete]
  simp [State.setEraseStage, he]

/-- What the key destruction unit of the one crypto-erase writes (R150). -/
theorem State.image_keyDestruction {r : RegionIx} {scrub : Bool}
    (he : s.erases = [⟨r, .response, scrub, .committing⟩]) : s.image (.keyDestruction r) = { s.stored with
      keys := s.stored.keys.set r s.work.keys[r]
      regions := s.stored.regions.set r { s.work.regions[r] with condition := s.eraseCondition r scrub }
      scrubList := listWith r s.work.regions[r].startLba scrub s.stored.scrubList
      inProgress := s.stored.inProgress.map fun p => { p with erased := p.erased ||| bit r.val } } := by
  have found : s.eraseOf r .response = some ⟨r, .response, scrub, .committing⟩ := by simp [State.eraseOf, he]
  simp only [State.image, found]
  rfl

theorem RegionRecord.startLba_eq (x : RegionRecord) : x.startLba = (x.extent.map Extent.start).getD 0 := by
  unfold RegionRecord.startLba
  split <;> simp [*]

theorem listed_iff (r : RegionIx) (l : List ScrubEntry) :
    (l.any fun e => e.region == r) = true ↔ ∃ e ∈ l, e.region = r := by
  simp

theorem State.eraseCondition_eq (r : RegionIx) (scrub : Bool) : s.eraseCondition r scrub =
    if scrub = true ∨ ∃ e ∈ s.work.scrubList, e.region = r then .scrubQueued else .normal := by
  unfold State.eraseCondition
  refine if_congr ?_ rfl rfl
  rw [Bool.or_eq_true, listed_iff, or_comm]

theorem listWith_eq (r : RegionIx) (start : Nat) (scrub : Bool) (l : List ScrubEntry) : listWith r start scrub l =
    if ∃ e ∈ l, e.region = r then l.map fun e => if e.region = r then { e with cursor := start } else e
    else l ++ if scrub then [⟨r, start⟩] else [] := by
  unfold listWith
  rw [if_congr (listed_iff r l) rfl rfl]
  cases scrub <;> simp

end Sys2Proof.Machine
end

section
/-! PROOFS. The done answer of a key destruction unit (R141, R150, R151, R154, R157). -/

namespace Sys2Proof.Machine

variable {s t u : State}

/-- The answer to a unit that was alone in the queue, and what it makes due in its event (R167). -/
theorem exec_commitWriteEnd_settle {v : CommitUnit} {image : Records} (h : s.Writes v image)
    (done : State.unitDone v (s.written image) = t) (hd : t.store.deferred = []) :
    exec .commitWriteEnd s = .next t.settle := by
  obtain ⟨queue, deferred, writing⟩ := h
  have popped : ({ s.quiet.popHead with stored := image } : State) = s.written image := by
    simp [State.popHead, State.written, queue, deferred]
  have run : exec .commitWriteEnd s = .next s.quiet.writeEnds := rfl
  rw [run, State.writeEnds]
  simp only [State.quiet_store, queue, writing, State.answerDone]
  rw [popped, done, State.submitDeferred_none _ hd]

/-! ### The scrub list's entry of an erased region (R150, R154) -/

/-- The chunks of the scrub engine that are at the media. -/
def State.atMedia (s : State) : List FormedChunk := s.scrub.formed.filter fun f => f.place == .atMedia

/-- The chunks at the media that a crypto-erase of region r leaves stale, with those that were so before (R157). -/
def State.earlierAfterErase (s : State) (r : RegionIx) : List Chunk :=
  (s.atMedia.filter fun f => decide (f.chunk.region = r ∨ f.chunk ∈ s.scrub.earlier)).map FormedChunk.chunk

/-- The scrub list once a crypto-erase of region r with its entry is answered done (R150). -/
def State.listAfterErase (s : State) (r : RegionIx) : List ScrubEntry :=
  if ∃ e ∈ s.work.scrubList, e.region = r then
    s.work.scrubList.map fun e => if e.region = r then { e with cursor := s.work.regions[r].startLba } else e
  else s.work.scrubList ++ [⟨r, s.work.regions[r].startLba⟩]

/-- The scrub engine once a crypto-erase of region r with its entry is answered done (R154, R157). -/
def State.scrubAfterErase (s : State) (r : RegionIx) : ScrubEngine :=
  if s.scrubHead = some r then { s.scrub with
    phase := .held, issue := some s.work.regions[r].startLba, checkpoint := s.work.regions[r].startLba
    formed := s.atMedia, earlier := s.earlierAfterErase r }
  else if s.work.scrubList = [] then { s.scrub with
    phase := .held, issue := some s.work.regions[r].startLba, checkpoint := s.work.regions[r].startLba
    earlier := s.earlierAfterErase r }
  else { s.scrub with earlier := s.earlierAfterErase r }

theorem State.outdate_erased (r : RegionIx) :
    s.scrub.outdate (· == r) = { s.scrub with earlier := s.earlierAfterErase r } := by
  rw [ScrubEngine.outdate_frame]
  congr 1
  simp only [ScrubEngine.outdate, State.earlierAfterErase, State.atMedia, List.filter_filter]
  refine congrArg (List.map _) (List.filter_congr fun f _ => ?_)
  rw [Bool.and_comm]
  congr 1
  rw [Bool.decide_or, beq_eq_decide, List.contains_eq_mem]

theorem State.listed_of_head {r : RegionIx} (h : s.scrubHead = some r) : ∃ e ∈ s.work.scrubList, e.region = r := by
  obtain ⟨e, he, hr⟩ := Option.map_eq_some_iff.mp h
  exact ⟨e, List.mem_of_mem_head? he, hr⟩

theorem State.applyScrubEntry_eq (r : RegionIx) : s.applyScrubEntry r = { s with
    work := { s.work with scrubList := s.listAfterErase r }
    scrub := s.scrubAfterErase r } := by
  unfold State.applyScrubEntry
  dsimp only
  rw [State.outdate_erased, State.listAfterErase, State.scrubAfterErase]
  by_cases listed : ∃ e ∈ s.work.scrubList, e.region = r
  · have some_entry : s.work.scrubList ≠ [] := by
      obtain ⟨e, he, -⟩ := listed
      exact List.ne_nil_of_mem he
    rw [if_pos ((listed_iff r _).mpr listed), if_pos listed, if_neg some_entry]
    by_cases head : s.scrubHead = some r
    · have head' : State.scrubHead { s with
          scrub := { s.scrub with earlier := s.earlierAfterErase r } } = some r := head
      rw [if_pos head', if_pos head]
      simp only [State.entryToStart, if_pos head']
      rfl
    · have head' : State.scrubHead { s with
          scrub := { s.scrub with earlier := s.earlierAfterErase r } } ≠ some r := head
      rw [if_neg head', if_neg head]
      simp only [State.entryToStart, if_neg head']
  · have head : s.scrubHead ≠ some r := fun h => listed (State.listed_of_head h)
    rw [if_neg fun h => listed ((listed_iff r _).mp h), if_neg listed, if_neg head]
    split
    · rename_i empty
      have empty' : s.work.scrubList = [] := empty
      simp only [State.settleHead, empty', List.nil_append]
    · rfl

/-! ### The answer (R141, R151) -/

theorem lowest_zero : lowest 0 = none := by decide

/-- With no trigger to absorb and no region left to erase, a step boundary closes the response (R139, R143). -/
theorem State.stepBoundary_closes {R : RunningResponse} (hR : s.response.running = some R)
    (ht : s.response.triggers = []) (hm : R.remaining = 0) : s.stepBoundary = s.close := by
  have none_left : (if Level.rank .erase ≤ R.level.rank then lowest R.remaining else none) = none := by
    rw [hm, lowest_zero, ite_self]
  have nothing : absorbable s.response.triggers R.level = [] := by rw [ht]; rfl
  rw [State.stepBoundary, State.boundaryStep]
  simp only [hR, nothing, none_left, if_true]

/-- The last crypto-erase of a response has been answered done: the region's record is as the unit wrote it, the scrub
engine has taken the entry, and the response closes (R141, R143, R151). -/
def State.eraseAnswered (s : State) (r : RegionIx) (R : RunningResponse) (image : Records) (condition : Condition)
    (list : List ScrubEntry) (scrub : ScrubEngine) : State := { s with
  sent := [], stored := image, store := { emptyStore with queue := [.responseEnd] }, erases := []
  work := { s.work with
    inProgress := image.inProgress, scrubList := list
    regions := s.work.regions.set r { s.work.regions[r] with condition := condition } }
  scrub := scrub
  regions := s.regions.set r { s.regions[r] with eraseHold := false }
  response := { s.response with running := some { R with
    erased := R.erased ||| bit r.val, current := none, phase := .closing } } }

/-- A region's condition does not move its entry (R150). -/
theorem State.afterErase_setCondition (r : RegionIx) (c : Condition) :
    (s.setRegion r { s.work.regions[r] with condition := c }).listAfterErase r = s.listAfterErase r
    ∧ (s.setRegion r { s.work.regions[r] with condition := c }).scrubAfterErase r = s.scrubAfterErase r := by
  have start : (s.setRegion r { s.work.regions[r] with condition := c }).work.regions[r].startLba
      = s.work.regions[r].startLba := by
    change ((s.work.regions.set r _)[r]).startLba = _
    rw [getElem_set_fin, if_pos rfl]
    rfl
  rw [State.listAfterErase, State.scrubAfterErase, start]
  exact ⟨rfl, rfl⟩

/-- The end of the one crypto-erase under way, whether or not the scrub engine takes an entry (R151). -/
theorem State.eraseDone_of_one {r : RegionIx} {scrub : Bool} (he : s.erases = [⟨r, .response, scrub, .committing⟩])
    {list : List ScrubEntry} {engine : ScrubEngine}
    (hl : (if scrub = true ∨ ∃ e ∈ s.work.scrubList, e.region = r then (s.listAfterErase r, s.scrubAfterErase r)
      else (s.work.scrubList, s.scrub)) = (list, engine)) : s.eraseDone r scrub = { s with
        erases := []
        work := { s.work with
          scrubList := list
          regions := s.work.regions.set r { s.work.regions[r] with condition := s.eraseCondition r scrub } }
        scrub := engine
        regions := s.regions.set r { s.regions[r] with eraseHold := false } } := by
  have applied : (if ((s.work.scrubList.any fun e => e.region == r) || scrub) = true then
      (s.setRegion r { s.work.regions[r] with condition := s.eraseCondition r scrub }).applyScrubEntry r
      else s.setRegion r { s.work.regions[r] with condition := s.eraseCondition r scrub }) = { s with
        work := { s.work with
          scrubList := list
          regions := s.work.regions.set r { s.work.regions[r] with condition := s.eraseCondition r scrub } }
        scrub := engine } := by
    obtain ⟨sameList, sameEngine⟩ := s.afterErase_setCondition r (s.eraseCondition r scrub)
    have taken_iff : ((s.work.scrubList.any fun e => e.region == r) || scrub) = true
        ↔ scrub = true ∨ ∃ e ∈ s.work.scrubList, e.region = r := by rw [Bool.or_eq_true, listed_iff, or_comm]
    rw [State.applyScrubEntry_eq, sameList, sameEngine]
    by_cases taken : scrub = true ∨ ∃ e ∈ s.work.scrubList, e.region = r
    · rw [if_pos taken] at hl
      cases hl
      rw [if_pos (taken_iff.mpr taken)]
      rfl
    · rw [if_neg taken] at hl
      cases hl
      rw [if_neg fun h => taken (taken_iff.mp h)]
      rfl
  unfold State.eraseDone
  dsimp only
  rw [applied, State.releaseHold_of_not_erasing]
  · simp [State.dropErase, State.setHold, State.setStatus, he]
  · simp [State.erasing, State.dropErase, he]

/-- The crypto-erase that a key destruction unit answers ends, which is a step boundary (R141, R151). -/
theorem State.keyDestructionDone_of_erase {r : RegionIx} {e : EraseOperation} (h : s.eraseOf r .response = some e) :
    s.keyDestructionDone r = (State.markErased r (State.eraseDone r e.scrub { s with
      work := { s.work with inProgress := s.stored.inProgress } })).stepBoundary := by
  have same : State.eraseOf { s with work := { s.work with inProgress := s.stored.inProgress } } r .response
      = some e := h
  unfold State.keyDestructionDone
  dsimp only
  rw [same]

/-- The done answer of the key destruction unit of a response's last region (R141, R143, R151). -/
theorem State.unitDone_keyDestruction {r : RegionIx} {scrub : Bool} {R : RunningResponse} {image : Records}
    (he : s.erases = [⟨r, .response, scrub, .committing⟩]) (hR : s.response.running = some R)
    (ht : s.response.triggers = []) (hc : s.response.countResetDue = false)
    (hm : R.mask &&& ~~~(R.erased ||| bit r.val) = 0) {list : List ScrubEntry} {engine : ScrubEngine}
    (hl : (if scrub = true ∨ ∃ e ∈ s.work.scrubList, e.region = r then (s.listAfterErase r, s.scrubAfterErase r)
      else (s.work.scrubList, s.scrub)) = (list, engine)) :
    State.unitDone (.keyDestruction r) (s.written image)
      = s.eraseAnswered r R image (s.eraseCondition r scrub) list engine := by
  have idle : (s.written image).submitCountReset = s.written image :=
    if_neg (by simp [State.written, hc])
  have found : (s.written image).eraseOf r .response = some ⟨r, .response, scrub, .committing⟩ := by
    simp [State.eraseOf, State.written, he]
  have ended := State.eraseDone_of_one (s := { s.written image with
    work := { s.work with inProgress := image.inProgress } }) (r := r) (scrub := scrub) he hl
  rw [State.unitDone, idle, State.keyDestructionDone_of_erase found]
  refine (congrArg (fun u => (State.markErased r u).stepBoundary) ended).trans ?_
  dsimp only
  rw [State.stepBoundary_closes (R := { R with erased := R.erased ||| bit r.val, current := none })]
  · rw [State.close, State.submit_free (by simp [State.written, State.holds])]
    simp [State.written, State.setResponsePhase, State.markErased, State.setRunning, State.eraseAnswered, hR,
      emptyStore]
    rfl
  · simp [State.written, State.markErased, State.setRunning, hR]
  · simp [State.written, State.markErased, State.setRunning, ht]
  · exact hm

end Sys2Proof.Machine
end

section
/-! PROOFS. O44 settled: the event of a key destruction unit's done answer, with the walk it lets start (R150, R155,
R157). -/

namespace Sys2Proof.Machine

variable {s t u : State}

/-! ### The media port when no walk starts -/

/-- No grant is due exactly if no slot is free or nothing waits for one (R64). -/
theorem State.nextGrant_nothing_iff :
    s.nextGrant = .nothing ↔ s.freeSlot = none ∨ s.offer = none ∧ s.port.queue = [] := by
  unfold State.nextGrant
  cases s.freeSlot with
  | none => simp
  | some i =>
    cases s.offer <;> cases s.port.queue <;> simp
    all_goals split <;> simp

/-- A head that finishes, is held, or walks with its offer made leaves the port as it is (R155, R160). -/
theorem State.walk_rests {h : RegionIx} (hd : s.scrubHead = some h) (hn : s.nextGrant = .nothing)
    (hc : s.scrub.phase = .finishing ∨ s.scrub.phase ≠ .walking ∧ s.headHeld h = true
      ∨ s.scrub.phase = .walking ∧ s.offer.isSome = true ∧ s.keys[h].loaded.isSome = true) :
    s.startWalkIfDue.serveMedia = s := by
  have not_due : s.walkDue = false := by
    rcases hc with finishing | ⟨-, held⟩ | ⟨walking, -, -⟩
    · simp [State.walkDue, hd, finishing]
    · simp [State.walkDue, hd, held]
    · simp [State.walkDue, hd, walking]
  rw [State.startWalkIfDue_of_not_due not_due]
  by_cases walking : s.scrub.phase = .walking
  · rcases hc with finishing | ⟨other, -⟩ | ⟨-, offered, loaded⟩
    · rw [finishing] at walking
      cases walking
    · exact absurd walking other
    · obtain ⟨c, ho⟩ := Option.isSome_iff_exists.mp offered
      obtain ⟨f, found, -⟩ := Option.map_eq_some_iff.mp ho
      rw [State.serveMedia, State.placeOffer_offered ho, State.arbitrate_of_nothing hn,
        State.tryFinish_of_formed hd (List.mem_of_find?_eq_some found) loaded]
  · exact State.serveMedia_of_still ⟨walking, hn⟩

/-- Where no host segment can be granted, serving the port only issues chunks of the walk that has an offer to make. -/
theorem State.serveMedia_serves_walk {h : RegionIx} {f : FormedChunk} (hd : s.scrubHead = some h)
    (hq : s.port.queue = [] ∨ s.freeSlot = none) (hk : s.keys[h].loaded.isSome = true)
    (hf : f ∈ s.placeOffer.scrub.formed) :
    State.ScrubServes h s s.serveMedia ∧ ∃ g ∈ s.serveMedia.scrub.formed, g.chunk = f.chunk := by
  have placed := State.placeOffer_serves hd
  have head : s.placeOffer.scrubHead = some h := by rw [State.placeOffer_frame]; exact hd
  have granted : State.ScrubServes h s.placeOffer (s.placeOffer.arbitrate 16) := by
    rcases hq with empty | full
    · exact State.arbitrate_serves 16 s.placeOffer head (by rw [State.placeOffer_frame]; exact empty)
    · have none_free : s.placeOffer.freeSlot = none := by rw [State.placeOffer_frame]; exact full
      rw [State.arbitrate_of_nothing (State.nextGrant_nothing_iff.mpr (.inl none_free))]
      exact .refl h _
  obtain ⟨frame, -, -, stay, -⟩ := id granted
  obtain ⟨g, hg, chunk⟩ := stay f hf
  have ends : s.serveMedia = s.placeOffer.arbitrate 16 := by
    refine State.tryFinish_of_formed (h := h) ?_ hg ?_
    · rw [frame]; exact head
    · rw [frame, State.placeOffer_frame]; exact hk
  rw [ends]
  exact ⟨placed.trans granted, g, hg, chunk⟩

/-! ### The event of the answer -/

theorem State.eraseAnswered_settle (hp : s.startUp.phase ≠ .resuming) (r : RegionIx) (R : RunningResponse)
    (image : Records) (c : Condition) (l : List ScrubEntry) (e : ScrubEngine) :
    (s.eraseAnswered r R image c l e).settle = (s.eraseAnswered r R image c l e).startWalkIfDue.serveMedia.serveStore :=
  State.settle_to_walk (State.responseStill_of_busy rfl) (fun _ h => nomatch h) hp

/-- With no scrub list the event ends at the gate. -/
theorem State.eraseAnswered_settle_unlisted (hp : s.startUp.phase ≠ .resuming) (hn : s.nextGrant = .nothing)
    (hl : s.work.scrubList = []) (r : RegionIx) (R : RunningResponse) (image : Records) (c : Condition) :
    (s.eraseAnswered r R image c s.work.scrubList s.scrub).settle
      = (s.eraseAnswered r R image c s.work.scrubList s.scrub).serveStore := by
  have list : (s.eraseAnswered r R image c s.work.scrubList s.scrub).work.scrubList = [] := hl
  rw [State.eraseAnswered_settle hp, State.startWalkIfDue_of_not_due (State.walkDue_of_no_list list),
    State.serveMedia_of_no_list list hn]

theorem State.scrubHead_afterErase (r : RegionIx) (R : RunningResponse) (image : Records) (c : Condition)
    (e : ScrubEngine) : (s.eraseAnswered r R image c (s.listAfterErase r) e).scrubHead = some (s.scrubHead.getD r) := by
  change (s.listAfterErase r).head?.map (·.region) = some ((s.work.scrubList.head?.map (·.region)).getD r)
  unfold State.listAfterErase
  cases s.work.scrubList with
  | nil => simp
  | cons x l =>
    split
    · rw [List.map_cons, List.head?_cons, List.head?_cons, Option.map_some, Option.map_some, Option.getD_some]
      split <;> rfl
    · rfl

/-- A grant that was not due is not due once the chunks that had not gone to the media are dropped (R64). -/
theorem State.nextGrant_afterErase (hn : s.nextGrant = .nothing) (r : RegionIx) (R : RunningResponse)
    (image : Records) (c : Condition) (l : List ScrubEntry) :
    (s.eraseAnswered r R image c l (s.scrubAfterErase r)).nextGrant = .nothing := by
  have formed : (s.scrubAfterErase r).formed = s.atMedia ∨ (s.scrubAfterErase r).formed = s.scrub.formed := by
    unfold State.scrubAfterErase
    repeat' split
    · exact .inl rfl
    · exact .inr rfl
    · exact .inr rfl
  refine State.nextGrant_nothing_iff.mpr ((State.nextGrant_nothing_iff.mp hn).imp_right
    fun ⟨offer, queue⟩ => ⟨?_, queue⟩)
  rw [State.offer_eq_none_iff] at offer ⊢
  change ∀ f ∈ (s.scrubAfterErase r).formed, f.place ≠ .offered
  rcases formed with h | h
  · rw [h]
    exact fun f hf => offer f (List.mem_filter.mp hf).1
  · rw [h]
    exact offer

/-- A chunk at the media holds the head whose crypto-erase was answered: it is another region's, or an older one of its
own (R157). -/
theorem State.headHeld_afterErase {f : FormedChunk} {r : RegionIx} (hf : f ∈ s.atMedia) (R : RunningResponse)
    (image : Records) (c : Condition) (l : List ScrubEntry) :
    (s.eraseAnswered r R image c l (s.scrubAfterErase r)).headHeld r = true := by
  obtain ⟨formed, place⟩ := List.mem_filter.mp hf
  have stays : f ∈ (s.scrubAfterErase r).formed := by
    unfold State.scrubAfterErase
    repeat' split
    · exact hf
    · exact formed
    · exact formed
  have earlier : (s.scrubAfterErase r).earlier = s.earlierAfterErase r := by
    unfold State.scrubAfterErase
    repeat' split
    all_goals rfl
  have old : f.chunk.region ≠ r ∨ f.chunk ∈ (s.scrubAfterErase r).earlier := by
    by_cases own : f.chunk.region = r
    · rw [earlier]
      exact .inr (List.mem_map.mpr ⟨f, List.mem_filter.mpr ⟨hf, by simp [own]⟩, rfl⟩)
    · exact .inl own
  rw [State.headHeld, Bool.or_eq_true, Bool.or_eq_true, List.any_eq_true]
  refine .inl (.inr ⟨f, stays, ?_⟩)
  rw [Bool.and_eq_true, Bool.or_eq_true, Bool.or_eq_true, bne_iff_ne, List.contains_iff_mem]
  exact ⟨place, old.imp_left .inl⟩

/-- With a walk that goes on, or a head that is held, the event ends at the gate (R154, R157). -/
theorem State.eraseAnswered_settle_rests (hp : s.startUp.phase ≠ .resuming) (hn : s.nextGrant = .nothing)
    {r : RegionIx}
    (others : ∀ h : RegionIx, s.scrubHead = some h → h ≠ r → s.scrub.phase = .finishing
      ∨ s.scrub.phase ≠ .walking ∧ s.regions[h].eraseHold = true
      ∨ s.scrub.phase = .walking ∧ s.offer.isSome = true ∧ s.keys[h].loaded.isSome = true)
    (own : s.scrubHead = some r ∨ s.work.scrubList = [] → s.atMedia ≠ [])
    (R : RunningResponse) (image : Records) (c : Condition) :
    (s.eraseAnswered r R image c (s.listAfterErase r) (s.scrubAfterErase r)).settle
      = (s.eraseAnswered r R image c (s.listAfterErase r) (s.scrubAfterErase r)).serveStore := by
  rw [State.eraseAnswered_settle hp]
  refine congrArg State.serveStore (State.walk_rests (State.scrubHead_afterErase r R image c _)
    (State.nextGrant_afterErase hn r R image c _) ?_)
  by_cases mine : s.scrubHead = some r ∨ s.work.scrubList = []
  · obtain ⟨f, hf⟩ := List.exists_mem_of_ne_nil _ (own mine)
    have head : s.scrubHead.getD r = r := by
      rcases mine with h | h
      · rw [h, Option.getD_some]
      · simp [State.scrubHead, h]
    have phase : (s.scrubAfterErase r).phase = .held := by
      unfold State.scrubAfterErase
      rcases mine with h | h
      · rw [if_pos h]
      · rw [if_pos h]; split <;> rfl
    rw [head]
    refine .inr (.inl ⟨?_, State.headHeld_afterErase hf R image c _⟩)
    change (s.scrubAfterErase r).phase ≠ .walking
    rw [phase]
    decide
  · obtain ⟨notOwn, someList⟩ := not_or.mp mine
    obtain ⟨h, head⟩ : ∃ h, s.scrubHead = some h := by
      obtain ⟨x, l, hx⟩ := List.exists_cons_of_ne_nil someList
      exact ⟨x.region, by rw [State.scrubHead, hx]; rfl⟩
    have other : h ≠ r := by
      rintro rfl
      exact notOwn head
    have engine : s.scrubAfterErase r = { s.scrub with earlier := s.earlierAfterErase r } := by
      rw [State.scrubAfterErase, if_neg notOwn, if_neg someList]
    rw [head, Option.getD_some, engine]
    refine (others h head other).imp_right (Or.imp_left fun ⟨phase, hold⟩ => ⟨phase, ?_⟩)
    have kept : (s.eraseAnswered r R image c (s.listAfterErase r) { s.scrub with
        earlier := s.earlierAfterErase r }).regions[h] = s.regions[h] := by
      change (s.regions.set r _)[h] = _
      rw [getElem_set_fin, if_neg other]
    rw [State.headHeld, kept, hold]
    rfl

/-! ### The walk that the answer lets start (R150, R154, R155) -/

theorem State.loadKey_isSome {r : RegionIx} (h : s.keys[r].loaded.isSome = true ∨ s.MaterialLoads r) :
    (s.loadKey r).keys[r].loaded.isSome = true := by
  rw [State.loadKey_keys]
  split
  · rename_i unloaded
    rcases h with loaded | ⟨m, material, integrity⟩
    · rw [unloaded.2] at loaded
      cases loaded
    · exact (s.unwrapped_isSome_iff r).mpr ⟨m, material, integrity⟩
  · rename_i loaded
    exact Option.isSome_iff_ne_none.mpr fun n => loaded ⟨rfl, n⟩

/-- The engine of a head whose walk begins anew, with nothing at the media (R150, R154). -/
theorem State.scrubAfterErase_of_own {r : RegionIx}
    (own : s.work.scrubList = [] ∧ s.scrub.formed = [] ∨ s.scrubHead = some r) (none_left : s.atMedia = []) :
    s.scrubAfterErase r = { s.scrub with
      phase := .held, issue := some s.work.regions[r].startLba, checkpoint := s.work.regions[r].startLba
      formed := [], earlier := s.earlierAfterErase r } := by
  unfold State.scrubAfterErase
  rcases own with ⟨list, formed⟩ | h
  · rw [if_neg (by simp [State.scrubHead, list]), if_pos list]
    dsimp only
    rw [formed]
  · rw [if_pos h, none_left]

/-- The answered region is the head, nothing is at the media and no DEFINE-REGION runs: nothing holds it (R157). -/
theorem State.walkDue_afterErase {r : RegionIx} (hp : s.startUp.phase = .running) (hd : s.define = none)
    (own : s.work.scrubList = [] ∧ s.scrub.formed = [] ∨ s.scrubHead = some r) (none_left : s.atMedia = [])
    (R : RunningResponse) (image : Records) (c : Condition) :
    let w := s.eraseAnswered r R image c (s.listAfterErase r) (s.scrubAfterErase r)
    w.scrubHead = some r ∧ w.headHeld r = false ∧ w.walkDue = true := by
  intro w
  have head : w.scrubHead = some r := by
    refine (State.scrubHead_afterErase r R image _ _).trans (congrArg some ?_)
    rcases own with ⟨h, -⟩ | h
    · simp [State.scrubHead, h]
    · rw [h, Option.getD_some]
  have engine : w.scrub = _ := State.scrubAfterErase_of_own own none_left
  have hold : w.regions[r].eraseHold = false := by
    change (s.regions.set r _)[r].eraseHold = false
    rw [getElem_set_fin, if_pos rfl]
  have undefined : w.define = none := hd
  have define : w.defineHolds = false := by rw [State.defineHolds, undefined]
  have unheld : w.headHeld r = false := by
    rw [State.headHeld, hold, engine, define]
    rfl
  have running : w.isRunning = true := by rw [State.isRunning]; exact beq_iff_eq.mpr hp
  exact ⟨head, unheld, by simp [State.walkDue, head, unheld, engine, running]⟩

/-- The walk of the answered region starts at the region's start, and its first chunk is formed (R155). -/
theorem State.eraseAnswered_walks {r : RegionIx} {a b : Nat} (hp : s.startUp.phase = .running)
    (hn : s.nextGrant = .nothing)
    (own : s.work.scrubList = [] ∧ s.scrub.formed = [] ∨ s.scrubHead = some r) (none_left : s.atMedia = [])
    (hd : s.define = none) (hk : s.keys[r].loaded.isSome = true ∨ s.MaterialLoads r)
    (hc : s.nextChunk r s.work.regions[r].startLba = some (a, b)) (R : RunningResponse) (image : Records) :
    let w := s.eraseAnswered r R image .scrubQueued (s.listAfterErase r) (s.scrubAfterErase r)
    ∃ v, w.startWalkIfDue.serveMedia = v
    ∧ v = { w with
      keys := v.keys, port := v.port, sent := v.sent, scrub := v.scrub
      work := { w.work with regions := s.work.regions.set r { s.work.regions[r] with condition := .scrubbing } } }
    ∧ v.scrub.phase = .walking ∧ v.scrub.walkGeneration = image.keys[r].generation
    ∧ v.scrub.checkpoint = s.work.regions[r].startLba ∧ v.keys[r].loaded.isSome = true
    ∧ ∃ f ∈ v.scrub.formed, f.chunk = ⟨r, a, b - a, image.keys[r].generation⟩ := by
  intro w
  obtain ⟨head, unheld, due⟩ := State.walkDue_afterErase hp hd own none_left R image .scrubQueued
  have engine : w.scrub = _ := State.scrubAfterErase_of_own own none_left
  obtain ⟨started, loaded⟩ := State.startWalk_of_loadable head unheld (State.loadKey_isSome (by exact hk))
  have records : w.work.regions.set r { w.work.regions[r] with condition := .scrubbing }
      = s.work.regions.set r { s.work.regions[r] with condition := .scrubbing } := by
    change (s.work.regions.set r _).set r { (s.work.regions.set r _)[r] with condition := .scrubbing } = _
    rw [getElem_set_fin, if_pos rfl, Vector.set_set]
  rw [State.startWalkIfDue, if_pos due]
  change w.startWalk = _ at started
  rw [records, engine] at started
  change w.startWalk.keys[r].loaded.isSome = true at loaded
  generalize w.startWalk = x at started loaded ⊢
  have headX : x.scrubHead = some r := by rw [started]; exact head
  have next : x.nextChunk r s.work.regions[r].startLba = some (a, b) := by
    rw [← hc]
    refine State.nextChunk_congr (by rw [started]; rfl) (by rw [started]; rfl) (fun q => ?_) r _
    rw [started]
    dsimp only
    rw [getElem_set_fin]
    split
    · rename_i hq; rw [hq]; exact ⟨rfl, rfl⟩
    · exact ⟨rfl, rfl⟩
  have offered := State.placeOffer_new headX (by rw [started]) loaded (by rw [started]) (by rw [started]) next
  have port : x.port.queue = [] ∨ x.freeSlot = none := by
    rw [started]
    exact (State.nextGrant_nothing_iff.mp hn).symm.imp_left And.right
  obtain ⟨⟨served, -⟩, chunk⟩ := State.serveMedia_serves_walk headX port loaded
    (by rw [offered]; exact List.mem_singleton.mpr rfl)
  have generation : x.scrub.walkGeneration = image.keys[r].generation := by rw [started]; rfl
  rw [generation] at chunk
  refine ⟨x.serveMedia, rfl, ?_, ?_, ?_, ?_, ?_, chunk⟩
  · generalize x.serveMedia = v at served ⊢
    rw [served, started]
  · rw [served, started]
  · rw [served, started]; rfl
  · rw [served, started]
  · rw [served]; exact loaded

end Sys2Proof.Machine

namespace Sys2Proof.Proofs

open Sys2Proof Sys2Proof.Machine

/-- Settles O44, clause by clause: the destruction, the draw's end, the unit's contents, the done answer without and
with an entry of the scrub list, and the destructions of one event. -/
theorem keyDestroyed : Obligations.KeyDestroyed := by
  refine ⟨fun s r scrub still phase walk media store head erases drained unspent queue => ?_,
    fun s r g scrub bits rest still offered ready waiting queue erases newer free => ?_, fun s r scrub erases => ?_,
    fun s r R image phase grant list triggers reset erases running last writes => ?_,
    fun s r scrub R image phase grant triggers reset erases running last writes => ?_,
    fun s r still phase drained finish => ?_⟩
  · exact exec_keyDestruction_alone still phase walk media store head erases drained unspent queue
  · refine exec_randomDrawEnd_submits ready ?_ ?_ offered free
    · rw [State.endDraw_of_key queue waiting]
      exact State.takeMaterial_awaited (s := s.drawn rest) erases newer bits
    · obtain ⟨response, -, phase, walk, port, store⟩ := still
      exact ⟨response, State.destructionsDue_of_none_begun (by simp), phase, walk, port, store⟩
  · rw [State.image_keyDestruction erases, State.eraseCondition_eq, listWith_eq, RegionRecord.startLba_eq]
  · have unlisted : ¬ (false = true ∨ ∃ e ∈ s.work.scrubList, e.region = r) := by simp [list]
    have done := State.unitDone_keyDestruction erases running triggers reset last (image := image) (if_neg unlisted)
    rw [State.eraseCondition_eq, if_neg unlisted] at done
    refine ⟨_, exec_commitWriteEnd_settle writes done rfl, ?_⟩
    rw [State.eraseAnswered_settle_unlisted phase grant list]
    refine ⟨?_, State.serveStore_queue, State.serveStore_deferred⟩
    rw [State.serveStore_frame]
    rfl
  · intro start atMedia earlier list done
    have start_eq : s.work.regions[r].startLba = start := RegionRecord.startLba_eq _
    have list_eq : s.listAfterErase r = list := by rw [State.listAfterErase, start_eq]
    have answered (taken : scrub = true ∨ ∃ e ∈ s.work.scrubList, e.region = r) :
        exec .commitWriteEnd s = .next
          (s.eraseAnswered r R image .scrubQueued (s.listAfterErase r) (s.scrubAfterErase r)).settle := by
      have unit := State.unitDone_keyDestruction erases running triggers reset last (image := image) (if_pos taken)
      rw [State.eraseCondition_eq, if_pos taken] at unit
      exact exec_commitWriteEnd_settle writes unit rfl
    refine ⟨fun taken others own => ?_, fun a b own none_left define ticking loads next => ?_⟩
    · refine ⟨_, answered taken, ?_⟩
      rw [State.eraseAnswered_settle_rests phase grant others own]
      refine ⟨⟨?_, State.serveStore_queue, State.serveStore_deferred⟩, ?_, ?_, ?_, ?_⟩
      · rw [State.serveStore_frame, list_eq]
        rfl
      · rw [State.serveStore_frame]
        rfl
      · rw [State.serveStore_frame]
        rfl
      · rw [State.serveStore_frame]
        rfl
      · rw [State.serveStore_frame]
        change s.scrubAfterErase r = _
        rw [State.scrubAfterErase, start_eq]
        rfl
    · have taken : scrub = true ∨ ∃ e ∈ s.work.scrubList, e.region = r :=
        own.imp (fun h => h.2.1) State.listed_of_head
      have head := own.imp_left fun h => And.intro h.1 h.2.2
      obtain ⟨v, walks, frame, walking, generation, checkpoint, loaded, chunk⟩ :=
        State.eraseAnswered_walks ticking grant head none_left define loads (start_eq ▸ next) R image
      refine ⟨_, answered taken, ?_⟩
      rw [State.eraseAnswered_settle phase, walks]
      have gate := v.serveStore_frame
      have queue : v.serveStore.store.queue = [.responseEnd] := by rw [State.serveStore_queue, frame]; rfl
      have deferred : v.serveStore.store.deferred = [] := by rw [State.serveStore_deferred, frame]; rfl
      generalize v.serveStore = t at gate queue deferred
      refine ⟨⟨?_, queue, deferred⟩, ?_⟩
      · rw [gate, frame, list_eq]
        rfl
      · rw [gate]
        exact ⟨walking, generation, checkpoint.trans start_eq, loaded, chunk⟩
  · obtain ⟨t, run, none_begun, moved⟩ := exec_keyDestruction_advances still phase drained finish
    refine ⟨t, run, none_begun, fun e he hr hb => ?_⟩
    obtain ⟨f, hf, region, party, stage⟩ := moved e he hr hb
    exact ⟨f, hf, region, party, stage⟩

end Sys2Proof.Proofs
end

section
/-! PROOFS. The arbiter of the media port: its choice among the offered chunk and the oldest host segment (R64), and
what host grants earn the scrub engine (R65). -/

namespace Sys2Proof.Machine

variable {s : State}

/-! ### The choice (R64) -/

/-- A FREE slot is the lowest one if every slot below it is BUSY. -/
theorem State.freeSlot_eq {i : SlotIx} (free : s.port.slots[i] = none)
    (busy : ∀ j : SlotIx, j < i → s.port.slots[j].isSome = true) : s.freeSlot = some i := by
  have increasing : allSlots.Pairwise (· < ·) := by decide
  obtain ⟨below, above, split⟩ := List.append_of_mem (mem_allSlots i)
  rw [split, List.pairwise_append] at increasing
  refine List.find?_eq_some_iff_append.mpr ⟨by simp [free], below, above, split, fun j hj => ?_⟩
  have : s.port.slots[j].isNone = false :=
    Option.isNone_eq_false_iff.mpr (busy j (increasing.2.2 j hj i List.mem_cons_self))
  rw [this]
  rfl

theorem State.freeSlot_eq_none (busy : ∀ i : SlotIx, s.port.slots[i].isSome = true) : s.freeSlot = none :=
  List.find?_eq_none.mpr fun i _ => Bool.eq_false_iff.mp (Option.isNone_eq_false_iff.mpr (busy i))

theorem State.nextGrant_credited {i : SlotIx} {c : Chunk} (hi : s.freeSlot = some i) (ho : s.offer = some c)
    (hc : 0 < s.port.credit) : s.nextGrant = .credited i c := by
  rw [State.nextGrant, hi, ho]
  cases s.port.queue <;> exact if_pos hc

theorem State.nextGrant_host {i : SlotIx} (hi : s.freeSlot = some i) (ho : s.offer = none ∨ s.port.credit = 0)
    (hq : s.port.queue ≠ []) : s.nextGrant = .host i := by
  obtain ⟨x, rest, hx⟩ := List.exists_cons_of_ne_nil hq
  rw [State.nextGrant, hi, hx]
  cases offered : s.offer with
  | none => rfl
  | some c => exact if_neg (by rw [ho.resolve_left (by simp [offered])]; exact Nat.lt_irrefl 0)

theorem State.nextGrant_chunk {i : SlotIx} {c : Chunk} (hi : s.freeSlot = some i) (ho : s.offer = some c)
    (hc : s.port.credit = 0) (hq : s.port.queue = []) : s.nextGrant = .chunk i c := by
  rw [State.nextGrant, hi, ho, hq]
  exact if_neg (by rw [hc]; exact Nat.lt_irrefl 0)

/-- A chunk that is granted is the one offered. -/
theorem State.offer_of_granted {i : SlotIx} {c : Chunk} (h : s.nextGrant = .credited i c ∨ s.nextGrant = .chunk i c) :
    s.offer = some c := by
  cases hi : s.freeSlot with
  | none =>
    rw [State.nextGrant_nothing_iff.mpr (.inl hi)] at h
    simp at h
  | some j =>
    cases ho : s.offer with
    | none =>
      by_cases hq : s.port.queue = []
      · rw [State.nextGrant_nothing_iff.mpr (.inr ⟨ho, hq⟩)] at h
        simp at h
      · rw [State.nextGrant_host hi (.inl ho) hq] at h
        simp at h
    | some d =>
      rcases Nat.eq_zero_or_pos s.port.credit with none_left | credit
      · by_cases hq : s.port.queue = []
        · rw [State.nextGrant_chunk hi ho none_left hq] at h
          simp at h
          exact congrArg some h.2
        · rw [State.nextGrant_host hi (.inr none_left) hq] at h
          simp at h
      · rw [State.nextGrant_credited hi ho credit] at h
        simp at h
        exact congrArg some h.2

/-! ### The share accumulator and the scrub credit (R65) -/

/-- A host grant while no scrub is listed takes both back to 0. -/
theorem MediaPort.hostGrant_unlisted (share : Nat) (p : MediaPort) :
    p.hostGrant share false = { p with acc := 0, credit := 0 } := rfl

theorem MediaPort.hostGrant_below {share : Nat} {p : MediaPort} (h : p.acc + share < 16) :
    p.hostGrant share true = { p with acc := p.acc + share } :=
  (if_pos rfl).trans (if_neg (Nat.not_le.mpr h))

theorem MediaPort.hostGrant_earns {share : Nat} {p : MediaPort} (h : 16 ≤ p.acc + share) :
    p.hostGrant share true = { p with acc := p.acc + share - 16, credit := min (p.credit + 1) 4 } :=
  (if_pos rfl).trans (if_pos h)

theorem MediaPort.hostGrant_frame (share : Nat) (listed : Bool) (p : MediaPort) : p.hostGrant share listed = { p with
    acc := (p.hostGrant share listed).acc, credit := (p.hostGrant share listed).credit } := by
  unfold MediaPort.hostGrant
  split
  · split <;> rfl
  · rfl

/-- Sixteen sixteenths make one credit, and four credits are the most. -/
theorem MediaPort.hostGrant_listed {share : Nat} {p : MediaPort} (hs : share ≤ 15) (ha : p.acc ≤ 15)
    (hc : p.credit ≤ 4) : p.hostGrant share true = { p with
      acc := (p.acc + share) % 16, credit := min 4 (p.credit + (p.acc + share) / 16) } := by
  by_cases h : 16 ≤ p.acc + share
  · have whole : (p.acc + share) / 16 = 1 := by omega
    have rest : p.acc + share - 16 = (p.acc + share) % 16 := by omega
    rw [MediaPort.hostGrant_earns h, whole, rest, min_comm]
  · have whole : min 4 (p.credit + (p.acc + share) / 16) = p.credit := by omega
    have rest : (p.acc + share) % 16 = p.acc + share := by omega
    rw [MediaPort.hostGrant_below (Nat.not_le.mp h), whole, rest]

/-- What n host grants earn while a scrub is listed. -/
theorem MediaPort.hostGrant_iterate {share : Nat} {p : MediaPort} (hs : share ≤ 15) (ha : p.acc ≤ 15)
    (hc : p.credit ≤ 4) (n : Nat) : (MediaPort.hostGrant share true)^[n] p = { p with
      acc := (p.acc + n * share) % 16, credit := min 4 (p.credit + (p.acc + n * share) / 16) } := by
  induction n with
  | zero =>
    have start : (p.acc + 0 * share) % 16 = p.acc := by omega
    have earned : min 4 (p.credit + (p.acc + 0 * share) / 16) = p.credit := by omega
    rw [start, earned]
    rfl
  | succ n ih =>
    have more : (n + 1) * share = n * share + share := Nat.succ_mul n share
    have acc_le : (p.acc + n * share) % 16 ≤ 15 := by omega
    rw [Function.iterate_succ_apply', ih, MediaPort.hostGrant_listed hs acc_le (Nat.min_le_left ..), more]
    congr 1 <;> dsimp only <;> omega

end Sys2Proof.Machine

namespace Sys2Proof.Proofs

open Sys2Proof Sys2Proof.Machine

/-- Settles O24: the choice by the lowest FREE slot, the offer, the credit and the queue; the credit by induction on
the number of host grants. -/
theorem arbiterSharesSlots : Obligations.ArbiterSharesSlots := by
  refine ⟨fun s => ⟨fun busy => ?_, fun i free busy => ?_⟩, fun share n p hs ha hc => ?_⟩
  · exact State.nextGrant_nothing_iff.mpr (.inl (State.freeSlot_eq_none busy))
  · have lowest := State.freeSlot_eq free busy
    exact ⟨fun c ho => State.nextGrant_credited lowest ho, State.nextGrant_host lowest,
      fun c ho => State.nextGrant_chunk lowest ho,
      fun ho hq => State.nextGrant_nothing_iff.mpr (.inr ⟨ho, hq⟩)⟩
  · rw [MediaPort.hostGrant_iterate hs ha hc]
    exact ⟨rfl, rfl, rfl, rfl⟩

end Sys2Proof.Proofs

end

section
/-! PROOFS. A host segment is issued into its slot (R66): the operation and the data that R66, R15, R57 and R60 give
each disposition. -/

namespace Sys2Proof.Machine

variable {s : State} {t : Transfer} {x : Segment}

/-! ### The write data of a segment (R15, R57, R60) -/

theorem Transfer.length_blocks (t : Transfer) (offset count : Nat) : (t.blocks offset count).length = count := by
  simp [Transfer.blocks]

theorem Transfer.getElem?_blocks {offset count k : Nat} {b : Block} (hk : k < count)
    (hb : t.data[offset + k]? = some b) : (t.blocks offset count)[k]? = some b := by
  simp [Transfer.blocks, hk, hb]

theorem getElem?_mapFrom {α β : Type} (f : Nat → α → β) (xs : List α) (k : Nat) :
    (mapFrom f 0 xs)[k]? = xs[k]?.map (f k) := by
  by_cases h : k < xs.length
  · have h' : k < (mapFrom f 0 xs).length := by rwa [length_mapFrom]
    rw [List.getElem?_eq_getElem h', List.getElem?_eq_getElem h, getElem_mapFrom, Nat.zero_add]
    rfl
  · have h' : (mapFrom f 0 xs).length ≤ k := by rw [length_mapFrom]; exact Nat.not_lt.mp h
    rw [List.getElem?_eq_none h', List.getElem?_eq_none (Nat.not_lt.mp h)]
    rfl

/-- The blocks of a CIPHER WRITE, each enciphered under the region's key at its LBA (R57). -/
def State.cipherBlocks (s : State) (t : Transfer) (x : Segment) (r : RegionIx) : List Block :=
  mapFrom (fun k b => encipherBlock (s.pathKey r) s.geometry.unitsPerBlock (x.first + k) b) 0
    (t.blocks (x.first - t.start) x.count)

theorem State.length_cipherBlocks (r : RegionIx) : (s.cipherBlocks t x r).length = x.count := by
  rw [State.cipherBlocks, length_mapFrom, Transfer.length_blocks]

theorem State.getElem?_cipherBlocks (r : RegionIx) {k : Nat} {b : Block} (hk : k < x.count)
    (hb : t.data[x.first - t.start + k]? = some b) : (s.cipherBlocks t x r)[k]?
      = some (encipherBlock (s.pathKey r) s.geometry.unitsPerBlock (x.first + k) b) := by
  rw [State.cipherBlocks, getElem?_mapFrom, Transfer.getElem?_blocks hk hb]
  rfl

/-! ### The media operation of a segment (R66) -/

theorem State.segmentOperation_cipher_read (hd : x.disposition = .cipher) (hk : t.kind = .read) :
    s.segmentOperation t x = (.read, some ⟨x.first, x.count⟩, []) := by
  rw [State.segmentOperation, hd, hk]

theorem State.segmentOperation_cipher_write (hd : x.disposition = .cipher) (hk : t.kind = .write) :
    ∃ data, s.segmentOperation t x = (.write, some ⟨x.first, x.count⟩, data)
      ∧ ∀ r, x.owner = some (.region r) → data = s.cipherBlocks t x r := by
  rw [State.segmentOperation, hd, hk]
  refine ⟨_, rfl, fun r hr => ?_⟩
  rw [hr]
  rfl

theorem State.segmentOperation_cipher_discard (hd : x.disposition = .cipher) (hk : t.kind = .discard) :
    s.segmentOperation t x = (.deallocate, some ⟨x.first, x.count⟩, []) := by
  rw [State.segmentOperation, hd, hk]

theorem State.segmentOperation_image (hd : x.disposition = .image) :
    s.segmentOperation t x = (.read, some ⟨s.geometry.capacity + x.first, x.imageBlocks⟩, []) := by
  rw [State.segmentOperation, hd]

theorem State.segmentOperation_imageWrite_write (hd : x.disposition = .imageWrite) (hk : t.kind = .write) :
    s.segmentOperation t x = (.write, some ⟨s.geometry.capacity + x.first, x.count⟩,
      t.blocks (x.first - t.start) x.count) := by
  rw [State.segmentOperation, hd, hk]

theorem State.segmentOperation_imageWrite_discard (hd : x.disposition = .imageWrite) (hk : t.kind = .discard) :
    s.segmentOperation t x = (.deallocate, some ⟨s.geometry.capacity + x.first, x.count⟩, []) := by
  rw [State.segmentOperation, hd, hk]

theorem State.segmentOperation_plain (hd : x.disposition = .plain) : s.segmentOperation t x = (.flush, none, []) := by
  rw [State.segmentOperation, hd]

/-- Only a WRITE's CIPHER and IMAGE-WRITE segments send data. -/
theorem State.segmentOperation_no_data
    (h : t.kind ≠ .write ∨ (x.disposition ≠ .cipher ∧ x.disposition ≠ .imageWrite)) :
    (s.segmentOperation t x).2.2 = [] := by
  unfold State.segmentOperation
  dsimp only
  split
  case h_2 hd hk => exact (h.elim (· hk) (·.1 hd)).elim
  case h_4 hd hk => exact (h.elim (· hk) (·.2 hd)).elim
  all_goals rfl

/-! ### The issue into a slot (R65, R66) -/

/-- The record of a slot into which a host segment is issued now (R66). -/
def State.segmentSlot (s : State) (t : Transfer) (index : Nat) (x : Segment) : SlotRecord :=
  ⟨.segment t.tag index, (s.segmentOperation t x).1, (s.segmentOperation t x).2.1, s.port.nextOperation,
    s.work.mediaTimeout, []⟩

/-- What the issue of a host segment sends: its data is taken first, then the operation goes out (R15, R66). -/
def State.segmentSent (s : State) (i : SlotIx) (t : Transfer) (x : Segment) : List PortEvent :=
  (if (s.segmentOperation t x).1 = .write then [.dataTaken t.tag (x.first - t.start) x.count] else [])
    ++ [.mediaOperation s.port.nextOperation i (s.segmentOperation t x).1 (s.segmentOperation t x).2.1
      (s.segmentOperation t x).2.2]

theorem State.issueSegment_eq (i : SlotIx) (t : Transfer) (index : Nat) (x : Segment) :
    s.issueSegment i t index x = { s with
      port := { s.port with
        slots := s.port.slots.set i (some (s.segmentSlot t index x)), nextOperation := s.port.nextOperation + 1 }
      transfers := s.transfers.map fun y => if y.tag = t.tag then
        { t with segments := t.segments.set index { x with state := .atMedia } } else y
      sent := s.sent ++ s.segmentSent i t x } := by
  unfold State.issueSegment State.issue State.segmentSent
  dsimp only
  rw [← List.append_assoc]
  split
  · rfl
  · rw [List.append_nil]
    rfl

/-- The charge does not look at the segment queue. -/
theorem MediaPort.hostGrant_queue (share : Nat) (listed : Bool) (p : MediaPort) (q : List (Nat × Nat)) :
    MediaPort.hostGrant share listed { p with queue := q } = { p.hostGrant share listed with queue := q } := by
  unfold MediaPort.hostGrant
  split
  · split <;> rfl
  · rfl

/-- The grant of the oldest host segment, with the accumulator's charge (R65, R66). -/
theorem exec_segmentIssue {i : SlotIx} {tag index : Nat} {rest : List (Nat × Nat)} (hg : s.nextGrant = .host i)
    (hq : s.port.queue = (tag, index) :: rest) (ht : s.transfer tag = some t) (hx : t.segments[index]? = some x) :
    exec .segmentIssue s = .next { s with
      port := { s.port with
        queue := rest
        slots := s.port.slots.set i (some (s.segmentSlot t index x))
        acc := (s.port.hostGrant s.work.scrubShare !s.work.scrubList.isEmpty).acc
        credit := (s.port.hostGrant s.work.scrubShare !s.work.scrubList.isEmpty).credit
        nextOperation := s.port.nextOperation + 1 }
      transfers := s.transfers.map fun y => if y.tag = t.tag then
        { t with segments := t.segments.set index { x with state := .atMedia } } else y
      sent := s.segmentSent i t x } := by
  have held : s.quiet.transfer tag = some t := ht
  have run : exec .segmentIssue s = .next (s.quiet.grantSegment i) := by
    show execSegmentIssue s = _
    rw [execSegmentIssue, hg]
    rfl
  rw [run, State.grantSegment, State.quiet_port, hq]
  dsimp only
  rw [MediaPort.hostGrant_queue, MediaPort.hostGrant_frame]
  rw [held]
  dsimp only
  rw [hx]
  dsimp only
  rw [State.issueSegment_eq]
  rfl

end Sys2Proof.Machine

namespace Sys2Proof.Proofs

open Sys2Proof Sys2Proof.Machine

/-- Settles O22: the grant is one next state; its operation by the segment's disposition and the transfer's kind, its
charge by whether a scrub is listed and whether the accumulator turns over. -/
theorem segmentIssued : Obligations.SegmentIssued := by
  intro s i tag index rest t x hg hq ht hx
  obtain rfl := State.transfer_tag ht
  refine ⟨_, _, _, _, exec_segmentIssue hg hq ht hx, rfl, rfl, rfl, rfl, rfl, rfl, ?_, ?_, ?_, ?_, ?_, ?_, ?_, rfl, ?_⟩
  · exact fun hd hk => by rw [State.segmentOperation_cipher_read hd hk]; exact ⟨rfl, rfl⟩
  · intro hd hk
    obtain ⟨data, op, -⟩ := s.segmentOperation_cipher_write hd hk
    rw [op]
    exact ⟨rfl, rfl⟩
  · exact fun hd hk => by rw [State.segmentOperation_cipher_discard hd hk]; exact ⟨rfl, rfl⟩
  · exact fun hd => by rw [State.segmentOperation_image hd]; exact ⟨rfl, rfl⟩
  · exact fun hd hk => by rw [State.segmentOperation_imageWrite_write hd hk]; exact ⟨rfl, rfl⟩
  · exact fun hd hk => by rw [State.segmentOperation_imageWrite_discard hd hk]; exact ⟨rfl, rfl⟩
  · exact fun hd => by rw [State.segmentOperation_plain hd]; exact ⟨rfl, rfl⟩
  refine ⟨fun r hd hk hr => ?_, fun hd hk => ?_, State.segmentOperation_no_data, fun none_listed => ?_,
    fun listed below => ?_, fun listed full => ?_⟩
  · obtain ⟨data, op, enciphered⟩ := s.segmentOperation_cipher_write hd hk
    rw [op, enciphered r hr]
    exact ⟨State.length_cipherBlocks r, fun k b => State.getElem?_cipherBlocks r⟩
  · rw [State.segmentOperation_imageWrite_write hd hk]
    exact ⟨Transfer.length_blocks .., fun k b => Transfer.getElem?_blocks⟩
  · rw [none_listed]
    exact ⟨rfl, rfl⟩
  all_goals have scrubbing : (!s.work.scrubList.isEmpty) = true := by simpa using listed
  · rw [scrubbing, MediaPort.hostGrant_below below]
    exact ⟨rfl, rfl⟩
  · rw [scrubbing, MediaPort.hostGrant_earns full]
    exact ⟨rfl, rfl⟩

end Sys2Proof.Proofs

end

section
/-! PROOFS. A scrub chunk is issued into its slot, and the engine places its next offer (R63, R67, R155). -/

namespace Sys2Proof.Machine

variable {s : State}

/-! ### The next offer (R155) -/

/-- A step of the search for the lowest chunk keeps what holds of the best so far and of the chunks that wait. -/
theorem lowerReissue_keeps {P : Chunk → Prop} {best : Option Chunk} {f : FormedChunk}
    (hb : ∀ c, best = some c → P c) (hf : f.place = .reissue → P f.chunk) :
    ∀ c, lowerReissue best f = some c → P c := by
  intro c hc
  unfold lowerReissue at hc
  split at hc
  · rename_i waits
    cases best with
    | none => exact Option.some.inj hc ▸ hf waits
    | some b =>
      dsimp only at hc
      split at hc
      · exact Option.some.inj hc ▸ hf waits
      · exact hb c hc
  · exact hb c hc

/-- The lowest chunk that waits for reissue is one that waits. -/
theorem mem_of_lowestReissue {formed : List FormedChunk} {c : Chunk} (h : lowestReissue formed = some c) :
    ⟨c, .reissue⟩ ∈ formed := by
  have found (l : List FormedChunk) (hl : l ⊆ formed) : ∀ best : Option Chunk,
      (∀ d, best = some d → ⟨d, .reissue⟩ ∈ formed) →
      ∀ d, l.foldl lowerReissue best = some d → ⟨d, .reissue⟩ ∈ formed := by
    induction l with
    | nil => exact fun best hb => hb
    | cons f l ih =>
      obtain ⟨hf, hl⟩ := List.cons_subset.mp hl
      intro best hb
      exact ih hl _ (lowerReissue_keeps hb fun waits => waits ▸ hf)
  exact found formed (List.Subset.refl _) none (fun _ he => by cases he) c h

/-- An offer moves the formed chunks and the issue position alone. -/
theorem State.placeOffer_scrub : s.placeOffer.scrub = { s.scrub with
    formed := s.placeOffer.scrub.formed, issue := s.placeOffer.scrub.issue } := by
  unfold State.placeOffer
  repeat' split
  all_goals rfl

/-- A chunk that is at the media, and waits nowhere for reissue, stays there when an offer is placed. -/
theorem State.placeOffer_atMedia {c : Chunk} (hc : ⟨c, .atMedia⟩ ∈ s.scrub.formed)
    (once : ⟨c, .reissue⟩ ∉ s.scrub.formed) : ⟨c, .atMedia⟩ ∈ s.placeOffer.scrub.formed := by
  unfold State.placeOffer
  split
  · exact hc
  · split
    · split
      · rename_i d lowest
        have other : c ≠ d := fun e => once (e ▸ mem_of_lowestReissue lowest)
        exact List.mem_map.mpr ⟨_, hc, if_neg other⟩
      · split
        · exact hc
        · split
          · exact List.mem_append_left _ hc
          · exact hc
    · exact hc

/-- A chunk placed somewhere stands nowhere else. -/
theorem place_of_mem_placeChunk {c : Chunk} {p q : ChunkPlace} {formed : List FormedChunk}
    (h : ⟨c, q⟩ ∈ placeChunk c p formed) : q = p := by
  obtain ⟨f, -, hf⟩ := List.mem_map.mp h
  split at hf
  · exact (congrArg FormedChunk.place hf).symm
  · rename_i other
    exact absurd (congrArg FormedChunk.chunk hf) other

/-! ### The grant of a chunk (R64, R67) -/

/-- The port once the chunk's grant has been paid for: by one credit, or by none where the slot would else stay
idle (R64). -/
def State.paidPort (s : State) (i : SlotIx) (c : Chunk) : MediaPort :=
  { s.port with credit := if s.nextGrant = .credited i c then s.port.credit - 1 else s.port.credit }

theorem exec_chunkIssue {i : SlotIx} {c : Chunk} (h : s.nextGrant = .credited i c ∨ s.nextGrant = .chunk i c) :
    exec .chunkIssue s = .next
      (State.placeOffer (State.chunkIssued i c { s with sent := [], port := s.paidPort i c })) := by
  show execChunkIssue s = _
  rw [execChunkIssue, State.paidPort]
  rcases h with h | h
  · rw [h, if_pos rfl]
    rfl
  · rw [h, if_neg (by simp)]
    rfl

/-- The chunk issued is at the media, and waits nowhere for reissue. -/
theorem State.chunkIssued_atMedia {c : Chunk} (ho : s.offer = some c) (i : SlotIx) :
    ⟨c, .atMedia⟩ ∈ (s.chunkIssued i c).scrub.formed ∧ ⟨c, .reissue⟩ ∉ (s.chunkIssued i c).scrub.formed := by
  obtain ⟨f, found, rfl⟩ := Option.map_eq_some_iff.mp ho
  have placed (p : ChunkPlace) (h : ⟨f.chunk, p⟩ ∈ (s.chunkIssued i f.chunk).scrub.formed) : p = .atMedia :=
    place_of_mem_placeChunk h
  obtain ⟨⟨d, q⟩, hg, rfl, hq⟩ := exists_mem_placeChunk f.chunk .atMedia (List.mem_of_find?_eq_some found)
  obtain rfl := hq rfl
  exact ⟨hg, fun h => by cases placed _ h⟩

end Sys2Proof.Machine

namespace Sys2Proof.Proofs

open Sys2Proof Sys2Proof.Machine

/-- Settles O23: the chunk is issued, and the next offer reaches the formed chunks and the issue position alone. -/
theorem chunkIssued : Obligations.ChunkIssued := by
  intro s i c h
  have offered : s.offer = some c := State.offer_of_granted h
  obtain ⟨atMedia, once⟩ := State.chunkIssued_atMedia (s := { s with sent := [], port := s.paidPort i c }) offered i
  refine ⟨_, exec_chunkIssue h, ?_⟩
  have stays := State.placeOffer_atMedia atMedia once
  rw [State.placeOffer_frame, State.placeOffer_scrub]
  exact ⟨rfl, rfl, rfl, rfl, rfl, rfl, stays, rfl⟩

end Sys2Proof.Proofs

end

section
/-! PROOFS. Messages from the media: read data is held in its slot, and other messages are ignored (R68). -/

namespace Sys2Proof.Machine

variable {s : State}

/-- No BUSY slot holds an operation number. -/
theorem State.slotOf_eq_none {operation : BitVec 32}
    (h : ∀ (i : SlotIx) (x : SlotRecord), s.port.slots[i] = some x → x.operation ≠ operation) :
    s.slotOf operation = none := by
  refine List.find?_eq_none.mpr fun i _ => ?_
  cases hx : s.port.slots[i] with
  | none => simp
  | some x => simpa using h i x hx

/-- After the fall of power-good, and where it names no BUSY slot's operation, a message is ignored (R68, R99). -/
theorem exec_media_ignored {operation : BitVec 32} (h : s.startUp.powerGood = false ∨ s.slotOf operation = none)
    (offset : BitVec 17) (block : Block) (good : Bool) :
    exec (.mediaData operation offset block) s = .next s.quiet
      ∧ exec (.mediaCompletion operation good) s = .next s.quiet := by
  show execMediaData operation offset block s = _ ∧ execMediaCompletion operation good s = _
  rw [execMediaData, execMediaCompletion]
  rcases h with fallen | unnamed
  · rw [fallen]
    exact ⟨rfl, rfl⟩
  · have unnamed : s.quiet.slotOf operation = none := unnamed
    rw [State.takeData, State.takeCompletion, unnamed, ite_self]
    exact ⟨rfl, rfl⟩

/-- A data message for a BUSY slot: held if the slot reads and the offset lies in its range, and else ignored. -/
theorem exec_mediaData_named {i : SlotIx} {x : SlotRecord} (hp : s.startUp.powerGood = true)
    (hi : s.slotOf x.operation = some i) (hx : s.port.slots[i] = some x) (offset : BitVec 17) (block : Block) :
    exec (.mediaData x.operation offset block) s = .next
      (if x.kind = .read ∧ offset.toNat < x.range.elim 0 (·.length) then
        s.quiet.setSlot i (some { x with arrived := (offset.toNat, s.heldForm x offset.toNat block)
          :: (x.arrived.filter fun y => y.1 != offset.toNat) })
      else s.quiet) := by
  have named : s.quiet.slotOf x.operation = some i := hi
  have slot : s.quiet.port.slots[i] = some x := hx
  show execMediaData x.operation offset block s = _
  rw [execMediaData, hp, if_pos rfl, State.takeData, named]
  dsimp only
  rw [slot]
  rfl

/-- The form of a block held for a host segment (R56, R60). -/
theorem State.heldForm_segment {x : SlotRecord} {tag index : Nat} {t : Transfer} {g : Segment}
    (ho : x.occupant = .segment tag index) (ht : s.transfer tag = some t) (hg : t.segments[index]? = some g)
    (offset : Nat) (block : Block) :
    (∀ r, g.disposition = .cipher → g.owner = some (.region r) → s.heldForm x offset block
        = decipherBlock (s.pathKey r) s.geometry.unitsPerBlock (g.first + offset) block)
      ∧ (g.disposition = .image → s.heldForm x offset block = block) := by
  have found : (s.transfer tag).bind (fun t => t.segments[index]?) = some g := by rw [ht]; exact hg
  rw [State.heldForm, ho]
  dsimp only
  rw [found]
  dsimp only
  constructor
  · intro r hd hr
    rw [hd, hr]
  · intro hd
    rw [hd]

end Sys2Proof.Machine

namespace Sys2Proof.Proofs

open Sys2Proof Sys2Proof.Machine

/-- Settles O25: a message by whether a BUSY slot holds its operation number, the data by whether the slot reads and
the offset lies in its range. -/
theorem mediaMessagesTaken : Obligations.MediaMessagesTaken := by
  refine fun s offset block => ⟨fun operation good h => ?_, fun i x hp hi hx => ⟨fun h => ?_, ?_⟩⟩
  · exact exec_media_ignored (h.imp_right State.slotOf_eq_none) offset block good
  · rw [exec_mediaData_named hp hi hx, if_neg fun taken => h.elim (· taken.1) (Nat.not_le.mpr taken.2)]
    rfl
  · intro tag index t g e ho ht hg he hk inside
    refine ⟨s.heldForm x offset.toNat block, ?_, State.heldForm_segment ho ht hg offset.toNat block⟩
    rw [exec_mediaData_named hp hi hx, if_pos ⟨hk, by rw [he]; exact inside⟩]
    rfl

end Sys2Proof.Proofs

end

section
/-! PROOFS. Configuration units and the ratchet unit answered done: for each, the state it leaves, and that nothing
else is due in its event. -/

namespace Sys2Proof.Machine

variable {s t : State}

/-! ### The end of a write that leaves the part calm (R167) -/

/-- The part of the state that calm looks at. -/
def State.calmLook (s : State) : ResponseController × Bool × List EraseOperation × StartUp × List ScrubEntry
    × Vector (Option SlotRecord) 16 × List (Nat × Nat) × ScrubEngine :=
  ({ s.response with changePending := false }, s.reverting, s.erases, s.startUp, s.work.scrubList, s.port.slots,
    s.port.queue, s.scrub)

theorem State.Calm.of_look (h : s.Calm) (g : t.calmLook = s.calmLook) : t.Calm := by
  simp only [State.calmLook, Prod.mk.injEq, ResponseController.mk.injEq] at g
  obtain ⟨⟨triggers, running, released, -⟩, reverting, erases, startUp, list, slots, queue, scrub⟩ := g
  exact State.calm_congr h running released triggers reverting erases startUp list slots queue scrub

/-- A unit alone in the queue is answered done, and its requester leaves the store empty and the part calm. -/
theorem exec_commitWriteEnd_calm {u : CommitUnit} {image : Records} (h : s.Calm) (hw : s.Writes u image)
    (done : State.unitDone u (s.written image) = t) (store : t.store = emptyStore) (look : t.calmLook = s.calmLook) :
    exec .commitWriteEnd s = .next t := by
  obtain ⟨queue, deferred, writing⟩ := hw
  subst done
  exact exec_commitWriteEnd queue deferred writing store (h.of_look look)

/-! ### The tamper lines (R122) -/

/-- The tamper block with a group ARMED (`true`) or RESTING. -/
def TamperBlock.withArmed (g : Group) (v : Bool) (b : TamperBlock) : TamperBlock :=
  match g with
  | .a => { b with armedA := v }
  | .b => { b with armedB := v }
  | .enclosure => { b with armedEnclosure := v }

theorem State.setArmed_eq (g : Group) (v : Bool) : s.setArmed g v = { s with tamper := s.tamper.withArmed g v } := by
  cases g <;> rfl

theorem TamperBlock.withArmed_frame (g : Group) (v : Bool) (b : TamperBlock) : b.withArmed g v = { b with
    armedA := (b.withArmed g v).armedA, armedB := (b.withArmed g v).armedB
    armedEnclosure := (b.withArmed g v).armedEnclosure } := by
  cases g <;> rfl

theorem TamperBlock.armed_withArmed (g k : Group) (v : Bool) (b : TamperBlock) :
    (b.withArmed g v).armed k = if k = g then v else b.armed k := by
  cases g <;> cases k <;> rfl

/-- The tamper block once the settings of a line have taken effect: the line starts afresh, and its group rests. -/
def TamperBlock.fresh (b : TamperBlock) (n : LineIx) : TamperBlock :=
  TamperBlock.withArmed (groupOf n) false
    { b with changePending := false, lines := b.lines.set n ⟨false, b.lines[n].level, 0⟩ }

theorem TamperBlock.fresh_changePending (b : TamperBlock) (n : LineIx) : (b.fresh n).changePending = false := by
  rw [TamperBlock.fresh, TamperBlock.withArmed_frame]

theorem TamperBlock.fresh_lines (b : TamperBlock) (n m : LineIx) : (b.fresh n).lines[m] =
    if m = n then ⟨false, b.lines[n].level, 0⟩ else b.lines[m] := by
  rw [TamperBlock.fresh, TamperBlock.withArmed_frame]
  exact getElem_set_fin ..

theorem TamperBlock.armed_fresh (b : TamperBlock) (n : LineIx) (g : Group) :
    (b.fresh n).armed g = if g = groupOf n then false else b.armed g :=
  TamperBlock.armed_withArmed ..

/-! ### The response table and the ratchets (R44, R134) -/

theorem State.entryOf_eq {n : SourceIx} (hn : n ≠ 0) :
    s.entryOf n = s.work.responseTable[n.val - 1]'(by omega) :=
  dif_pos (Nat.pos_of_ne_zero fun e => hn (Fin.ext e))

/-- The response table with one entry replaced. -/
theorem State.entryOf_of_set {n m : SourceIx} (hn : n ≠ 0) (hm : m ≠ 0) {e : ResponseEntry}
    (table : t.work.responseTable = s.work.responseTable.set (n.val - 1) e (by omega)) :
    t.entryOf m = if m = n then e else s.entryOf m := by
  have place : n.val - 1 = m.val - 1 ↔ m = n := by
    have := Fin.val_ne_of_ne hn
    have := Fin.val_ne_of_ne hm
    simp only [Fin.val_zero] at *
    rw [Fin.ext_iff]
    omega
  simp only [State.entryOf_eq hm, table, Vector.getElem_set, place]

theorem addRatchets_getElem (mask : BitVec 16) (rs : RegionRatchets) (regions : Vector RegionRecord 16) (r : RegionIx) :
    (addRatchets mask rs regions)[r] = if mask.getLsbD r.val = true then
      { regions[r] with ratchets := regions[r].ratchets.union rs } else regions[r] :=
  getElem_tabMapIx ..

/-! ### Each unit's requester at the done answer -/

section
variable {id : Nat} (hc : s.management.current = some id)
include hc

theorem State.scrubShareDone_current (v : Nat) : s.scrubShareDone id v = { s with
    work := { s.work with scrubShare := v }, port := { s.port with acc := 0, credit := 0 }
    management := s.replied 0x11 .done [BitVec.ofNat 8 v] } :=
  State.reply_current (by exact hc) ..

theorem State.mediaTimeoutDone_current (v : Nat) : s.mediaTimeoutDone id v = { s with
    work := { s.work with mediaTimeout := v }, management := s.replied 0x12 .done [BitVec.ofNat 8 v] } :=
  State.reply_current (by exact hc) ..

theorem State.labelDone_current (text : List Byte) : s.labelDone id text = { s with
    work := { s.work with label := text }, window := { s.window with changePending := false }
    management := s.replied 0x16 .done [] } :=
  State.reply_current (by exact hc) ..

theorem State.deadlineDone_current (dp dn q : Nat) : s.deadlineDone id dp dn q = { s with
    work := { s.work with deadlines := { s.work.deadlines with dp := dp, dn := dn, q := q } }
    deadlines := { s.deadlines with changePending := false }
    management := s.replied 0x0F .done
      [BitVec.ofNat 8 dp, BitVec.ofNat 8 (dp / 256), BitVec.ofNat 8 dn, BitVec.ofNat 8 q] } :=
  State.reply_current (by exact hc) ..

theorem State.setResponseDone_current (n : SourceIx) (e : ResponseEntry) : s.setResponseDone id n e = { s with
    work := { s.work with responseTable := s.work.responseTable.set (n.val - 1) e (by omega) }
    response := { s.response with changePending := false }
    management := s.replied 0x0B .done [levelByte e.level, severityByte e.severity] } :=
  State.reply_current (by exact hc) ..

theorem State.imageLengthDone_current (l : Nat) : s.imageLengthDone id l = { s with
    work := { s.work with window := { s.work.window with l := l } }
    window := ⟨if s.window.state = .loading then .retired else s.window.state, false⟩
    management := s.replied 0x15 .done
      (le 4 l ++ [windowByte (if s.window.state = .loading then .retired else s.window.state)]) } :=
  State.reply_current (by exact hc) ..

theorem State.setWindowDone_current (enable : Bool) (w : Nat) : s.setWindowDone id enable w = { s with
    work := { s.work with window := s.work.window.apply enable w }
    window := ⟨windowAfter enable s.work.window.enabled s.window.state, false⟩
    management := s.replied 0x13 .done (windowByte (windowAfter enable s.work.window.enabled s.window.state)
      :: le 4 (s.work.window.apply enable w).w ++ le 4 (s.work.window.apply enable w).l) } :=
  State.reply_current (by exact hc) ..

theorem State.tamperDone_current (n : LineIx) (x : LineConfig) : s.tamperDone id n x = { s with
    work := { s.work with lines := s.work.lines.set n x }, tamper := s.tamper.fresh n
    management := s.replied 0x0D .done
      [flagByte x.enabled, polarityByte x.polarity, flagByte x.idle, BitVec.ofNat 8 x.debounce] } := by
  rw [State.tamperDone, State.setArmed_eq]
  dsimp only
  rw [State.reply_current (by exact hc)]
  rfl

theorem State.holdupDone_current (x : HoldupSettings) : s.holdupDone id x = { s with
    work := { s.work with holdup := x }
    store := { s.store with headWaiting := false }
    holdup := { s.holdup with
      converting := x.gate == .continuous && s.isRunning && s.startUp.powerGood, lowCount := 0, changePending := false }
    management := s.replied 0x10 .done [gateByte x.gate, BitVec.ofNat 8 x.threshold, conversionByte x.time] } :=
  State.reply_current (by exact hc) ..

theorem State.ratchetDone_current (mask : BitVec 16) (rs : RegionRatchets) (ds : DeviceRatchets) :
    ∃ t, s.ratchetDone id mask rs ds = t ∧ t = { s with
      work := { s.work with
        regions := addRatchets mask rs s.work.regions, deviceRatchets := s.work.deviceRatchets.union ds }
      management := s.replied 0x0A .done (t.ratchetSets mask) } := by
  refine ⟨_, rfl, ?_⟩
  rw [State.ratchetDone, State.reply_current (by exact hc), State.ratchetBytes_eq]
  rfl

end

/-- The window's state once SET-WINDOW has taken effect (R110). -/
theorem windowAfter_eq (enable was : Bool) (w : WindowState) :
    windowAfter enable was w = if enable = false then .off else if was then w else .retired := by
  cases enable <;> rfl

end Sys2Proof.Machine

namespace Sys2Proof.Proofs

open Sys2Proof Sys2Proof.Machine

/-- Settles O42: each unit by what its requester does with the done answer. -/
theorem settingsTakeEffect : Obligations.SettingsTakeEffect := by
  intro s u image id calm queue deferred writing current
  have alone : s.Writes u image := ⟨queue, deferred, writing⟩
  have current' : (s.written image).management.current = some id := current
  refine ⟨?_, ?_, ?_, ?_, ?_, ?_, ?_, ?_, ?_, ?_⟩
  · rintro v rfl
    exact exec_commitWriteEnd_calm calm alone (State.scrubShareDone_current current' v) rfl rfl
  · rintro v rfl
    exact exec_commitWriteEnd_calm calm alone (State.mediaTimeoutDone_current current' v) rfl rfl
  · rintro text rfl
    exact exec_commitWriteEnd_calm calm alone (State.labelDone_current current' text) rfl rfl
  · rintro dp dn q rfl
    exact exec_commitWriteEnd_calm calm alone (State.deadlineDone_current current' dp dn q) rfl rfl
  · rintro n e rfl hn
    exact ⟨_, exec_commitWriteEnd_calm calm alone (State.setResponseDone_current current' n e) rfl rfl, rfl,
      fun m hm => State.entryOf_of_set hn hm rfl⟩
  · rintro l rfl
    exact exec_commitWriteEnd_calm calm alone (State.imageLengthDone_current current' l) rfl rfl
  · rintro enable w rfl
    dsimp only
    rw [← windowAfter_eq]
    exact exec_commitWriteEnd_calm calm alone (State.setWindowDone_current current' enable w) rfl rfl
  · rintro n x rfl
    refine ⟨_, exec_commitWriteEnd_calm calm alone (State.tamperDone_current current' n x) rfl rfl, rfl,
      s.tamper.fresh_changePending n, ?_, fun g hg => ?_, s.tamper.fresh_lines n⟩
    · exact (s.tamper.armed_fresh n _).trans (if_pos rfl)
    · exact (s.tamper.armed_fresh n g).trans (if_neg hg)
  · rintro x rfl
    exact exec_commitWriteEnd_calm calm alone (State.holdupDone_current current' x) rfl rfl
  · rintro mask rs ds rfl
    obtain ⟨t, done, ht⟩ := State.ratchetDone_current current' mask rs ds
    have regions : t.work.regions = addRatchets mask rs s.work.regions := by rw [ht]; rfl
    refine ⟨t, exec_commitWriteEnd_calm calm alone done (by rw [ht]; rfl) (by rw [ht]; rfl), ?_, fun r => ?_⟩
    · rw [regions]
      exact ht
    · rw [regions]
      exact addRatchets_getElem mask rs s.work.regions r

end Sys2Proof.Proofs

end

section
/-! PROOFS. Requests for a setting: for each request, the whole of what it does in its taking event, check by check
(R74, R75, R110, R112, R114, R121, R132, R134, R171). -/

namespace Sys2Proof.Machine

variable {s : State}

/-! ### Fields that spell no value (section 12.1) -/

theorem tableSourceOf_eq_none_iff {b : Byte} : tableSourceOf b = none ↔ b = 0 ∨ 8 < b.toNat := by
  rw [← toNat_eq_zero_iff, tableSourceOf]
  split
  · rename_i known
    simp only [reduceCtorEq, false_iff]
    omega
  · rename_i unknown
    simp only [true_iff]
    omega

theorem lineIxOf_eq_none_iff {b : Byte} : lineIxOf b = none ↔ 3 < b.toNat := by
  unfold lineIxOf
  split <;> simp <;> omega

theorem levelOf_eq_none_iff {b : Byte} : levelOf b = none ↔ 4 < b.toNat := by
  unfold levelOf
  rcases b.toNat with _ | _ | _ | _ | _ | n <;> simp

theorem severityOf_eq_none_iff {b : Byte} : severityOf b = none ↔ 1 < b.toNat := by
  unfold severityOf
  rcases b.toNat with _ | _ | n <;> simp

theorem polarityOf_eq_none_iff {b : Byte} : polarityOf b = none ↔ 2 < b.toNat := by
  unfold polarityOf
  rcases b.toNat with _ | _ | _ | n <;> simp

theorem gateOf_eq_none_iff {b : Byte} : gateOf b = none ↔ 2 < b.toNat := by
  unfold gateOf
  rcases b.toNat with _ | _ | _ | n <;> simp

theorem conversionOf_eq_none_iff {b : Byte} : conversionOf b = none ↔ 3 < b.toNat := by
  unfold conversionOf
  rcases b.toNat with _ | _ | _ | _ | n <;> simp

theorem gateOf_gateByte (g : GateMode) : gateOf (gateByte g) = some g := by cases g <;> rfl

theorem conversionOf_conversionByte (c : ConversionTime) : conversionOf (conversionByte c) = some c := by
  cases c <;> rfl

/-- A field that spells a value spells one. -/
theorem exists_of_not_none {α : Type} {o : Option α} {p : Prop} (h : o = none ↔ p) (hp : ¬ p) : ∃ x, o = some x :=
  Option.ne_none_iff_exists'.mp fun e => hp (h.mp e)

/-! ### The taking event -/

/-- A request that no message of its kind can carry fails check 1 of R174. -/
theorem exec_request_unfit {i : Instr} {k : Byte} (hk : kindCode i = some k) (hf : messageFits i = false)
    (h : s.TakesRequests) : exec i s = .next (s.answered k .badRequest []) := by
  obtain ⟨ready, idle, -⟩ := h
  rw [exec_request_offered hk ready idle, if_neg (by simp [hf])]
  simp [State.takeMessage, State.reply, State.beginRequest, State.answered, State.quiet]

/-- A request that submits its unit while its requester holds none. -/
theorem exec_submits {i : Instr} {t : State} {v : CommitUnit} (run : exec i s = .next (t.submitNow v))
    (ht : t.holds v.requester = s.holds .management) (hold : s.holds .management = false) :
    ∃ u, exec i s = .next u ∧ State.Submitted t u v :=
  ⟨_, run, State.submitNow_submitted (ht.trans hold)⟩

/-- The state that goes to a window unit's submission: the change of the window is pending (R110, R112, R114). -/
def State.windowWorking (s : State) : State :=
  { s.working with window := { s.window with changePending := true } }

section
variable (h : s.TakesAdministrator)
include h

theorem exec_setScrubShare (v : Byte) : exec (.setScrubShare v) s =
    .next (s.working.submitNow (.scrubShare s.nextRequest (min 15 v.toNat))) := by
  refine Eq.trans (exec_request_handed (k := 0x11) rfl rfl h.1 h.2) ?_
  rw [← Nat.zero_max (min 15 v.toNat)]
  rfl

theorem exec_setMediaTimeout (v : Byte) : exec (.setMediaTimeout v) s =
    .next (s.working.submitNow (.mediaTimeout s.nextRequest (max 1 v.toNat))) := by
  refine Eq.trans (exec_request_handed (k := 0x12) rfl rfl h.1 h.2) ?_
  rw [← clamp_toNat_byte]
  rfl

theorem exec_setWindow (e : Byte) (w : BitVec 32) : exec (.setWindow e w) s = .next
    (if s.window.state = .loading ∨ s.window.changePending = true then s.answered 0x13 .busy []
    else if e ≠ 0 ∧ (w = 0 ∨ min 65536 s.geometry.capacity < w.toNat) then s.answered 0x13 .range []
    else s.windowWorking.submitNow (.setWindow s.nextRequest (e != 0) w.toNat)) := by
  refine Eq.trans (exec_request_handed (k := 0x13) rfl rfl h.1 h.2) ?_
  simp only [← State.reply_working, ← toNat_eq_zero_iff w, ← bne_iff_ne]
  rfl

theorem exec_endLoad (l : BitVec 32) : exec (.endLoad l) s = .next
    (if s.window.changePending = true then s.answered 0x15 .busy []
    else if s.window.state ≠ .loading then s.answered 0x15 .badRequest []
    else s.windowWorking.submitNow (.imageLength s.nextRequest (min l.toNat s.work.window.w))) := by
  refine Eq.trans (exec_request_handed (k := 0x15) rfl rfl h.1 h.2) ?_
  simp only [← State.reply_working]
  rfl

theorem exec_setLabel (text : List Byte) : exec (.setLabel text) s = .next
    (if 64 < text.length then s.answered 0x16 .badRequest []
    else if s.window.changePending = true then s.answered 0x16 .busy []
    else s.windowWorking.submitNow (.label s.nextRequest (text ++ List.replicate (64 - text.length) 0))) := by
  by_cases long : 64 < text.length
  · rw [if_pos long]
    exact exec_request_unfit (k := 0x16) rfl (decide_eq_false (Nat.not_le.mpr long)) h.1
  · have fits : messageFits (.setLabel text) = true := decide_eq_true (Nat.not_lt.mp long)
    refine Eq.trans (exec_request_handed (k := 0x16) rfl fits h.1 h.2) ?_
    simp only [← State.reply_working]
    rfl

theorem exec_setDeadline_checks (dp : BitVec 16) (dn q : Byte) : exec (.setDeadline dp dn q) s = .next
    (if 254 < dn.toNat then s.answered 0x0F .range []
    else if s.deadlines.changePending = true then s.answered 0x0F .busy []
    else if (s.work.deviceRatchets.fixedDeadlines && s.work.deadlines.fixedForbids
      (if dp = 0 then 0 else max 30 dp.toNat) dn.toNat (max 5 (min 60 q.toNat))) = true then
      s.answered 0x0F .ratcheted []
    else State.submitNow (.setDeadline s.nextRequest (if dp = 0 then 0 else max 30 dp.toNat) dn.toNat
        (max 5 (min 60 q.toNat)))
      { s.working with deadlines := { s.deadlines with changePending := true } }) := by
  rw [exec_setDeadline h]
  simp only [← State.reply_working, ← clampDp_toNat]
  rfl

theorem exec_setResponse_unknown {src l v : Byte}
    (bad : tableSourceOf src = none ∨ levelOf l = none ∨ severityOf v = none) :
    exec (.setResponse src l v) s = .next (s.answered 0x0B .badRequest []) := by
  rw [exec_setResponse h, setResponseRequest, ← State.reply_working]
  split
  · rename_i hs hl hv
    simp [hs, hl, hv] at bad
  · rfl

theorem exec_setResponse_known {src l v : Byte} {n : SourceIx} {level : Level} {severity : Severity}
    (hs : tableSourceOf src = some n) (hl : levelOf l = some level) (hv : severityOf v = some severity) :
    exec (.setResponse src l v) s = .next
      (if s.response.changePending = true then s.answered 0x0B .busy []
      else if (s.work.deviceRatchets.fixedResponses && (s.entryOf n).fixedForbids level severity) = true then
        s.answered 0x0B .ratcheted []
      else State.submitNow (.setResponse s.nextRequest n ⟨level, severity⟩)
        { s.working with response := { s.response with changePending := true } }) := by
  rw [exec_setResponse h, setResponseRequest, hs, hl, hv]
  simp only [← State.reply_working]
  rfl

theorem exec_setTamper_unknown {line p : Byte} (bad : lineIxOf line = none ∨ polarityOf p = none) (e d : Byte) :
    exec (.setTamper line e p d) s = .next (s.answered 0x0D .badRequest []) := by
  rw [exec_setTamper h, setTamperRequest, ← State.reply_working]
  split
  · rename_i hn hp
    simp [hn, hp] at bad
  · rfl

theorem exec_setTamper_known {line p : Byte} {n : LineIx} {polarity : Polarity} (hn : lineIxOf line = some n)
    (hp : polarityOf p = some polarity) (e d : Byte) : exec (.setTamper line e p d) s = .next
      (if s.tamper.changePending = true then s.answered 0x0D .busy []
      else if (s.work.deviceRatchets.fixedTamper
        && s.work.lines[n].fixedForbids (yes e) polarity (max 2 d.toNat)) = true then s.answered 0x0D .ratcheted []
      else State.submitNow (.setTamper s.nextRequest n (s.newLine n (yes e) polarity (max 2 d.toNat)))
        { s.working with tamper := { s.tamper with changePending := true } }) := by
  rw [exec_setTamper h, setTamperRequest, hn, hp]
  simp only [← State.reply_working, ← clamp_toNat_byte]
  rfl

theorem exec_setHoldup_unknown {g c : Byte} (bad : gateOf g = none ∨ conversionOf c = none) (th : Byte) :
    exec (.setHoldup g th c) s = .next (s.answered 0x10 .badRequest []) := by
  refine Eq.trans (exec_request_handed (k := 0x10) rfl rfl h.1 h.2) ?_
  rw [← State.reply_working]
  show Host.Outcome.next (setHoldupRequest _ _ _ _ _) = _
  rw [setHoldupRequest]
  split
  · rename_i hg hc
    simp [hg, hc] at bad
  · rfl

theorem exec_setHoldup_known {g c : Byte} {gate : GateMode} {time : ConversionTime} (hg : gateOf g = some gate)
    (hc : conversionOf c = some time) (th : Byte) : exec (.setHoldup g th c) s = .next
      (if s.holdup.changePending = true then s.answered 0x10 .busy []
      else State.submitNow (.setHoldup s.nextRequest ⟨gate, max 64 th.toNat, time⟩)
        { s.working with holdup := { s.holdup with changePending := true } }) := by
  refine Eq.trans (exec_request_handed (k := 0x10) rfl rfl h.1 h.2) ?_
  rw [← State.reply_working, ← clamp_toNat_byte]
  show Host.Outcome.next (setHoldupRequest _ _ _ _ _) = _
  rw [setHoldupRequest, hg, hc]
  rfl

end

end Sys2Proof.Machine


namespace Sys2Proof.Proofs

open Sys2Proof Sys2Proof.Machine

/-- Settles O55: each request by the branch of its checks that the premises choose. -/
theorem settingsSubmitted : Obligations.SettingsSubmitted := by
  refine ⟨fun s h hold => ?submitted, fun s h => ?refused⟩
  case submitted =>
    refine ⟨fun v => ?_, fun v => ?_, fun idle => ⟨fun text short => ?_, fun l loading => ?_,
      fun e w settled sized => ?_⟩, fun dp dn q idle range unfixed => ?_,
      fun src l v n level severity idle unfixed hs hn hl hv => ?_, fun line e p d n polarity idle unfixed hn hp => ?_,
      fun g th c gate time idle hg hc => ?_⟩
    · exact exec_submits (exec_setScrubShare h v) rfl hold
    · exact exec_submits (exec_setMediaTimeout h v) rfl hold
    · have run := exec_setLabel h text
      rw [if_neg (Nat.not_lt.mpr short), if_neg (Bool.eq_false_iff.mp idle)] at run
      exact exec_submits run rfl hold
    · have run := exec_endLoad h l
      rw [if_neg (Bool.eq_false_iff.mp idle), if_neg (not_not_intro loading)] at run
      exact exec_submits run rfl hold
    · have run := exec_setWindow h e w
      have free : ¬ (s.window.state = .loading ∨ s.window.changePending = true) :=
        not_or_intro settled (Bool.eq_false_iff.mp idle)
      have fits : ¬ (e ≠ 0 ∧ (w = 0 ∨ min 65536 s.geometry.capacity < w.toNat)) := by
        rw [← toNat_eq_zero_iff w]
        rintro ⟨on, out⟩
        have := sized.resolve_left on
        omega
      rw [if_neg free, if_neg fits] at run
      exact exec_submits run rfl hold
    · have run := exec_setDeadline_checks h dp dn q
      rw [if_neg (Nat.not_lt.mpr range), if_neg (Bool.eq_false_iff.mp idle), unfixed, Bool.false_and,
        if_neg Bool.false_ne_true] at run
      exact exec_submits run rfl hold
    · subst hl hv
      have run := exec_setResponse_known h (tableSourceOf_eq hs hn) (levelOf_levelByte level)
        (severityOf_severityByte severity)
      rw [if_neg (Bool.eq_false_iff.mp idle), unfixed, Bool.false_and, if_neg Bool.false_ne_true] at run
      exact exec_submits run rfl hold
    · subst hp
      have run := exec_setTamper_known h (lineIxOf_eq hn) (polarityOf_polarityByte polarity) e d
      rw [if_neg (Bool.eq_false_iff.mp idle), unfixed, Bool.false_and, if_neg Bool.false_ne_true] at run
      exact exec_submits run rfl hold
    · subst hg hc
      have run := exec_setHoldup_known h (gateOf_gateByte gate) (conversionOf_conversionByte time) th
      rw [if_neg (Bool.eq_false_iff.mp idle)] at run
      exact exec_submits run rfl hold
  case refused =>
    refine ⟨fun e w => ⟨fun busy => ?_, fun settled idle on sized => ?_⟩,
      fun l => ⟨fun busy => ?_, fun idle settled => ?_⟩, fun text => ⟨fun long => ?_, fun short busy => ?_⟩,
      fun line e p d => ⟨fun bad => ?_, fun hn hp busy => ?_⟩, fun dp dn q => ⟨fun range => ?_, fun range busy => ?_⟩,
      fun src l v => ⟨fun bad => ?_, fun hs0 hs hl hv busy => ?_⟩, fun g th c => ⟨fun bad => ?_, fun hg hc busy => ?_⟩⟩
    all_goals show exec _ s = .next (s.answered _ _ [])
    · rw [exec_setWindow h, if_pos busy]
    · rw [exec_setWindow h, if_neg (not_or_intro settled (Bool.eq_false_iff.mp idle)), if_pos ⟨on, sized⟩]
    · rw [exec_endLoad h, if_pos busy]
    · rw [exec_endLoad h, if_neg (Bool.eq_false_iff.mp idle), if_pos settled]
    · rw [exec_setLabel h, if_pos long]
    · rw [exec_setLabel h, if_neg (Nat.not_lt.mpr short), if_pos busy]
    · exact exec_setTamper_unknown h (bad.imp lineIxOf_eq_none_iff.mpr polarityOf_eq_none_iff.mpr) e d
    · obtain ⟨n, line_known⟩ := exists_of_not_none lineIxOf_eq_none_iff (Nat.not_lt.mpr hn)
      obtain ⟨polarity, polarity_known⟩ := exists_of_not_none polarityOf_eq_none_iff (Nat.not_lt.mpr hp)
      rw [exec_setTamper_known h line_known polarity_known, if_pos busy]
    · rw [exec_setDeadline_checks h, if_pos range]
    · rw [exec_setDeadline_checks h, if_neg (Nat.not_lt.mpr range), if_pos busy]
    · rw [← or_assoc, ← tableSourceOf_eq_none_iff, ← levelOf_eq_none_iff, ← severityOf_eq_none_iff] at bad
      exact exec_setResponse_unknown h bad
    · have source : ¬ (src = 0 ∨ 8 < src.toNat) := by
        rw [← toNat_eq_zero_iff src]
        omega
      obtain ⟨n, source_known⟩ := exists_of_not_none tableSourceOf_eq_none_iff source
      obtain ⟨level, level_known⟩ := exists_of_not_none levelOf_eq_none_iff (Nat.not_lt.mpr hl)
      obtain ⟨severity, severity_known⟩ := exists_of_not_none severityOf_eq_none_iff (Nat.not_lt.mpr hv)
      rw [exec_setResponse_known h source_known level_known severity_known, if_pos busy]
    · exact exec_setHoldup_unknown h (bad.imp gateOf_eq_none_iff.mpr conversionOf_eq_none_iff.mpr) th
    · obtain ⟨gate, gate_known⟩ := exists_of_not_none gateOf_eq_none_iff (Nat.not_lt.mpr hg)
      obtain ⟨time, time_known⟩ := exists_of_not_none conversionOf_eq_none_iff (Nat.not_lt.mpr hc)
      rw [exec_setHoldup_known h gate_known time_known, if_pos busy]

end Sys2Proof.Proofs

end

section
/-! PROOFS. The working credential records (R77): which operations leave them as they are, and which take a
stored copy. -/

namespace Sys2Proof.Machine

variable (s : State)

/-! ### Operations that leave the working credential records as they are -/

@[simp] theorem State.destroyKey_workCredentials (r : RegionIx) (p : Party) :
    (s.destroyKey r p).work.credentials = s.work.credentials := by
  unfold State.destroyKey
  dsimp only
  repeat' split
  all_goals simp

@[simp] theorem State.destroyIfDue_workCredentials (r : RegionIx) :
    (s.destroyIfDue r).work.credentials = s.work.credentials :=
  foldl_reads_same (·.work.credentials) (fun b p => by simp) _ s

@[simp] theorem State.destroyAllDue_workCredentials : s.destroyAllDue.work.credentials = s.work.credentials :=
  foldl_reads_same (·.work.credentials) (fun b r => by simp) _ s

@[simp] theorem State.wrapMaterial_workCredentials (r : RegionIx) (g : Nat) (bits : BitVec 512) :
    (s.wrapMaterial r g bits).work.credentials = s.work.credentials := by
  unfold State.wrapMaterial; split <;> simp

@[simp] theorem State.endDraw_workCredentials (bits : BitVec 512) :
    (s.endDraw bits).work.credentials = s.work.credentials := by
  unfold State.endDraw State.takeMaterial State.saltArrives
  repeat' split
  all_goals dsimp only
  all_goals repeat' split
  all_goals simp

@[simp] theorem State.relockIfDue_workCredentials : s.relockIfDue.work.credentials = s.work.credentials := by
  unfold State.relockIfDue
  repeat' split
  all_goals simp [State.relock, State.lockDown]

@[simp] theorem State.startResponse_workCredentials (e : PendingTrigger) :
    (s.startResponse e).work.credentials = s.work.credentials := by
  unfold State.startResponse; dsimp only; split <;> simp

@[simp] theorem State.takeIfFree_workCredentials : s.takeIfFree.work.credentials = s.work.credentials := by
  unfold State.takeIfFree
  repeat' split
  all_goals simp

@[simp] theorem State.escalate_workCredentials (r : RunningResponse) (l : List PendingTrigger) :
    (s.escalate r l).work.credentials = s.work.credentials := by
  simp [State.escalate]

@[simp] theorem State.boundaryStep_workCredentials (n : Nat) :
    (s.boundaryStep n).work.credentials = s.work.credentials := by
  induction n generalizing s with
  | zero => rfl
  | succ n ih =>
    unfold State.boundaryStep
    repeat' split
    all_goals dsimp only
    all_goals repeat' split
    all_goals simp [ih]

@[simp] theorem State.stepBoundary_workCredentials : s.stepBoundary.work.credentials = s.work.credentials :=
  s.boundaryStep_workCredentials 17

@[simp] theorem State.passOver_workCredentials (r : RegionIx) :
    (s.passOver r).work.credentials = s.work.credentials := by
  simp [State.passOver]

@[simp] theorem State.resume_workCredentials (p : InProgress) : (s.resume p).work.credentials = s.work.credentials := by
  unfold State.resume; dsimp only; split <;> simp

@[simp] theorem State.releaseController_workCredentials :
    s.releaseController.work.credentials = s.work.credentials := by
  unfold State.releaseController; dsimp only; split <;> simp

@[simp] theorem State.scrubFault_workCredentials (r : RegionIx) (n : Nat) :
    (s.scrubFault r n).work.credentials = s.work.credentials := rfl

@[simp] theorem State.setCursor_workCredentials (p : Nat) : (s.setCursor p).work.credentials = s.work.credentials := by
  unfold State.setCursor; split <;> rfl

@[simp] theorem State.moveCursor_workCredentials (p : Nat) :
    (s.moveCursor p).work.credentials = s.work.credentials := by
  unfold State.moveCursor; split <;> simp

@[simp] theorem State.chunkEnd_workCredentials (c : Chunk) (status : Status) :
    (s.chunkEnd c status).work.credentials = s.work.credentials := by
  unfold State.chunkEnd
  dsimp only
  repeat' split
  all_goals simp

@[simp] theorem State.release_workCredentials (i : SlotIx) (x : SlotRecord) (status : Status) :
    (s.release i x status).work.credentials = s.work.credentials := by
  unfold State.release; dsimp only; split <;> simp

@[simp] theorem State.expire_workCredentials (i : SlotIx) : (s.expire i).work.credentials = s.work.credentials := by
  unfold State.expire; split <;> simp

@[simp] theorem State.startWalk_workCredentials : s.startWalk.work.credentials = s.work.credentials := by
  unfold State.startWalk
  dsimp only
  repeat' split
  all_goals simp

@[simp] theorem State.startWalkIfDue_workCredentials : s.startWalkIfDue.work.credentials = s.work.credentials := by
  unfold State.startWalkIfDue; split <;> simp

@[simp] theorem State.resumeScrub_workCredentials : s.resumeScrub.work.credentials = s.work.credentials := by
  unfold State.resumeScrub; split <;> simp

@[simp] theorem State.progress_workCredentials : s.progress.work.credentials = s.work.credentials := by
  unfold State.progress; split <;> simp [State.lastSteps]

@[simp] theorem State.settleBlocks_workCredentials : s.settleBlocks.work.credentials = s.work.credentials := by
  simp [State.settleBlocks]

@[simp] theorem State.settle_workCredentials : s.settle.work.credentials = s.work.credentials := by
  simp [State.settle_eq]

@[simp] theorem State.chargeP_workCredentials : s.chargeP.work.credentials = s.work.credentials := by
  unfold State.chargeP; dsimp only; split <;> simp

@[simp] theorem State.chargeNp_workCredentials : s.chargeNp.work.credentials = s.work.credentials := by
  unfold State.chargeNp; dsimp only; split <;> simp

@[simp] theorem State.takeQMark_workCredentials : s.takeQMark.work.credentials = s.work.credentials := by
  unfold State.takeQMark; dsimp only; split <;> simp

@[simp] theorem State.countMinute_workCredentials : s.countMinute.work.credentials = s.work.credentials := by
  unfold State.countMinute; dsimp only; split <;> simp

@[simp] theorem State.countSecond_workCredentials : s.countSecond.work.credentials = s.work.credentials := by
  unfold State.countSecond; split <;> simp

@[simp] theorem State.second_workCredentials : s.second.work.credentials = s.work.credentials := by
  have expired (t : State) (l : List SlotIx) : (t.expireSlots l).work.credentials = t.work.credentials :=
    foldl_reads_same (·.work.credentials) (fun b i => by simp) l t
  simp [State.second, State.tickStamp, expired, State.tickSlots, State.tickBackoffs]

@[simp] theorem State.seeSlow_workCredentials : s.seeSlow.work.credentials = s.work.credentials := by
  unfold State.seeSlow
  repeat' split
  all_goals rfl

@[simp] theorem State.seeNeverStarted_workCredentials : s.seeNeverStarted.work.credentials = s.work.credentials := by
  unfold State.seeNeverStarted
  repeat' split
  all_goals simp

@[simp] theorem State.seeStopped_workCredentials : s.seeStopped.work.credentials = s.work.credentials := by
  unfold State.seeStopped; split <;> simp

@[simp] theorem State.groupEvent_workCredentials (g : Group) (lines : List LineIx) (b : Bool) :
    (s.groupEvent g lines b).work.credentials = s.work.credentials := by
  have latched (t : State) : (lines.foldl State.latch t).work = t.work :=
    foldl_reads_same State.work (fun b n => by simp) _ t
  simp [State.groupEvent, latched]

@[simp] theorem State.eventIfDue_workCredentials (g : Group) :
    (s.eventIfDue g).work.credentials = s.work.credentials := by
  unfold State.eventIfDue; split <;> simp

@[simp] theorem State.rearmIfDue_workCredentials (g : Group) :
    (s.rearmIfDue g).work.credentials = s.work.credentials := by
  unfold State.rearmIfDue; split <;> simp

@[simp] theorem State.sample_workCredentials (levels : BitVec 4) :
    (s.sample levels).work.credentials = s.work.credentials := by
  refine (foldl_reads_same (fun t : State => t.work.credentials) (fun b g => ?_) _ _).trans rfl
  unfold State.evaluate
  split <;> simp

@[simp] theorem State.stepFive_workCredentials (levels : BitVec 4) :
    (s.stepFive levels).work.credentials = s.work.credentials := by
  have sampled : (s.firstSample levels).work.credentials = s.work.credentials := by
    refine (foldl_reads_same (fun t : State => t.work.credentials) (fun b g => ?_) _ _).trans rfl
    unfold State.findOpen
    dsimp only
    repeat' split
    all_goals simp
  simp [State.stepFive, sampled]

@[simp] theorem State.firstSteps_workCredentials :
    s.firstSteps.work.credentials = s.readStore.work.credentials := by
  have started (t : State) : t.startTicks.work.credentials = t.work.credentials := by
    unfold State.startTicks; dsimp only; split <;> simp
  unfold State.firstSteps
  dsimp only
  repeat' split
  all_goals simp [started]

@[simp] theorem State.derivationEnds_workCredentials : s.derivationEnds.work.credentials = s.work.credentials := by
  unfold State.derivationEnds
  dsimp only
  repeat' split
  all_goals simp

@[simp] theorem State.linkResetBlocks_workCredentials :
    ((allRegions.foldl State.zeroAdmitted
      s.emptyPort.abandonChunks).resetChannel.stopDerivation.dropWaitingSalts).work.credentials
      = s.work.credentials := by
  have zeroed (t : State) : (allRegions.foldl State.zeroAdmitted t).work = t.work :=
    foldl_reads_same State.work (fun b r => by simp) _ t
  simp [zeroed]

end Sys2Proof.Machine
end

section
/-! PROOFS. The law of the attempt counters (R91): what a unit writes stays within the limits, every move of the part
keeps the law, and O9 settled. -/

namespace Sys2Proof.Machine

variable {s t u : State}

/-! ### Moves that keep the attempt counters within their limits -/

/-- A move that keeps the law of the attempt counters. -/
structure State.KeepsAttempts (s t : State) : Prop where
  law : s.AttemptLaw → t.AttemptLaw

theorem State.KeepsAttempts.refl (s : State) : s.KeepsAttempts s := ⟨id⟩

theorem State.KeepsAttempts.trans (f : s.KeepsAttempts t) (g : t.KeepsAttempts u) : s.KeepsAttempts u :=
  ⟨g.law ∘ f.law⟩

/-- The last of two moves named first, so that it says where the first one ends. -/
theorem State.KeepsAttempts.after (g : t.KeepsAttempts u) (f : s.KeepsAttempts t) : s.KeepsAttempts u := f.trans g

theorem State.KeepsAttempts.ite {c : Prop} [Decidable c] (ht : c → s.KeepsAttempts t)
    (hu : ¬ c → s.KeepsAttempts u) : s.KeepsAttempts (if c then t else u) := by
  split
  · exact ht ‹_›
  · exact hu ‹_›

/-- Each working credential record stands as it was, or is the stored one. -/
def State.RecordsFrom (s t : State) : Prop :=
  ∀ c : CredIx, t.work.credentials[c] = s.work.credentials[c] ∨ t.work.credentials[c] = s.stored.credentials[c]

theorem State.RecordsFrom.of_eq (h : t.work.credentials = s.work.credentials) : s.RecordsFrom t :=
  fun c => .inl (by rw [h])

/-- One working record takes its stored copy. -/
theorem State.RecordsFrom.of_set {c : CredIx}
    (h : t.work.credentials = s.work.credentials.set c s.stored.credentials[c]) : s.RecordsFrom t := fun k => by
  rw [h, getElem_set_fin]
  split
  · rename_i e; exact .inr (e ▸ rfl)
  · exact .inl rfl

theorem State.RecordsFrom.within (f : s.RecordsFrom t) (hs : s.stored.AttemptsWithin) (hw : s.work.AttemptsWithin) :
    t.work.AttemptsWithin := fun c => by
  rcases f c with e | e
  · rw [e]; exact hw c
  · rw [e]; exact hs c

/-- The store's records and the write under way stand, and working records are taken from the copies at hand. -/
theorem State.KeepsAttempts.of_records (hs : t.stored = s.stored)
    (hw : ∀ image, t.store.writing = some image → s.store.writing = some image) (f : s.RecordsFrom t) :
    s.KeepsAttempts t :=
  ⟨fun ⟨stored, work, write⟩ => ⟨hs ▸ stored, f.within stored work, fun image e => write image (hw image e)⟩⟩

theorem State.Moves.takesRecords (f : s.Moves t) (h : s.RecordsFrom t) : s.KeepsAttempts t :=
  .of_records f.stored (fun image e => (f.writing image e).1) h

theorem State.Moves.attempts (f : s.Moves t) (h : t.work.credentials = s.work.credentials) : s.KeepsAttempts t :=
  f.takesRecords (.of_eq h)

theorem State.Follows.attempts (f : s.Follows t) (h : t.work.credentials = s.work.credentials) : s.KeepsAttempts t :=
  f.toMoves.attempts h

/-- What the law looks at. -/
def State.attemptLook (s : State) : Records × Vector CredentialRecord 8 × Option Records :=
  (s.stored, s.work.credentials, s.store.writing)

theorem State.KeepsAttempts.of_look (h : t.attemptLook = s.attemptLook) : s.KeepsAttempts t := by
  simp only [State.attemptLook, Prod.mk.injEq] at h
  obtain ⟨stored, work, writing⟩ := h
  exact .of_records stored (fun image e => writing ▸ e) (.of_eq work)

theorem State.foldl_keepsAttempts {α : Type} {f : State → α → State}
    (h : ∀ (t : State) (a : α), t.KeepsAttempts (f t a)) (l : List α) (s : State) : s.KeepsAttempts (l.foldl f s) :=
  foldl_relates State.KeepsAttempts State.KeepsAttempts.refl (fun _ _ _ => State.KeepsAttempts.trans) f h l s

theorem State.submit_writing (v : CommitUnit) : (s.submit v).store.writing = s.store.writing := by
  unfold State.submit; split <;> rfl

theorem State.attempts_submit (v : CommitUnit) : s.KeepsAttempts (s.submit v) :=
  .of_look (by simp [State.attemptLook, State.submit_writing])

theorem State.attempts_reply (i : Nat) (k : Byte) (c : ResultCode) (b : List Byte) :
    s.KeepsAttempts (s.reply i k c b) := .of_look (by simp [State.attemptLook])

theorem State.attempts_alert (k : AlertKind) (v : Severity) (c : Option SourceIx)
    (m : Option (BitVec 16)) (x : Option Nat) (n : Nat) : s.KeepsAttempts (s.alert k v c m x n) := .of_look rfl

theorem State.attempts_triggerOrder (l : Level) (m : BitVec 16) : s.KeepsAttempts (s.triggerOrder l m) := .of_look rfl

/-! ### What a unit writes (R83, R91, R93, R97) -/

theorem Records.AttemptsWithin.of_credentials {p q : Records} (h : p.AttemptsWithin)
    (e : q.credentials = p.credentials) : q.AttemptsWithin := fun c => by rw [e]; exact h c

theorem Records.AttemptsWithin.setCredential {p : Records} (h : p.AttemptsWithin) {c : CredIx} {x : CredentialRecord}
    (hx : x.counter ≤ x.limit) : (p.setCredential c x).AttemptsWithin := fun k => by
  have record : (p.setCredential c x).credentials[k] = if k = c then x else p.credentials[k] := getElem_set_fin ..
  rw [record]
  split
  · exact hx
  · exact h k

theorem factoryCredentials_within (p : Records) (h : p.credentials = factoryCredentials) : p.AttemptsWithin := by
  intro c
  rw [h]
  revert c
  decide

/-- A charge stops at the limit, a new limit lowers the counter to it, and every other unit writes a counter of 0 or
records that are within their limits. -/
theorem State.image_attempts (h : s.AttemptLaw) (v : CommitUnit) : (s.image v).AttemptsWithin := by
  obtain ⟨stored, work, -⟩ := h
  cases v with
  | charge p secret => exact stored.setCredential (Nat.min_le_right _ _)
  | refund p => exact (stored.setCredential (c := p.credential) (Nat.zero_le _)).of_credentials rfl
  | secret q v => exact (stored.setCredential (c := q.credential) (Nat.zero_le _)).of_credentials rfl
  | remove id c => exact stored.setCredential (Nat.zero_le _)
  | grant id c r rights => exact stored.setCredential (work c)
  | limit id c l => exact stored.setCredential (Nat.min_le_right _ _)
  | resetAttempts id c => exact stored.setCredential (Nat.zero_le _)
  | regionDefinition d =>
    refine stored.of_credentials ?_
    simp only [State.image]
    split <;> rfl
  | responseBegin | keyDestruction r | responseEnd | finish =>
    refine stored.of_credentials ?_
    simp only [State.image]
    split <;> rfl
  | revert id scrub => exact factoryCredentials_within _ rfl
  | _ => exact stored.of_credentials rfl

theorem State.attempts_startWrite (v : CommitUnit) : s.KeepsAttempts (s.startWrite v) :=
  ⟨fun h => ⟨h.1, h.2.1, fun _ e => Option.some.inj e ▸ State.image_attempts h v⟩⟩

theorem State.attempts_serveStore : s.KeepsAttempts s.serveStore := by
  unfold State.serveStore
  split
  · rename_i v _ _ _
    refine .ite (fun _ => ?_) fun _ => .refl s
    dsimp only
    exact .ite (fun _ => (State.attempts_startWrite v).after (.of_look rfl)) fun _ => .of_look rfl
  · exact .refl s

/-- The end of an event (R102, R136, R150, R155, R169). -/
theorem State.attempts_settle : s.KeepsAttempts s.settle :=
  State.attempts_serveStore.after (State.follows_settleBlocks.attempts (by simp))

theorem State.KeepsAttempts.settle (f : s.KeepsAttempts t) : s.KeepsAttempts t.settle := State.attempts_settle.after f

theorem State.attempts_submitNow (v : CommitUnit) : s.KeepsAttempts (s.submitNow v) :=
  State.attempts_serveStore.after (State.attempts_submit v)

/-! ### Draws, and units that wait inside a requester (R48, R49, R166) -/

theorem State.moves_takeMaterial (r : RegionIx) (g : Nat) (use : DrawUse) (bits : BitVec 512) :
    s.Moves (s.takeMaterial r g use bits) := by
  have wrapped : s.Moves (s.wrapMaterial r g bits) := (State.follows_wrapMaterial r g bits).toMoves
  unfold State.takeMaterial
  split
  · split
    · rename_i e he
      exact wrapped.trans (State.moves_submit fun d hd => by cases hd; exact wrapped.define.trans he)
    · exact .refl s
  · split
    · exact wrapped.trans (State.moves_keyComplete r _)
    · exact .refl s

theorem State.attempts_endDraw (bits : BitVec 512) : s.KeepsAttempts (s.endDraw bits) := by
  unfold State.endDraw
  split
  · exact .refl s
  · rename_i d rest _
    have next : s.KeepsAttempts (State.requestWaiting d.isKey { s with random := { s.random with queue := rest } }) :=
      .of_look (by simp [State.attemptLook])
    cases d with
    | key r g use =>
      refine next.trans ((State.moves_takeMaterial r g use bits).attempts ?_)
      unfold State.takeMaterial
      repeat' split
      all_goals simp
    | salt q => exact next.trans (.ite (fun _ => .of_look rfl) fun _ => .refl _)

theorem State.attempts_submitDeferredUpTo (q : Requester) (n : Nat) (s : State) :
    s.KeepsAttempts (s.submitDeferredUpTo q n) := by
  induction n generalizing s with
  | zero => exact .refl s
  | succ n ih =>
    unfold State.submitDeferredUpTo
    refine .ite (fun _ => .refl s) fun _ => ?_
    split
    · exact .refl s
    · dsimp only
      split
      · exact (ih _).after ((State.attempts_reply _ _ _ _).after (.of_look rfl))
      · exact (State.attempts_submit _).after (.of_look rfl)

theorem State.attempts_submitDeferred (q : Requester) : s.KeepsAttempts (s.submitDeferred q) :=
  State.attempts_submitDeferredUpTo q _ s

/-! ### The answers (R83, R85, R94 to R98, R163, R167, R169) -/

theorem State.chargeDone_workCredentials (p : PresentRequest) (secret : List Byte) :
    (s.chargeDone p secret).work.credentials
      = s.work.credentials.set p.credential s.stored.credentials[p.credential] := by
  unfold State.chargeDone
  dsimp only
  repeat' split
  all_goals simp

theorem State.refundDone_workCredentials (p : PresentRequest) : (s.refundDone p).work.credentials
    = s.work.credentials.set p.credential s.stored.credentials[p.credential] := by
  have opened (b : State) : (b.openRequest p).work = b.work :=
    foldl_reads_same State.work (fun c r => by simp) _ _ |>.trans (foldl_reads_same State.work (fun c r => by simp) _ _)
  have opening (b : State) : (b.opening p).work = b.work := by
    unfold State.opening
    split
    · simp
    · dsimp only; split <;> simp [opened]
  have refunded (b : State) : b.administratorRefund.work = b.work := by
    unfold State.administratorRefund; dsimp only; split <;> simp
  unfold State.refundDone
  dsimp only
  split <;> simp [opening, refunded]

theorem State.revertChargeDone_workCredentials (id : Nat) (scrub : Bool) (code : List Byte) :
    (s.revertChargeDone id scrub code).work.credentials = s.work.credentials := by
  have begun (b : State) : (b.beginRevert id scrub).work = b.work := by
    refine (foldl_reads_same State.work (fun c r => ?_) _ _).trans (by simp)
    split <;> simp
  unfold State.revertChargeDone
  dsimp only
  repeat' split
  all_goals simp [begun]

theorem State.applyScrubEntry_workCredentials (r : RegionIx) :
    (s.applyScrubEntry r).work.credentials = s.work.credentials := by
  unfold State.applyScrubEntry
  dsimp only
  repeat' split
  all_goals simp [State.entryToStart]

theorem State.keyDestructionDone_workCredentials (r : RegionIx) :
    (s.keyDestructionDone r).work.credentials = s.work.credentials := by
  have ended (b : State) (scrub : Bool) : (b.eraseDone r scrub).work.credentials = b.work.credentials := by
    unfold State.eraseDone
    dsimp only
    split <;> simp [State.applyScrubEntry_workCredentials]
  unfold State.keyDestructionDone
  dsimp only
  split <;> simp [ended, State.markErased]

theorem State.responseEndDone_workCredentials : s.responseEndDone.work.credentials = s.work.credentials := by
  unfold State.responseEndDone; dsimp only; split <;> simp

theorem State.finishDone_workCredentials : s.finishDone.work.credentials = s.work.credentials := by
  unfold State.finishDone; split <;> simp

theorem State.submitCountReset_workCredentials : s.submitCountReset.work.credentials = s.work.credentials := by
  unfold State.submitCountReset; split <;> simp

/-- A requester that is answered done takes at most its credential's record, and that from the store. -/
theorem State.unitDone_recordsFrom {v : CommitUnit} (hd : v.defines = false) (hv : ∀ id scrub, v ≠ .revert id scrub) :
    s.RecordsFrom (s.unitDone v) := by
  cases v with
  | charge p secret => exact .of_set (State.chargeDone_workCredentials p secret)
  | refund p => exact .of_set (State.refundDone_workCredentials p)
  | secret q v => exact .of_set (c := q.credential) (by simp [State.unitDone, State.secretDone])
  | remove id c => exact .of_set (c := c) (by simp [State.unitDone, State.removeDone])
  | grant id c r rights => exact .of_set (c := c) (by simp [State.unitDone, State.grantDone])
  | limit id c l => exact .of_set (c := c) (by simp [State.unitDone, State.limitDone])
  | resetAttempts id c => exact .of_set (c := c) (by simp [State.unitDone, State.resetAttemptsDone])
  | regionDefinition d => cases hd
  | revert id scrub => exact absurd rfl (hv id scrub)
  | revertCharge id scrub code => exact .of_eq (State.revertChargeDone_workCredentials id scrub code)
  | keyDestruction r =>
    exact .of_eq ((State.keyDestructionDone_workCredentials r).trans State.submitCountReset_workCredentials)
  | responseEnd => exact .of_eq State.responseEndDone_workCredentials
  | finish => exact .of_eq State.finishDone_workCredentials
  | _ =>
    refine .of_eq ?_
    simp [State.unitDone, State.ratchetDone, State.responseBeginDone, State.checkpointDone,
      State.submitCountReset_workCredentials, State.setResponseDone, State.tamperDone, State.deadlineDone,
      State.holdupDone, State.setWindowDone, State.imageLengthDone, State.labelDone, State.scrubShareDone,
      State.mediaTimeoutDone]

theorem State.afterDisabling_workCredentials (r : RegionIx) :
    (s.afterDisabling r).work.credentials = s.work.credentials := by
  unfold State.afterDisabling
  repeat' split
  all_goals simp

theorem State.endDisabling_workCredentials (r : RegionIx) :
    (s.endDisabling r).work.credentials = s.work.credentials := by
  simp [State.endDisabling]

theorem State.defineDone_workCredentials (d : DefineRequest) :
    (s.defineDone d).work.credentials = s.work.credentials := by
  unfold State.defineDone
  cases d.kind with
  | enabling f => simp [State.rebuildBoundary]
  | change f => dsimp only; split <;> simp [State.rebuildBoundary, State.entryToStart]
  | disabling =>
    simp [State.rebuildBoundary, State.afterDisabling_workCredentials, State.endDisabling_workCredentials]

theorem State.attempts_defineDone (image : Records) (d : DefineRequest) :
    (s.headWritten image).KeepsAttempts ((s.headWritten image).defineDone d) := by
  obtain ⟨x, -, -, f⟩ := s.follows_defineDone image d
  exact (f.attempts (State.defineDone_workCredentials d)).after (.of_look rfl)

/-- Every working record is the stored one (R163). -/
theorem State.attempts_revertDone (hw : s.store.writing = none) (id : Nat) : s.KeepsAttempts (s.revertDone id) := by
  have taken : s.KeepsAttempts s.takeReverted := by
    rw [State.takeReverted_eq]
    exact .of_records rfl (fun _ e => e) fun c => .inr rfl
  have none_written : s.takeReverted.store.writing = none := by rw [State.takeReverted_eq]; exact hw
  have same (b : State) : b.clearReverted.work = b.work := rfl
  have cleared := taken.trans ((State.follows_clearReverted none_written).attempts (by rw [same]))
  unfold State.revertDone
  generalize s.takeReverted.clearReverted = b at cleared
  refine (State.attempts_reply _ _ _ _).after ((State.attempts_alert _ _ _ _ _ _).after ?_)
  refine (State.follows_startWalkIfDue.attempts (by simp)).after (cleared.trans (.of_look ?_))
  unfold State.unloadOldHead
  split <;> simp [State.attemptLook]

theorem State.attempts_unitDone (image : Records) (v : CommitUnit) :
    (s.headWritten image).KeepsAttempts ((s.headWritten image).unitDone v) := by
  by_cases hd : v.defines = false
  · by_cases hv : ∀ id scrub, v ≠ .revert id scrub
    · exact (State.follows_unitDone hd hv).toMoves.takesRecords (State.unitDone_recordsFrom hd hv)
    · push Not at hv
      obtain ⟨id, scrub, rfl⟩ := hv
      exact State.attempts_revertDone rfl id
  · cases v with
    | regionDefinition d => exact State.attempts_defineDone image d
    | _ => exact absurd rfl hd

/-- The store holds what the head wrote, which was within the limits. -/
theorem State.attempts_headWritten {image : Records} (hw : s.store.writing = some image) :
    s.KeepsAttempts (s.headWritten image) := ⟨fun ⟨_, work, write⟩ => ⟨write image hw, work, fun _ e => nomatch e⟩⟩

theorem State.attempts_answerDone {image : Records} (hw : s.store.writing = some image) (v : CommitUnit) :
    s.KeepsAttempts (s.answerDone v image) :=
  State.attempts_settle.after ((State.attempts_submitDeferred _).after
    ((State.attempts_unitDone image v).after (State.attempts_headWritten hw)))

theorem State.attempts_defineUnsafe (d : DefineRequest) : s.KeepsAttempts (s.defineUnsafe d) := by
  have restored : s.KeepsAttempts { s.setKey d.region s.stored.keys[d.region] with define := none } := .of_look rfl
  unfold State.defineUnsafe
  split
  · exact (State.attempts_reply _ _ _ _).after restored
  · exact (State.attempts_reply _ _ _ _).after (.of_look rfl)
  · refine ((State.follows_afterDisabling _).attempts (State.afterDisabling_workCredentials _)).after
      ((State.attempts_reply _ _ _ _).after (restored.trans ?_))
    exact (State.follows_endDisabling _).attempts (State.endDisabling_workCredentials _)

theorem State.unitUnsafe_workCredentials {v : CommitUnit} (hd : v.defines = false) :
    (s.unitUnsafe v).work.credentials = s.work.credentials := by
  have ended (l : List RegionIx) (b : State) :
      (l.foldl (fun c r => c.endRevertErase r) b).work.credentials = b.work.credentials :=
    foldl_reads_same (fun t : State => t.work.credentials) (fun c r => by
      unfold State.endRevertErase; split <;> simp) l b
  cases v with
  | regionDefinition d => cases hd
  | keyDestruction r =>
    simp only [State.unitUnsafe]
    split <;> simp [State.resubmit, State.submitCountReset_workCredentials, apply_ite State.work]
  | revert id scrub => simp [State.unitUnsafe, State.revertUnsafe, ended]
  | _ => simp [State.unitUnsafe, State.resubmit, State.submitCountReset_workCredentials, apply_ite State.work]

theorem State.attempts_unitUnsafe (v : CommitUnit) : s.KeepsAttempts (s.unitUnsafe v) := by
  by_cases hd : v.defines = false
  · exact (State.follows_unitUnsafe hd).attempts (State.unitUnsafe_workCredentials hd)
  · cases v with
    | regionDefinition d => exact State.attempts_defineUnsafe d
    | _ => exact absurd rfl hd

theorem State.attempts_answerUnsafe (v : CommitUnit) : s.KeepsAttempts (s.answerUnsafe v) := by
  refine State.attempts_settle.after ((State.attempts_submitDeferred _).after ((State.attempts_unitUnsafe v).after ?_))
  have popped : s.KeepsAttempts s.popHead := State.follows_popHead.attempts rfl
  exact popped.trans (.of_look rfl)

theorem State.attempts_conversionEnds (code : Nat) : s.KeepsAttempts (s.conversionEnds code) := by
  have passes (b : State) : b.KeepsAttempts b.codePasses := by
    unfold State.codePasses
    dsimp only
    split
    · exact .ite (fun _ => (State.attempts_startWrite _).after (.of_look rfl)) fun _ => .of_look rfl
    · exact .of_look rfl
  have low (b : State) : b.KeepsAttempts (b.codeLow code) := by
    have entered : b.KeepsAttempts (b.enterEpisode code) := .ite (fun _ => .refl b) fun _ => .of_look rfl
    unfold State.codeLow
    dsimp only
    split
    · refine .ite (fun _ => .ite (fun _ => ?_) fun _ => ?_) fun _ => entered
      · exact entered.trans (State.attempts_answerUnsafe _)
      · exact entered.trans (.of_look rfl)
    · exact entered
  have recorded : s.KeepsAttempts (s.recordCode code) := .of_look rfl
  unfold State.conversionEnds
  dsimp only
  exact .ite (fun _ => .ite (fun _ => recorded.trans (passes _)) fun _ => recorded.trans (low _)) fun _ => .refl s

/-! ### Requests (R174) -/

theorem attempts_defineRegionRequest (i : Nat) (region enable : Byte) (start length : BitVec 48)
    (pr pw conceal absorb : Byte) (s : State) :
    s.KeepsAttempts (defineRegionRequest i region enable start length pr pw conceal absorb s) := by
  have replied (c : ResultCode) : s.KeepsAttempts (s.reply i 0x09 c []) := State.attempts_reply _ _ _ _
  have begun (d : DefineRequest) : s.KeepsAttempts { s with define := some d } := .of_look rfl
  have disabled (r : RegionIx) : s.KeepsAttempts (s.beginDisabling i r) :=
    (((State.moves_beginErase r .disabling false).1.attempts (by simp)).after (begun _)).settle
  have enabled (r : RegionIx) (f : RegionFields) : s.KeepsAttempts (s.beginEnabling i r f) :=
    .of_look (by simp [State.beginEnabling, State.attemptLook])
  have changed (r : RegionIx) (f : RegionFields) : s.KeepsAttempts (s.beginChange i r f) :=
    (State.attempts_submitNow _).after (begun _)
  unfold defineRegionRequest
  split
  · exact replied _
  · refine .ite (fun _ => replied _) fun _ => .ite (fun _ => replied _) fun _ => .ite (fun _ => replied _) fun _ =>
      .ite (fun _ => replied _) fun _ => .ite (fun _ => replied _) fun _ => .ite (fun _ => replied _) fun _ =>
      .ite (fun _ => replied _) fun _ => .ite (fun _ => .ite (fun _ => replied _) fun _ => disabled _) fun _ =>
      .ite (fun _ => replied _) fun _ => .ite (fun _ => changed _ _) fun _ => .ite (fun _ => replied _) fun _ =>
      enabled _ _

theorem attempts_eraseOrderRequest (i : Nat) (m : BitVec 16) (l : Byte) (s : State) :
    s.KeepsAttempts (eraseOrderRequest i m l s) := by
  unfold eraseOrderRequest
  refine .ite (fun _ => State.attempts_reply _ _ _ _) fun _ => .ite (fun _ => State.attempts_reply _ _ _ _) fun _ => ?_
  exact ((State.attempts_reply _ _ _ _).after (State.attempts_triggerOrder _ _)).settle

theorem State.attempts_lockMask (k : RightKind) (mask : BitVec 16) : s.KeepsAttempts (s.lockMask k mask) :=
  State.foldl_keepsAttempts (fun c r => .ite (fun _ => .of_look (by simp [State.attemptLook])) fun _ => .refl c) _ s

theorem attempts_lockRequest (i : Nat) (r w : BitVec 16) (f : Byte) (s : State) :
    s.KeepsAttempts (lockRequest i r w f s) := by
  have locked : s.KeepsAttempts ((s.lockMask .read r).lockMask .write w) :=
    (State.attempts_lockMask .read r).trans (State.attempts_lockMask .write w)
  have cleared (b : State) : b.KeepsAttempts b.clearFlags := .of_look rfl
  unfold lockRequest
  dsimp only
  exact (State.attempts_reply _ _ _ _).after (.ite (fun _ => locked.trans (cleared _)) fun _ => locked)

theorem attempts_setSecretRequest (i : Nat) (c cost : Byte) (secret : List Byte) (s : State) :
    s.KeepsAttempts (setSecretRequest i c cost secret s) := by
  unfold setSecretRequest
  repeat' split
  · exact State.attempts_reply _ _ _ _
  · exact State.attempts_reply _ _ _ _
  · exact .of_look (by simp [State.attemptLook])

theorem attempts_beginLoadRequest (i : Nat) (s : State) : s.KeepsAttempts (beginLoadRequest i s) :=
  .ite (fun _ => State.attempts_reply _ _ _ _) fun _ => .ite (fun _ => State.attempts_reply _ _ _ _) fun _ =>
    (State.attempts_reply _ _ _ _).after (.of_look rfl)

theorem attempts_retireWindowRequest (i : Nat) (s : State) : s.KeepsAttempts (retireWindowRequest i s) := by
  refine .ite (fun _ => State.attempts_reply _ _ _ _) fun _ => (State.attempts_reply _ _ _ _).after ?_
  exact .ite (fun _ => .of_look rfl) fun _ => .refl s

/-- Every request keeps the law: beside those above, each is refused with a reply, or marks its block and submits its
unit. -/
theorem attempts_handRequest (id : Nat) (i : Instr) (s : State) : s.KeepsAttempts (handRequest id i s) := by
  cases i with
  | lock r w f => exact attempts_lockRequest id r w f s
  | setSecret c cost secret => exact attempts_setSecretRequest id c cost secret s
  | defineRegion r e st n pr pw cl ab => exact attempts_defineRegionRequest id r e st n pr pw cl ab s
  | eraseOrder m l => exact attempts_eraseOrderRequest id m l s
  | clearTamper m => exact (State.attempts_reply _ _ _ _).after (.of_look rfl)
  | fetchAlerts level => exact (State.attempts_reply _ _ _ _).after (.of_look rfl)
  | beginLoad => exact attempts_beginLoadRequest id s
  | retireWindow => exact attempts_retireWindowRequest id s
  | _ =>
    simp only [handRequest, statusQueryRequest, presentRequest, removeCredentialRequest, grantRequest, setLimitRequest,
      resetAttemptsRequest, ratchetRequest, setResponseRequest, setTamperRequest, setDeadlineRequest, setHoldupRequest,
      setScrubShareRequest, setMediaTimeoutRequest, setWindowRequest, endLoadRequest, setLabelRequest, revertRequest]
    repeat' split
    all_goals first
      | exact State.attempts_reply _ _ _ _
      | exact (State.attempts_submitNow _).after (.of_look rfl)
      | exact .refl s

theorem State.attempts_takeMessage (kind : Byte) (read : Option Instr) (s : State) :
    s.KeepsAttempts (s.takeMessage kind read) := by
  have begun : s.KeepsAttempts s.beginRequest := .of_look rfl
  unfold State.takeMessage
  dsimp only
  repeat' split
  · exact (State.attempts_reply _ _ _ _).after begun
  · exact (State.attempts_reply _ _ _ _).after begun
  · exact (attempts_handRequest _ _ _).after begun

theorem State.attempts_offerRequest (i : Instr) (s : State) : s.KeepsAttempts (s.offerRequest i) :=
  .ite (fun _ => .refl s) fun _ => State.attempts_takeMessage _ _ s

/-- Transfers and their completion leave the records alone. -/
theorem State.admitTransfer_workCredentials (x : Transfer) : (s.admitTransfer x).work = s.work := by
  have raised (b : State) : (x.segments.foldl (fun t g => t.raiseAdmitted g) b).work = b.work :=
    foldl_reads_same State.work (fun c g => by unfold State.raiseAdmitted; split <;> simp) _ b
  have served (b : State) : (x.segments.foldl (State.serveAtAdmission x.tag x.start x.kind) b).work = b.work :=
    foldl_reads_same State.work (fun c g => by rw [State.serveAtAdmission_frame]) _ b
  unfold State.admitTransfer State.enterTransfer
  split <;> simp [raised, served]

theorem State.attempts_takeBlocks (kind : TransferKind) (tag : BitVec 8) (start : BitVec 48) (count : BitVec 17)
    (data : List Block) : s.KeepsAttempts (s.takeBlocks kind tag start count data) := by
  refine (State.follows_takeBlocks kind tag start count data).attempts ?_
  unfold State.takeBlocks
  dsimp only
  repeat' split
  all_goals simp [State.admitTransfer_workCredentials]

theorem State.attempts_takeFlush (tag : BitVec 8) : s.KeepsAttempts (s.takeFlush tag) := by
  refine (State.follows_takeFlush tag).attempts ?_
  unfold State.takeFlush
  split <;> simp [State.admitTransfer_workCredentials]

theorem State.attempts_takeManageSend (tag : BitVec 8) (message : List Byte) :
    s.KeepsAttempts (s.takeManageSend tag message) := by
  unfold State.takeManageSend
  repeat' split
  · exact .of_look rfl
  · exact .of_look rfl
  · exact .of_look rfl
  · exact (State.attempts_takeMessage _ _ _).after (.of_look rfl)

theorem State.attempts_takeRequest (i : Instr) (s : State) : s.KeepsAttempts (s.takeRequest i) := by
  cases i with
  | read tag start count => exact State.attempts_takeBlocks _ _ _ _ _
  | write tag start count data => exact State.attempts_takeBlocks _ _ _ _ _
  | discard tag start count => exact State.attempts_takeBlocks _ _ _ _ _
  | flush tag => exact State.attempts_takeFlush tag
  | manageSend tag message => exact State.attempts_takeManageSend tag message
  | manageFetch tag =>
    refine (State.follows_takeManageFetch tag).attempts ?_
    unfold State.takeManageFetch; split <;> simp
  | requestOfUnknownKind tag => exact .of_look rfl
  | _ => first | exact State.attempts_offerRequest _ s | exact .refl s

theorem State.attempts_request (i : Instr) (s : State) : s.KeepsAttempts (s.request i) :=
  .ite (fun _ => State.attempts_takeRequest i s) fun _ => .of_look rfl

theorem State.attempts_takeOffered : s.KeepsAttempts s.takeOffered := by
  have taken : s.KeepsAttempts { s with offered := [] } := .of_look rfl
  exact .ite (fun _ => taken.trans (State.foldl_keepsAttempts (fun t i => State.attempts_takeRequest i t) _ _))
    fun _ => .refl s

/-! ### The step -/

/-- At the rise of power-good the working records are the stored ones, and nothing is being written (R99). -/
theorem State.attempts_powerOn : s.KeepsAttempts
    (State.atPowerOn s.geometry s.fuses s.stored s.offered s.pending).rebuildBoundary :=
  .of_records rfl (fun _ e => nomatch e) fun _ => .inr rfl

/-- Step 1 takes the stored records as the working ones (R100). -/
theorem State.attempts_firstSteps : s.KeepsAttempts s.firstSteps := by
  have read : s.KeepsAttempts s.readStore := .of_records rfl (fun _ e => nomatch e) fun _ => .inr rfl
  exact read.trans (State.follows_firstSteps.attempts (by simp))

theorem State.attempts_sampleTick (levels : BitVec 4) (s : State) : s.KeepsAttempts (s.sampleTick levels) := by
  have sampled : s.KeepsAttempts (s.sample levels) := (State.follows_sample levels).attempts (by simp)
  unfold State.sampleTick
  split
  · exact .refl s
  · exact State.attempts_takeOffered.after (((State.follows_stepFive levels).attempts (by simp)).settle)
  · exact sampled.settle
  · exact sampled.settle

theorem State.attempts_takeCompletion (operation : BitVec 32) (good : Bool) (s : State) :
    s.KeepsAttempts (s.takeCompletion operation good) := by
  unfold State.takeCompletion
  repeat' split
  · exact .refl s
  · exact .refl s
  · exact ((State.follows_release _ _ _).attempts (by simp)).settle

theorem State.attempts_grantOnce (g : Grant) : s.KeepsAttempts (s.grantOnce g) := .of_look (by simp [State.attemptLook])

theorem State.attempts_passHead (s : State) : s.KeepsAttempts s.passHead := by
  unfold State.passHead
  repeat' split
  · exact State.attempts_startWrite _
  · exact .refl s
  · exact .refl s

theorem State.attempts_writeEnds (s : State) : s.KeepsAttempts s.writeEnds := by
  unfold State.writeEnds
  split
  · rename_i image _ hw
    exact State.attempts_answerDone hw _
  · exact .refl s

/-- Every command keeps the attempt counters within their limits. -/
theorem State.attempts_exec {i : Instr} (he : Machine.exec i s = .next t) : s.KeepsAttempts t := by
  have next {u : State} (hu : Machine.exec i s = .next u) (h : s.KeepsAttempts u) : s.KeepsAttempts t := by
    rw [hu] at he; cases he; exact h
  have quiet : s.KeepsAttempts s.quiet := .of_look rfl
  have guarded {c : Prop} [Decidable c] {u : State} (h : s.quiet.KeepsAttempts u) :
      s.KeepsAttempts (if c then u else s.quiet) := .ite (fun _ => quiet.trans h) fun _ => quiet
  have settled {u : State} (f : s.quiet.Follows u) (h : u.work.credentials = s.work.credentials) :
      s.quiet.KeepsAttempts u.settle := (f.attempts h).settle
  cases i with
  | powerGoodRise => exact next rfl State.attempts_powerOn
  | powerGoodFall => exact next rfl (.of_look rfl)
  | storeReadEnd => exact next rfl (guarded State.attempts_firstSteps.settle)
  | linkReset => exact next rfl (quiet.trans (settled State.follows_linkReset_blocks
      (State.linkResetBlocks_workCredentials s.quiet)))
  | mediaData operation offset block =>
    exact next rfl (guarded (.of_look (by simp [State.attemptLook])))
  | mediaCompletion operation good => exact next rfl (guarded (State.attempts_takeCompletion _ _ _))
  | mediaTimeout slot => exact next rfl (guarded (settled (State.follows_expire slot) (by simp)))
  | segmentIssue =>
    refine next rfl (quiet.trans ?_)
    split
    · exact State.attempts_grantOnce _
    all_goals exact .refl _
  | chunkIssue =>
    refine next rfl (quiet.trans ?_)
    split
    · exact State.attempts_grantOnce _
    · exact State.attempts_grantOnce _
    all_goals exact .refl _
  | secondTick => exact next rfl (guarded (settled State.follows_second (by simp)))
  | minuteCounted => exact next rfl (guarded (settled State.follows_countMinute (by simp)))
  | qMark => exact next rfl (guarded (settled State.follows_takeQMark (by simp)))
  | backoffEnd credential => exact next rfl (guarded (.of_look rfl))
  | revertBackoffEnd => exact next rfl (guarded (.of_look rfl))
  | sampleTick levels => exact next rfl (quiet.trans (State.attempts_sampleTick levels _))
  | tamperEvent group => exact next rfl (quiet.trans (settled (State.follows_eventIfDue group) (by simp)))
  | groupRearm group => exact next rfl (quiet.trans ((State.follows_rearmIfDue group).attempts (by simp)))
  | slowSourceRunning => exact next rfl (quiet.trans (State.follows_seeSlow.attempts (by simp)))
  | timeFaultNeverStarted => exact next rfl (quiet.trans (settled State.follows_seeNeverStarted (by simp)))
  | timeFaultStopped => exact next rfl (quiet.trans (settled State.follows_seeStopped (by simp)))
  | randomSourceReady => exact next rfl (quiet.trans (.of_look rfl))
  | randomDrawEnd bits =>
    exact next rfl (guarded (State.attempts_takeOffered.after (State.attempts_endDraw bits).settle))
  | derivationEnd => exact next rfl (quiet.trans (settled State.follows_derivationEnds (by simp)))
  | conversionEnd nanovolts => exact next rfl (quiet.trans (State.attempts_conversionEnds _))
  | commitWriteStart => exact next rfl (quiet.trans (State.attempts_passHead _))
  | commitWriteEnd => exact next rfl (quiet.trans (State.attempts_writeEnds _))
  | deferredUnitSubmit requester => exact next rfl (quiet.trans (State.attempts_submitDeferred requester).settle)
  | keyDestruction region => exact next rfl (quiet.trans (settled (State.follows_destroyIfDue region) (by simp)))
  | responseTake => exact next rfl (quiet.trans (settled State.follows_takeIfFree (by simp)))
  | scrubWalkStart => exact next rfl (quiet.trans (settled State.follows_startWalkIfDue (by simp)))
  | _ => exact next rfl (quiet.trans (State.attempts_request _ _))

end Sys2Proof.Machine

namespace Sys2Proof.Proofs

open Sys2Proof Sys2Proof.Machine

/-- Settles O9: what is written stays within the limits, and a working record is taken from the store alone. -/
theorem attemptLawKept : Obligations.AttemptLawKept := by
  intro s t h hs
  cases hp : s.pending with
  | nil =>
    rw [step, hp] at hs
    cases hs
    exact h
  | cons c rest =>
    rw [step, hp] at hs
    have removed : s.KeepsAttempts { s with pending := rest } := .of_look rfl
    exact (State.attempts_exec hs).law (removed.law h)

end Sys2Proof.Proofs
end

section
/-! PROOFS. PRESENT, the credential requests and REVERT: for each request, the whole of what it does in its taking
event, check by check (R82, R83, R93, R95 to R98, R162). -/

namespace Sys2Proof.Machine

variable {s : State}

/-! ### Fields of a credential request (section 12.1) -/

theorem credIxOf_ofNat (c : CredIx) : credIxOf (BitVec.ofNat 8 c.val) = some c := by revert c; decide

theorem credIxOf_none {b : Byte} (h : 7 < b.toNat) : credIxOf b = none := dif_neg (by omega)

theorem grantOf_grantByte (g : GrantRights) : grantOf (grantByte g) = some g := by cases g <;> rfl

theorem grantOf_eq_none_iff {b : Byte} : grantOf b = none ↔ 3 < b.toNat := by
  unfold grantOf
  rcases b.toNat with _ | _ | _ | _ | n <;> simp

theorem le_two (x : Nat) : le 2 x = [BitVec.ofNat 8 x, BitVec.ofNat 8 (x / 256)] := rfl

/-- A request that submits a unit while the unit's requester holds none. -/
theorem exec_enters {i : Instr} {t : State} {v : CommitUnit} (run : exec i s = .next (t.submitNow v))
    (hold : t.holds v.requester = false) : ∃ u, exec i s = .next u ∧ State.Submitted t u v :=
  ⟨_, run, State.submitNow_submitted hold⟩

/-- A unit submitted while its requester holds one waits, and a still store stays as it is. -/
theorem State.submitNow_held {v : CommitUnit} (hold : s.holds v.requester = true) (still : s.StoreStill) :
    s.submitNow v = { s with store := { s.store with deferred := s.store.deferred ++ [v] } } := by
  rw [State.submitNow, State.submit_held hold]
  exact State.serveStore_of_still still

/-! ### PRESENT (R82, R83) -/

theorem presentRequest_of_known {c : CredIx} {b : Byte} (known : credIxOf b = some c) {secret : List Byte}
    (short : secret.length ≤ 64) (id : Nat) (rm wm : BitVec 16) (o : Byte) (s : State) :
    presentRequest id b rm wm o secret s =
      if secret = [] then s.reply id 0x02 .badRequest []
      else if s.work.credentials[c].secret = none then s.reply id 0x02 .notFound []
      else if s.work.mode = .lockdown ∧ c ≠ 0 then s.reply id 0x02 .lockdown []
      else if s.work.credentials[c].counter = s.work.credentials[c].limit then s.reply id 0x02 .exhausted [0]
      else if 0 < s.credentials[c].backoff then s.reply id 0x02 .backingOff (le 2 s.credentials[c].backoff)
      else s.submitNow (.charge ⟨id, c, rm, wm, o.getLsbD 0⟩ secret) := by
  have sized : (secret.length = 0 ∨ 64 < secret.length) ↔ secret = [] := by
    rw [List.length_eq_zero_iff, or_iff_left (Nat.not_lt.mpr short)]
  rw [presentRequest, known]
  simp only [sized, State.presentBlocked, Option.isNone_iff_eq_none]
  refine if_congr Iff.rfl rfl (if_congr Iff.rfl rfl (if_congr Iff.rfl rfl ?_))
  by_cases spent : s.work.credentials[c].counter = s.work.credentials[c].limit
  · rw [if_pos spent, if_pos spent]
    rfl
  · rw [if_neg spent, if_neg spent]
    by_cases waits : 0 < s.credentials[c].backoff
    · rw [if_pos waits, if_pos waits]
    · rw [if_neg waits, if_neg waits]

theorem exec_present (h : s.TakesRequests) {c : CredIx} {b : Byte} (known : credIxOf b = some c) {secret : List Byte}
    (short : secret.length ≤ 64) (rm wm : BitVec 16) (o : Byte) : exec (.present b rm wm o secret) s = .next
      (if secret = [] then s.answered 0x02 .badRequest []
      else if s.work.credentials[c].secret = none then s.answered 0x02 .notFound []
      else if s.work.mode = .lockdown ∧ c ≠ 0 then s.answered 0x02 .lockdown []
      else if s.work.credentials[c].counter = s.work.credentials[c].limit then s.answered 0x02 .exhausted [0]
      else if 0 < s.credentials[c].backoff then s.answered 0x02 .backingOff (le 2 s.credentials[c].backoff)
      else s.working.submitNow (.charge ⟨s.nextRequest, c, rm, wm, o.getLsbD 0⟩ secret)) := by
  have fits : messageFits (.present b rm wm o secret) = true := decide_eq_true short
  refine Eq.trans (exec_request_handed (k := 0x02) rfl fits h rfl) (congrArg _ ?_)
  simp only [← State.reply_working]
  exact presentRequest_of_known known short _ rm wm o s.working

/-- An index above 7 and a secret above 64 bytes fail the first check. -/
theorem exec_present_bad (h : s.TakesRequests) {b : Byte} {secret : List Byte} (bad : 7 < b.toNat ∨ 64 < secret.length)
    (rm wm : BitVec 16) (o : Byte) :
    exec (.present b rm wm o secret) s = .next (s.answered 0x02 .badRequest []) := by
  by_cases long : 64 < secret.length
  · exact exec_request_unfit (k := 0x02) rfl (decide_eq_false (Nat.not_le.mpr long)) h
  · have fits : messageFits (.present b rm wm o secret) = true := decide_eq_true (Nat.not_lt.mp long)
    refine Eq.trans (exec_request_handed (k := 0x02) rfl fits h rfl) (congrArg _ ?_)
    show presentRequest _ _ _ _ _ _ _ = _
    rw [presentRequest, credIxOf_none (bad.resolve_right long), State.reply_working]

/-! ### SET-SECRET and REVERT (R93, R162) -/

theorem exec_setSecret (h : s.TakesRequests) (c : CredIx)
    (allowed : s.administrator = true ∨ s.credentials[c].presented = true) (cost : Byte) {secret : List Byte}
    (short : secret.length ≤ 64) : exec (.setSecret (BitVec.ofNat 8 c.val) cost secret) s = .next
      (if secret = [] then s.answered 0x04 .badRequest []
      else s.working.requestDraw (.salt ⟨s.nextRequest, c, secret, max 4 (min 12 cost.toNat),
        c == 0 && s.work.mode == .factory⟩)) := by
  have authority : s.authority (.setSecret (BitVec.ofNat 8 c.val) cost secret) = true := by
    show (s.targetPresented _ || s.administrator) = true
    rw [State.targetPresented, credIxOf_ofNat]
    exact Bool.or_eq_true_iff.mpr allowed.symm
  have fits : messageFits (.setSecret (BitVec.ofNat 8 c.val) cost secret) = true := decide_eq_true short
  have sized : (secret.length = 0 ∨ 64 < secret.length) ↔ secret = [] := by
    rw [List.length_eq_zero_iff, or_iff_left (Nat.not_lt.mpr short)]
  refine Eq.trans (exec_request_handed (k := 0x04) rfl fits h authority) (congrArg _ ?_)
  show setSecretRequest _ _ _ _ _ = _
  rw [setSecretRequest, credIxOf_ofNat]
  simp only [sized, ← State.reply_working]
  rfl

theorem exec_revert (h : s.TakesRequests) (scrub : Byte) {code : List Byte} (short : code.length ≤ 32) :
    exec (.revert scrub code) s = .next
      (if code.length ≠ 32 then s.answered 0x19 .badRequest []
      else if s.define.isSome then s.answered 0x19 .busy []
      else if s.response.running.isSome then s.answered 0x19 .responseActive []
      else if 0 < s.revertBackoff then s.answered 0x19 .backingOff (le 2 s.revertBackoff)
      else s.working.submitNow (.revertCharge s.nextRequest (scrub != 0) code)) := by
  have fits : messageFits (.revert scrub code) = true := decide_eq_true short
  refine Eq.trans (exec_request_handed (k := 0x19) rfl fits h rfl) (congrArg _ ?_)
  simp only [← State.reply_working]
  rfl

/-! ### Managing credentials (R95 to R98) -/

section
variable (h : s.TakesAdministrator)
include h

theorem exec_setSecret_unknown {b : Byte} (bad : 7 < b.toNat) (cost : Byte) (secret : List Byte) :
    exec (.setSecret b cost secret) s = .next (s.answered 0x04 .badRequest []) := by
  obtain ⟨taken, administrator⟩ := h
  by_cases long : 64 < secret.length
  · exact exec_request_unfit (k := 0x04) rfl (decide_eq_false (Nat.not_le.mpr long)) taken
  · have fits : messageFits (.setSecret b cost secret) = true := decide_eq_true (Nat.not_lt.mp long)
    have authority : s.authority (.setSecret b cost secret) = true := Bool.or_eq_true_iff.mpr (.inr administrator)
    refine Eq.trans (exec_request_handed (k := 0x04) rfl fits taken authority) (congrArg _ ?_)
    show setSecretRequest _ _ _ _ _ = _
    rw [setSecretRequest, credIxOf_none bad, State.reply_working]

theorem exec_removeCredential (b : Byte) : exec (.removeCredential b) s =
    .next (removeCredentialRequest s.nextRequest b s.working) :=
  exec_request_handed (k := 0x05) rfl rfl h.1 h.2

theorem exec_grant (b x y : Byte) : exec (.grant b x y) s = .next (grantRequest s.nextRequest b x y s.working) :=
  exec_request_handed (k := 0x06) rfl rfl h.1 h.2

theorem exec_setLimit (b l : Byte) : exec (.setLimit b l) s = .next (setLimitRequest s.nextRequest b l s.working) :=
  exec_request_handed (k := 0x07) rfl rfl h.1 h.2

theorem exec_resetAttempts (b : Byte) : exec (.resetAttempts b) s =
    .next (resetAttemptsRequest s.nextRequest b s.working) :=
  exec_request_handed (k := 0x08) rfl rfl h.1 h.2

theorem exec_removeCredential_unknown {b : Byte} (bad : 7 < b.toNat) :
    exec (.removeCredential b) s = .next (s.answered 0x05 .badRequest []) := by
  rw [exec_removeCredential h, removeCredentialRequest, credIxOf_none bad, State.reply_working]

theorem exec_removeCredential_known (c : CredIx) : exec (.removeCredential (BitVec.ofNat 8 c.val)) s = .next
    (if c = 0 then s.answered 0x05 .badRequest []
    else if s.work.credentials[c].secret.isNone then s.answered 0x05 .notFound []
    else if s.work.credentials[c].grants.any fun g => s.work.regions[g.region].ratchets.fixedGrants then
      s.answered 0x05 .ratcheted []
    else s.working.submitNow (.remove s.nextRequest c)) := by
  rw [exec_removeCredential h, removeCredentialRequest, credIxOf_ofNat]
  simp only [← State.reply_working]
  rfl

theorem exec_grant_unknown {b x y : Byte} (bad : 7 < b.toNat ∨ 15 < x.toNat ∨ 3 < y.toNat) :
    exec (.grant b x y) s = .next (s.answered 0x06 .badRequest []) := by
  rw [exec_grant h, grantRequest, ← State.reply_working]
  split
  · rename_i hc hr hg
    rcases bad with e | e | e
    · rw [credIxOf_none e] at hc; cases hc
    · rw [regionIxOf_none e] at hr; cases hr
    · rw [grantOf_eq_none_iff.mpr e] at hg; cases hg
  · rfl

theorem exec_grant_known (c : CredIx) (r : RegionIx) (g : GrantRights) :
    exec (.grant (BitVec.ofNat 8 c.val) (BitVec.ofNat 8 r.val) (grantByte g)) s = .next
      (if c = 0 then s.answered 0x06 .badRequest []
      else if s.work.credentials[c].secret.isNone ∨ (g ≠ .none ∧ s.work.regions[r].enabled = false) then
        s.answered 0x06 .notFound []
      else if s.work.regions[r].ratchets.fixedGrants = true ∧ g ≠ grantFor r s.work.credentials[c].grants then
        s.answered 0x06 .ratcheted []
      else if g = grantFor r s.work.credentials[c].grants then
        s.answered 0x06 .done (grantBytes s.work.credentials[c].grants)
      else s.working.submitNow (.grant s.nextRequest c r g)) := by
  rw [exec_grant h, grantRequest, credIxOf_ofNat, regionIxOf_ofNat, grantOf_grantByte]
  simp only [← State.reply_working]
  rfl

/-- Credential 0 holds no grants. -/
theorem exec_grant_administrator (x y : Byte) : exec (.grant 0 x y) s = .next (s.answered 0x06 .badRequest []) := by
  rw [exec_grant h, grantRequest, ← State.reply_working]
  split
  · rename_i c r g hc _ _
    have first : c = 0 := Option.some.inj (hc.symm.trans (credIxOf_ofNat 0))
    rw [if_pos first]
  · rfl

theorem exec_setLimit_known (c : CredIx) (l : Byte) : exec (.setLimit (BitVec.ofNat 8 c.val) l) s = .next
    (if s.work.credentials[c].secret.isNone then s.answered 0x07 .notFound []
    else s.working.submitNow (.limit s.nextRequest c (max 1 (min 99 l.toNat)))) := by
  rw [exec_setLimit h, setLimitRequest, credIxOf_ofNat]
  simp only [← State.reply_working]
  rfl

theorem exec_setLimit_unknown {b : Byte} (bad : 7 < b.toNat) (l : Byte) :
    exec (.setLimit b l) s = .next (s.answered 0x07 .badRequest []) := by
  rw [exec_setLimit h, setLimitRequest, credIxOf_none bad, State.reply_working]

theorem exec_resetAttempts_known (c : CredIx) : exec (.resetAttempts (BitVec.ofNat 8 c.val)) s = .next
    (if s.work.credentials[c].secret.isNone then s.answered 0x08 .notFound []
    else s.working.submitNow (.resetAttempts s.nextRequest c)) := by
  rw [exec_resetAttempts h, resetAttemptsRequest, credIxOf_ofNat]
  simp only [← State.reply_working]
  rfl

theorem exec_resetAttempts_unknown {b : Byte} (bad : 7 < b.toNat) :
    exec (.resetAttempts b) s = .next (s.answered 0x08 .badRequest []) := by
  rw [exec_resetAttempts h, resetAttemptsRequest, credIxOf_none bad, State.reply_working]

end

end Sys2Proof.Machine

namespace Sys2Proof.Proofs

open Sys2Proof Sys2Proof.Machine

/-- Settles O57: the premises choose one branch of the checks of R82. -/
theorem presentCheckedThenCharged : Obligations.PresentCheckedThenCharged := by
  refine ⟨fun s b o rm wm secret h bad => exec_present_bad h bad rm wm o, fun s c rm wm o secret h short => ?_⟩
  have run := exec_present h (credIxOf_ofNat c) short rm wm o
  refine ⟨fun empty => ?_, fun sized => ⟨fun absent => ?_, fun present => ⟨fun down other => ?_, fun up => ?_⟩⟩⟩
  · rw [run, if_pos empty]
  · rw [run, if_neg sized, if_pos absent]
  all_goals rw [if_neg sized, if_neg (Option.isSome_iff_ne_none.mp present)] at run
  · rw [run, if_pos ⟨down, other⟩]
  · rw [if_neg (fun both => up.elim (· both.1) both.2)] at run
    refine ⟨fun spent => ?_, fun left waits => ?_, fun left calm hold => ?_, fun left calm hold still => ?_⟩
    · rw [run, if_pos spent]
    · rw [run, if_neg left, if_pos waits, le_two]
    all_goals rw [if_neg left, if_neg (Nat.not_lt.mpr calm.le)] at run
    · exact exec_enters run hold
    · exact run.trans (congrArg _ (State.submitNow_held (s := s.working) hold still))

/-- Settles O58: the premises choose one branch of the checks of each request. -/
theorem credentialRequestsBegin : Obligations.CredentialRequestsBegin := by
  refine ⟨fun s c cost secret h allowed => ?setSecret, fun s scrub code h => ?revert,
    fun s b x y secret h bad => ?unknown, fun s c h => ⟨fun absent l r g => ?absent, fun present => ?known⟩⟩
  case setSecret =>
    refine ⟨fun sized => ?_, fun sized short idle => ?_⟩
    · rcases sized with rfl | long
      · rw [exec_setSecret h c allowed cost (Nat.zero_le _), if_pos rfl]
      · exact exec_request_unfit (k := 0x04) rfl (decide_eq_false (Nat.not_le.mpr long)) h
    · rw [exec_setSecret h c allowed cost short, if_neg sized]
      exact congrArg _ (State.requestDraw_idle _ idle)
  case revert =>
    refine ⟨fun sized => ?_, fun sized => ?_⟩
    · by_cases long : 32 < code.length
      · exact exec_request_unfit (k := 0x19) rfl (decide_eq_false (Nat.not_le.mpr long)) h
      · rw [exec_revert h scrub (Nat.not_lt.mp long), if_pos sized]
    · have run := exec_revert h scrub sized.le
      rw [if_neg (not_not_intro sized)] at run
      refine ⟨fun busy => ?_, fun free active => ?_, fun free quiet => ⟨fun waits => ?_, fun calm hold => ?_⟩⟩
      · rw [run, if_pos (Option.isSome_iff_ne_none.mpr busy)]
      all_goals rw [if_neg (by simp [free])] at run
      · rw [run, if_pos (Option.isSome_iff_ne_none.mpr active)]
      all_goals rw [if_neg (by simp [quiet])] at run
      · rw [run, if_pos waits, le_two]
      · rw [if_neg (Nat.not_lt.mpr calm.le)] at run
        exact exec_enters run hold
  case unknown =>
    exact ⟨exec_setSecret_unknown h bad x secret, exec_removeCredential_unknown h bad,
      (exec_removeCredential_known h 0).trans (by rw [if_pos rfl]), exec_grant_unknown h (.inl bad),
      exec_grant_administrator h x y, fun out _ => exec_grant_unknown h (.inr out), exec_setLimit_unknown h bad x,
      exec_resetAttempts_unknown h bad⟩
  case absent =>
    have none_held : s.work.credentials[c].secret.isNone = true := Option.isNone_iff_eq_none.mpr absent
    refine ⟨?_, ?_, fun other => ⟨?_, ?_⟩⟩
    · rw [exec_setLimit_known h, if_pos none_held]
    · rw [exec_resetAttempts_known h, if_pos none_held]
    · rw [exec_removeCredential_known h, if_neg other, if_pos none_held]
    · rw [exec_grant_known h, if_neg other, if_pos (.inl none_held)]
  case known =>
    have held : ¬ s.work.credentials[c].secret.isNone = true := by simpa [Option.isSome_iff_ne_none] using present
    refine ⟨fun hold => ⟨fun l => ?_, ?_⟩, fun other => ⟨fun fixed => ?_, fun unfixed hold => ?_, fun r g => ?_⟩⟩
    · have run := exec_setLimit_known h c l
      rw [if_neg held] at run
      exact exec_enters run hold
    · have run := exec_resetAttempts_known h c
      rw [if_neg held] at run
      exact exec_enters run hold
    · rw [exec_removeCredential_known h, if_neg other, if_neg held, if_pos (by simpa using fixed)]
    · have run := exec_removeCredential_known h c
      rw [if_neg other, if_neg held, if_neg (by simpa using unfixed)] at run
      exact exec_enters run hold
    · have run := exec_grant_known h c r g
      rw [if_neg other] at run
      refine ⟨fun some_right disabled => ?_, fun fits => ?_⟩
      · rw [run, if_pos (.inr ⟨some_right, disabled⟩)]
      · have listed :
            ¬ (s.work.credentials[c].secret.isNone = true ∨ g ≠ .none ∧ s.work.regions[r].enabled = false) := by
          rintro (e | ⟨some_right, disabled⟩)
          · exact held e
          · exact fits.elim some_right (Bool.eq_false_iff.mp disabled)
        rw [if_neg listed] at run
        refine ⟨fun new fixed => ?_, fun same => ?_, fun new unfixed hold => ?_⟩
        · rw [run, if_pos ⟨fixed, new⟩]
        · rw [run, if_neg (fun both => same both.2), if_pos (not_not.mp same)]
          rfl
        · rw [if_neg (fun both => Bool.eq_false_iff.mp unfixed both.1), if_neg new] at run
          exact exec_enters run hold

end Sys2Proof.Proofs
end

section
/-! PROOFS. The end of a derivation: a PRESENT's digest compared with the verifier, and a new secret's handed to its
unit (R81, R84, R85, R92, R93). -/

namespace Sys2Proof.Machine

variable {s : State} {d : Derivation} {p : PresentRequest} {a : Nat} {v : Verifier}

/-! ### A presentation that fails (R84, R87, R92) -/

/-- A presentation has failed with charged counter a: the back-off is set, and at the limit the trigger is raised. -/
def State.presentFailed (c : CredIx) (a : Nat) (s : State) : State :=
  { s with credentials := s.backoffsAfter c a, response := s.triggersAfter c a, alerts := s.alertsAfter c a }

theorem State.presentFails_eq (p : PresentRequest) (a : Nat) : s.presentFails p a =
    (s.presentFailed p.credential a).reply p.id 0x02 .badSecret
      (le 1 (s.work.credentials[p.credential].limit - a)) := by
  unfold State.presentFails State.presentFailed State.triggersAfter State.alertsAfter
  dsimp only
  split <;> rfl

theorem State.presentFailed_below {c : CredIx} (below : a ≠ s.work.credentials[c].limit) :
    s.presentFailed c a = { s with credentials := s.backoffsAfter c a } := by
  rw [State.presentFailed, State.triggersAfter, State.alertsAfter, if_neg below, if_neg below]

theorem State.presentFailed_limit {c : CredIx} (limit : a = s.work.credentials[c].limit) :
    s.presentFailed c a = { s with
      credentials := s.backoffsAfter c a
      response := (s.trigger (attemptsSource c)).response
      alerts := (s.attemptsTrigger c).alerts } := by
  rw [State.presentFailed, State.triggersAfter, State.alertsAfter, if_pos limit, if_pos limit]

/-- The trigger of a failed presentation waits for a controller that is not free (R136). -/
theorem State.still_presentFailed (h : s.Still) (c : CredIx)
    (unmet : a = s.work.credentials[c].limit → s.responseFree = false) : (s.presentFailed c a).Still := by
  obtain ⟨running, released⟩ := s.triggersAfter_controller c a
  have free : (s.presentFailed c a).responseFree = s.responseFree := by
    unfold State.responseFree
    rw [show (s.presentFailed c a).response = s.triggersAfter c a from rfl, running, released]
    rfl
  have waits : (s.presentFailed c a).ResponseStill := by
    by_cases limit : a = s.work.credentials[c].limit
    · exact State.responseStill_of_busy (free.trans (unmet limit))
    · refine State.responseStill_congr h.1 running released ?_ rfl
      rw [show (s.presentFailed c a).response = s.triggersAfter c a from rfl, State.triggersAfter, if_neg limit]
  exact State.still_congr h waits (fun _ => rfl) (fun _ => rfl) rfl rfl rfl rfl rfl rfl rfl rfl h.2.2.2.2.2

/-! ### The end of a derivation -/

/-- The part without the derivation that has ended. -/
def State.derived (s : State) : State := { s with sent := [], derivation := none }

theorem State.still_derived (h : s.Still) : s.derived.Still := h

theorem State.derivationEnds_match (hd : s.derivation = some d) (hu : d.use = .present p a)
    (hv : s.work.credentials[p.credential].secret = some v) (same : Config.derive d.salt d.cost d.secret = v.digest) :
    s.quiet.derivationEnds = s.derived.submit (.refund p) := by
  unfold State.derivationEnds
  simp only [State.quiet, hd, hu, hv, if_pos same]
  rfl

theorem State.derivationEnds_mismatch (hd : s.derivation = some d) (hu : d.use = .present p a)
    (hv : s.work.credentials[p.credential].secret = some v) (other : Config.derive d.salt d.cost d.secret ≠ v.digest) :
    s.quiet.derivationEnds = s.derived.presentFails p a := by
  unfold State.derivationEnds
  simp only [State.quiet, hd, hu, hv, if_neg other]
  rfl

theorem State.derivationEnds_secret {q : SecretRequest} (hd : s.derivation = some d) (hu : d.use = .secret q) :
    s.quiet.derivationEnds = s.derived.submit (.secret { q with secret := [] }
      ⟨d.salt, Config.derive d.salt d.cost d.secret, d.cost⟩) := by
  unfold State.derivationEnds
  simp only [State.quiet, hd, hu]
  rfl

/-- A derivation whose end submits a unit. -/
theorem exec_derivationEnd_submits {u : CommitUnit} (h : s.Still) (ends : s.quiet.derivationEnds = s.derived.submit u)
    (hold : s.holds u.requester = false) :
    ∃ t, exec .derivationEnd s = .next t ∧ State.Submitted s.derived t u := by
  refine exec_enters (Eq.trans (show _ = Host.Outcome.next s.quiet.derivationEnds.settle from rfl) ?_) hold
  rw [ends, State.settle_submit (State.still_derived h)]

/-- A derivation whose digest is not the verifier's. -/
theorem exec_derivationEnd_fails (h : s.Still) (hd : s.derivation = some d) (hu : d.use = .present p a)
    (hv : s.work.credentials[p.credential].secret = some v) (other : Config.derive d.salt d.cost d.secret ≠ v.digest)
    (unmet : a = s.work.credentials[p.credential].limit → s.responseFree = false)
    (current : s.management.current = some p.id) :
    exec .derivationEnd s = .next { s.derived.presentFailed p.credential a with
      management := s.replied 0x02 .badSecret (le 1 (s.work.credentials[p.credential].limit - a)) } := by
  refine Eq.trans (show _ = Host.Outcome.next s.quiet.derivationEnds.settle from rfl) (congrArg _ ?_)
  have still : (s.derived.presentFailed p.credential a).Still :=
    State.still_presentFailed (State.still_derived h) _ unmet
  have answered := State.reply_current (s := s.derived.presentFailed p.credential a) (id := p.id) current 0x02
    .badSecret (le 1 (s.work.credentials[p.credential].limit - a))
  rw [State.derivationEnds_mismatch hd hu hv other, State.presentFails_eq]
  refine Eq.trans (congrArg State.settle answered) ?_
  exact State.settle_of_still (by exact still)

end Sys2Proof.Machine

namespace Sys2Proof.Proofs

open Sys2Proof Sys2Proof.Machine

/-- Settles O36: by the use of the digest, and for a PRESENT by its comparison and the charged counter. -/
theorem derivationCompared : Obligations.DerivationCompared := by
  refine ⟨fun s d p a v h hd hu hv => ⟨fun same hold => ?_, fun other _ below current => ?_⟩, derive_eq_iff,
    fun s d p a v h busy hd hu hv _ limit current other => ?_, fun s d q h hd hu hold => ?_⟩
  · exact exec_derivationEnd_submits h (State.derivationEnds_match hd hu hv same) hold
  · rw [exec_derivationEnd_fails h hd hu hv other (absurd · below) current, ← backoffFor_eq]
    rw [State.presentFailed_below (s := s.derived) below]
    rfl
  · rw [exec_derivationEnd_fails h hd hu hv other (fun _ => busy) current, ← backoffFor_eq,
      State.presentFailed_limit (s := s.derived) limit, ← limit, Nat.sub_self]
    rfl
  · exact exec_derivationEnd_submits h (State.derivationEnds_secret hd hu) hold

end Sys2Proof.Proofs
end

section
/-! PROOFS. The open request of a matching PRESENT (R28, R29, R53, R86): what it does to the rights and the key of each
region, and the masks it reports. -/

namespace Sys2Proof.Machine

variable {s t : State}

/-! ### One region under an open request -/

/-- A region's rights and its key slot. -/
abbrev RegionView := RegionStatus × KeySlot

def State.view (s : State) (r : RegionIx) : RegionView := (s.regions[r], s.keys[r])

/-- A key for the region is loaded or can be, `u` being what its material unwraps to (R53). -/
def RegionView.Loadable (x : RegionView) (u : Option LoadedKey) : Prop := x.2.loaded.isSome = true ∨ u.isSome = true

/-- The key slot with the region's key loaded, if it can be (R53). -/
def KeySlot.load (u : Option LoadedKey) (x : KeySlot) : KeySlot :=
  if x.loaded.isSome then x else { x with loaded := u }

/-- A right opened where a key is loaded or can be (R28). -/
def RegionView.openRight (k : RightKind) (u : Option LoadedKey) (x : RegionView) : RegionView :=
  if x.1.right k = .opened then x
  else if (x.2.load u).loaded.isSome then (x.1.setRight k .opened, x.2.load u)
  else (x.1, x.2.load u)

/-- An open request for one right, `named` being what the records say of it: it is asked for and granted, and its region
is enabled and NORMAL (R29, R78). -/
def RegionView.request (k : RightKind) (named : Bool) (u : Option LoadedKey) (x : RegionView) : RegionView :=
  if named = true ∧ x.1.eraseHold = false then x.openRight k u else x

section
variable {x : RegionView} {k j : RightKind} {named : Bool} {u : Option LoadedKey}

theorem RegionStatus.right_setRight (y : RegionStatus) (k j : RightKind) (v : Right) :
    (y.setRight k v).right j = if j = k then v else y.right j := by
  cases k <;> cases j <;> rfl

theorem RegionStatus.setRight_hold (y : RegionStatus) (k : RightKind) (v : Right) :
    (y.setRight k v).eraseHold = y.eraseHold := by
  cases k <;> rfl

theorem RegionStatus.setRight_admitted (y : RegionStatus) (k : RightKind) (v : Right) :
    (y.setRight k v).admitted = y.admitted := by
  cases k <;> rfl

theorem KeySlot.load_loaded (y : KeySlot) (u : Option LoadedKey) :
    (y.load u).loaded = y.loaded ∨ y.loaded = none ∧ (y.load u).loaded = u := by
  unfold KeySlot.load
  split
  · exact .inl rfl
  · rename_i empty
    exact .inr ⟨by simpa using empty, rfl⟩

theorem KeySlot.load_isSome (y : KeySlot) (u : Option LoadedKey) :
    (y.load u).loaded.isSome = true ↔ y.loaded.isSome = true ∨ u.isSome = true := by
  unfold KeySlot.load
  split <;> simp_all

theorem KeySlot.load_highestDrawn (y : KeySlot) (u : Option LoadedKey) : (y.load u).highestDrawn = y.highestDrawn := by
  unfold KeySlot.load
  split <;> rfl

/-- A request changes nothing, or it has the key loaded and opens the right where that succeeds. -/
theorem RegionView.request_cases (x : RegionView) (k : RightKind) (named : Bool) (u : Option LoadedKey) :
    (x.request k named u = x ∧ (x.1.right k = .opened ∨ ¬ (named = true ∧ x.1.eraseHold = false)))
      ∨ (named = true ∧ x.1.eraseHold = false ∧ x.1.right k ≠ .opened ∧ x.Loadable u
        ∧ x.request k named u = (x.1.setRight k .opened, x.2.load u))
      ∨ (x.1.right k ≠ .opened ∧ ¬ x.Loadable u ∧ x.request k named u = (x.1, x.2.load u)) := by
  by_cases asked : named = true ∧ x.1.eraseHold = false
  · by_cases already : x.1.right k = .opened
    · exact .inl ⟨by rw [RegionView.request, if_pos asked, RegionView.openRight, if_pos already], .inl already⟩
    · rw [RegionView.request, if_pos asked, RegionView.openRight, if_neg already, RegionView.Loadable]
      by_cases loads : (x.2.load u).loaded.isSome = true
      · rw [if_pos loads]
        exact .inr (.inl ⟨asked.1, asked.2, already, (KeySlot.load_isSome _ _).mp loads, rfl⟩)
      · rw [if_neg loads]
        exact .inr (.inr ⟨already, mt (KeySlot.load_isSome _ _).mpr loads, rfl⟩)
  · exact .inl ⟨by rw [RegionView.request, if_neg asked], .inr asked⟩

theorem RegionView.request_hold : (x.request k named u).1.eraseHold = x.1.eraseHold := by
  rcases x.request_cases k named u with ⟨e, -⟩ | ⟨-, -, -, -, e⟩ | ⟨-, -, e⟩ <;> rw [e]
  exact RegionStatus.setRight_hold _ _ _

theorem RegionView.request_admitted : (x.request k named u).1.admitted = x.1.admitted := by
  rcases x.request_cases k named u with ⟨e, -⟩ | ⟨-, -, -, -, e⟩ | ⟨-, -, e⟩ <;> rw [e]
  exact RegionStatus.setRight_admitted _ _ _

theorem RegionView.request_highestDrawn : (x.request k named u).2.highestDrawn = x.2.highestDrawn := by
  rcases x.request_cases k named u with ⟨e, -⟩ | ⟨-, -, -, -, e⟩ | ⟨-, -, e⟩ <;> rw [e]
  · exact KeySlot.load_highestDrawn _ _
  · exact KeySlot.load_highestDrawn _ _

theorem RegionView.request_loaded : (x.request k named u).2.loaded = x.2.loaded
    ∨ x.2.loaded = none ∧ (x.request k named u).2.loaded = u := by
  rcases x.request_cases k named u with ⟨e, -⟩ | ⟨-, -, -, -, e⟩ | ⟨-, -, e⟩ <;> rw [e]
  · exact .inl rfl
  · exact KeySlot.load_loaded _ _
  · exact KeySlot.load_loaded _ _

theorem RegionView.request_loadable : (x.request k named u).Loadable u ↔ x.Loadable u := by
  unfold RegionView.Loadable
  rcases x.request_loaded (k := k) (named := named) (u := u) with e | ⟨empty, e⟩
  · rw [e]
  · rw [e, empty]
    simp

/-- A loaded key stays loaded. -/
theorem RegionView.request_keeps_key (h : x.2.loaded.isSome = true) :
    (x.request k named u).2.loaded.isSome = true := by
  rcases x.request_loaded (k := k) (named := named) (u := u) with e | ⟨empty, -⟩
  · rw [e]; exact h
  · rw [empty] at h; cases h

/-- The rights that are OPEN after a request (R28, R29). -/
theorem RegionView.request_right (j : RightKind) : (x.request k named u).1.right j = .opened ↔
    x.1.right j = .opened ∨ (j = k ∧ named = true ∧ x.1.eraseHold = false ∧ x.Loadable u) := by
  rcases x.request_cases k named u with ⟨e, already⟩ | ⟨asked, free, -, loads, e⟩ | ⟨-, fails, e⟩ <;> rw [e]
  · refine ⟨.inl, fun h => h.elim id ?_⟩
    rintro ⟨rfl, asked, free, -⟩
    exact already.resolve_right (not_not_intro ⟨asked, free⟩)
  · simp only [RegionStatus.right_setRight, asked, free, loads, and_true]
    by_cases same : j = k <;> simp [same]
  · exact ⟨.inl, fun h => h.elim id fun all => absurd all.2.2.2 fails⟩

/-- A right opens beside a loaded key (R28). -/
theorem RegionView.request_opens (was : x.1.right j ≠ .opened) (opened : (x.request k named u).1.right j = .opened) :
    (x.request k named u).2.loaded.isSome = true := by
  rcases x.request_cases k named u with ⟨e, -⟩ | ⟨-, -, -, loads, e⟩ | ⟨-, -, e⟩ <;> rw [e] at opened ⊢
  · exact absurd opened was
  · exact (KeySlot.load_isSome _ _).mpr loads
  · exact absurd opened was

end

/-! ### The request over all regions -/

/-- What the records say of a right that an open request may name (R29, R78). -/
def State.mayOpen (s : State) (p : PresentRequest) (k : RightKind) (r : RegionIx) : Bool :=
  s.names p k r && s.work.regions[r].enabled && s.work.regions[r].condition == .normal

theorem State.view_congr {r : RegionIx} (regions : t.regions[r] = s.regions[r]) (keys : t.keys[r] = s.keys[r]) :
    t.view r = s.view r := Prod.ext regions keys

theorem State.loadKey_view (r q : RegionIx) : (s.loadKey r).view q =
    if q = r then (s.regions[q], s.keys[q].load (s.unwrapped q)) else s.view q := by
  have regions : (s.loadKey r).regions = s.regions := by simp
  have keys := s.loadKey_keys r q
  refine Prod.ext ?_ ?_
  · refine (getElem_congr_table regions q).trans ?_
    split <;> rfl
  · refine keys.trans ?_
    by_cases same : q = r
    · subst same
      rw [if_pos rfl]
      unfold KeySlot.load
      cases hl : s.keys[q].loaded <;> simp
    · rw [if_neg same, if_neg fun both => same both.1]
      rfl

theorem State.openRight_view (k : RightKind) (r q : RegionIx) : (s.openRight k r).view q =
    if q = r then (s.view q).openRight k (s.unwrapped q) else s.view q := by
  have loaded := s.loadKey_view r
  by_cases same : q = r
  · subst same
    have key : (s.loadKey q).keys[q] = s.keys[q].load (s.unwrapped q) :=
      congrArg Prod.snd ((loaded q).trans (if_pos rfl))
    have status : (s.loadKey q).regions[q] = s.regions[q] := congrArg Prod.fst ((loaded q).trans (if_pos rfl))
    rw [if_pos rfl, State.openRight, RegionView.openRight]
    refine apply_ite (fun b : State => b.view q) _ _ _ |>.trans (if_congr Iff.rfl rfl ?_)
    dsimp only
    rw [key]
    refine apply_ite (fun b : State => b.view q) _ _ _ |>.trans (if_congr Iff.rfl ?_ ?_)
    · refine Prod.ext ?_ key
      simp only [State.view, State.setStatus_regions, getElem_set_fin, if_pos, status]
    · exact Prod.ext status key
  · rw [if_neg same]
    refine State.view_congr (State.openRight_other same) ?_
    have other : (s.loadKey r).keys[q] = s.keys[q] := congrArg Prod.snd ((loaded q).trans (if_neg same))
    unfold State.openRight
    dsimp only
    repeat' split
    · rfl
    · exact other
    · exact other

/-- One region's open request moves nothing of another region. -/
theorem State.openNamed_view (p : PresentRequest) (k : RightKind) (r q : RegionIx) :
    (State.openNamed p k s r).view q =
      if q = r then (s.view q).request k (s.mayOpen p k q) (s.unwrapped q) else s.view q := by
  have asked : (s.names p k r && s.openable r) = true
      ↔ s.mayOpen p k r = true ∧ (s.view r).1.eraseHold = false := by
    simp only [State.openable, State.mayOpen, State.view, Bool.and_eq_true, Bool.not_eq_true', and_assoc]
  unfold State.openNamed
  by_cases named : (s.names p k r && s.openable r) = true
  · rw [if_pos named, State.openRight_view]
    refine if_ctx_congr Iff.rfl (fun same => ?_) fun _ => rfl
    subst same
    rw [RegionView.request, if_pos (asked.mp named)]
  · rw [if_neg named]
    split
    · rename_i same
      subst same
      rw [RegionView.request, if_neg (mt asked.mpr named)]
    · rfl

/-- The open request for the rights of one kind. -/
def State.openKind (p : PresentRequest) (k : RightKind) (s : State) : State := allRegions.foldl (State.openNamed p k) s

theorem State.openNamed_frame (p : PresentRequest) (k : RightKind) (r : RegionIx) :
    RightsFrame s (State.openNamed p k s r) := by
  unfold State.openNamed
  split
  · exact State.openRight_frame k r
  · exact .refl s

theorem State.openKind_frame (p : PresentRequest) (k : RightKind) : RightsFrame s (s.openKind p k) :=
  foldl_relates RightsFrame RightsFrame.refl (fun _ _ _ => RightsFrame.trans) _
    (fun _ r => State.openNamed_frame p k r) _ s

/-- What the records say does not change with the rights and keys. -/
theorem State.mayOpen_of_frame (f : RightsFrame s t) (p : PresentRequest) (k : RightKind) (r : RegionIx) :
    t.mayOpen p k r = s.mayOpen p k r := by rw [f]; rfl

theorem State.unwrapped_of_frame (f : RightsFrame s t) (r : RegionIx) : t.unwrapped r = s.unwrapped r := by
  rw [f]; rfl

theorem State.openKind_view (p : PresentRequest) (k : RightKind) (q : RegionIx) :
    (s.openKind p k).view q = (s.view q).request k (s.mayOpen p k q) (s.unwrapped q) := by
  have opened (l : List RegionIx) (hl : l.Nodup) (b : State) : (l.foldl (State.openNamed p k) b).view q =
      if q ∈ l then (b.view q).request k (b.mayOpen p k q) (b.unwrapped q) else b.view q := by
    induction l generalizing b with
    | nil => simp
    | cons r l ih =>
      obtain ⟨hr, hl⟩ := List.nodup_cons.mp hl
      have frame := State.openNamed_frame (s := b) p k r
      rw [List.foldl_cons, ih hl, State.mayOpen_of_frame frame, State.unwrapped_of_frame frame, State.openNamed_view]
      by_cases hq : q = r
      · subst hq
        simp only [hr, if_false, if_true, List.mem_cons_self]
      · simp only [hq, if_false, List.mem_cons, false_or]
  exact (opened allRegions (by decide) s).trans (if_pos (mem_allRegions q))

theorem State.openRequest_eq (p : PresentRequest) : s.openRequest p = (s.openKind p .read).openKind p .write := rfl

theorem State.openRequest_frame (p : PresentRequest) : RightsFrame s (s.openRequest p) :=
  RightsFrame.trans (State.openKind_frame p .read) (State.openKind_frame p .write)

theorem State.openRequest_view (p : PresentRequest) (q : RegionIx) : (s.openRequest p).view q =
    ((s.view q).request .read (s.mayOpen p .read q) (s.unwrapped q)).request .write (s.mayOpen p .write q)
      (s.unwrapped q) := by
  have frame := State.openKind_frame (s := s) p .read
  rw [State.openRequest_eq, State.openKind_view, State.openKind_view, State.mayOpen_of_frame frame,
    State.unwrapped_of_frame frame]

/-- The rights a presentation opens, or finds OPEN (R28, R29, R53, R78). -/
def State.Opens (s : State) (p : PresentRequest) (k : RightKind) (r : RegionIx) : Prop :=
  s.mayOpen p k r = true ∧ s.regions[r].eraseHold = false
    ∧ (s.regions[r].right k = .opened ∨ s.keys[r].loaded.isSome = true ∨ s.MaterialLoads r)

theorem State.openRequest_right (p : PresentRequest) (r : RegionIx) (k : RightKind) :
    (s.openRequest p).regions[r].right k = .opened ↔ s.regions[r].right k = .opened ∨ s.Opens p k r := by
  have right : (s.openRequest p).regions[r].right k = ((s.openRequest p).view r).1.right k := rfl
  have loadable : (s.view r).Loadable (s.unwrapped r) ↔ s.keys[r].loaded.isSome = true ∨ s.MaterialLoads r := by
    rw [← State.unwrapped_isSome_iff]
    rfl
  rw [right, State.openRequest_view, RegionView.request_right, RegionView.request_right, RegionView.request_hold,
    RegionView.request_loadable, loadable, State.Opens]
  show (s.regions[r].right k = .opened ∨ _) ∨ (_ ∧ _ ∧ s.regions[r].eraseHold = false ∧ _) ↔ _
  cases k <;> simp only [reduceCtorEq, false_and, or_false, true_and] <;> tauto

/-- What an open request leaves of a region and of its key slot. -/
theorem State.openRequest_rest_of_region (p : PresentRequest) (r : RegionIx) :
    (s.openRequest p).regions[r].eraseHold = s.regions[r].eraseHold
      ∧ (s.openRequest p).regions[r].admitted = s.regions[r].admitted
      ∧ (s.openRequest p).keys[r].highestDrawn = s.keys[r].highestDrawn := by
  have view := s.openRequest_view p r
  refine ⟨?_, ?_, ?_⟩
  · exact (congrArg (fun x : RegionView => x.1.eraseHold) view).trans
      (RegionView.request_hold.trans RegionView.request_hold)
  · exact (congrArg (fun x : RegionView => x.1.admitted) view).trans
      (RegionView.request_admitted.trans RegionView.request_admitted)
  · exact (congrArg (fun x : RegionView => x.2.highestDrawn) view).trans
      (RegionView.request_highestDrawn.trans RegionView.request_highestDrawn)

theorem State.openRequest_loaded (p : PresentRequest) (r : RegionIx) :
    (s.openRequest p).keys[r].loaded = s.keys[r].loaded
      ∨ s.keys[r].loaded = none ∧ (s.openRequest p).keys[r].loaded = s.unwrapped r := by
  have loaded := congrArg (fun x : RegionView => x.2.loaded) (s.openRequest_view p r)
  rcases RegionView.request_loaded (x := (s.view r).request .read (s.mayOpen p .read r) (s.unwrapped r)) (k := .write)
    (named := s.mayOpen p .write r) (u := s.unwrapped r) with second | ⟨empty, second⟩
  · rcases RegionView.request_loaded (x := s.view r) (k := .read) (named := s.mayOpen p .read r)
      (u := s.unwrapped r) with first | ⟨before, first⟩
    · exact .inl (loaded.trans (second.trans first))
    · exact .inr ⟨before, loaded.trans (second.trans first)⟩
  · rcases RegionView.request_loaded (x := s.view r) (k := .read) (named := s.mayOpen p .read r)
      (u := s.unwrapped r) with first | ⟨before, -⟩
    · exact .inr ⟨first.symm.trans empty, loaded.trans second⟩
    · exact .inr ⟨before, loaded.trans second⟩

/-- A right that the request opens has a key loaded beside it (R28). -/
theorem State.openRequest_opens (p : PresentRequest) {r : RegionIx} {k : RightKind}
    (was : s.regions[r].right k = .locked) (opened : (s.openRequest p).regions[r].right k = .opened) :
    (s.openRequest p).keys[r].loaded.isSome = true := by
  have view := s.openRequest_view p r
  have right : ((s.openRequest p).view r).1.right k = .opened := opened
  show ((s.openRequest p).view r).2.loaded.isSome = true
  rw [view] at right ⊢
  by_cases first : ((s.view r).request .read (s.mayOpen p .read r) (s.unwrapped r)).1.right k = .opened
  · refine RegionView.request_keeps_key (RegionView.request_opens (j := k) (fun e => ?_) first)
    exact absurd (was.symm.trans e) (by decide)
  · exact RegionView.request_opens first right

/-! ### The masks opened (R86) -/

theorem getLsbD_maskOf (test : RegionIx → Bool) (q : RegionIx) : (maskOf test).getLsbD q.val = test q := by
  have joined (l : List RegionIx) (m : BitVec 16) : (l.foldl (fun m r => m ||| bit r.val) m).getLsbD q.val =
      (m.getLsbD q.val || decide (q ∈ l)) := by
    induction l generalizing m with
    | nil => simp
    | cons r l ih =>
      have one : (bit r.val).getLsbD q.val = decide (q = r) := by
        rw [show (bit r.val).getLsbD q.val = inMask (bit r.val) q.val from rfl, inMask_bit]
        exact decide_eq_decide.mpr eq_comm
      rw [List.foldl_cons, ih, BitVec.getLsbD_or, one, Bool.or_assoc]
      congr 1
      simp [Bool.decide_or]
  rw [maskOf, joined]
  simp [mem_allRegions]

/-- The masks of the reply name the rights that the presentation opened or found OPEN. -/
theorem State.openedMask_bit (p : PresentRequest) (k : RightKind) (r : RegionIx) :
    ((s.openRequest p).openedMask p k).getLsbD r.val = true ↔ s.Opens p k r := by
  obtain ⟨hold, -, -⟩ := s.openRequest_rest_of_region p r
  have names : (s.openRequest p).mayOpen p k r = s.mayOpen p k r :=
    State.mayOpen_of_frame (State.openRequest_frame p) p k r
  have tested : ((s.openRequest p).names p k r && (s.openRequest p).openable r) = true
      ↔ s.mayOpen p k r = true ∧ s.regions[r].eraseHold = false := by
    rw [← names, ← hold]
    simp only [State.openable, State.mayOpen, Bool.and_eq_true, Bool.not_eq_true', and_assoc]
  rw [State.openedMask, getLsbD_maskOf, Bool.and_eq_true, tested, beq_iff_eq, State.openRequest_right, State.Opens]
  tauto

/-- A grant list lets a right be opened by an entry of its region with that right, or with both (R78). -/
theorem granted_iff {grants : List GrantEntry} {k : RightKind} {r : RegionIx} : granted grants k r = true ↔
    ∃ g ∈ grants, g.region = r ∧ (g.rights = .both ∨ g.rights = match k with
      | .read => .read
      | .write => .write) := by
  cases k <;> simp [granted]

end Sys2Proof.Machine
end

section
/-! PROOFS. The units of a PRESENT answered done: the charge, attached and detached, the refund in LOCKDOWN, and the
refund that opens (R83 to R87, R92, R147). -/

namespace Sys2Proof.Machine

variable {s t : State} {p : PresentRequest} {image : Records}

/-- A unit alone in the queue is answered done, and its requester leaves nothing deferred. -/
theorem exec_commitWriteEnd_settled {u : CommitUnit} (hw : s.Writes u image)
    (done : State.unitDone u (s.written image) = t) (deferred : t.store.deferred = []) :
    exec .commitWriteEnd s = .next t.settle := by
  obtain ⟨queue, waiting, writing⟩ := hw
  have popped : ({ s.quiet.popHead with stored := image } : State) = s.written image := by
    simp [State.popHead, State.written, queue, waiting]
  have run : exec .commitWriteEnd s = .next s.quiet.writeEnds := rfl
  rw [run, State.writeEnds]
  simp only [State.quiet_store, queue, writing, State.answerDone]
  rw [popped, done, State.submitDeferred_none _ deferred]

/-- Where the requester also leaves the part calm, what it may have submitted meets the gate. -/
theorem exec_commitWriteEnd_served {u : CommitUnit} (hw : s.Writes u image)
    (done : State.unitDone u (s.written image) = t) (deferred : t.store.deferred = []) (calm : t.Calm) :
    exec .commitWriteEnd s = .next t.serveStore := by
  rw [exec_commitWriteEnd_settled hw done deferred, State.settle_of_calm calm]

/-! ### The charge (R83, R87, R92) -/

/-- The working credential record is the one written. -/
def State.recorded (s : State) (image : Records) (c : CredIx) : State :=
  (s.written image).setCredential c image.credentials[c]

theorem State.recorded_credential (s : State) (image : Records) (c : CredIx) :
    (s.recorded image c).work.credentials[c] = image.credentials[c] :=
  (getElem_set_fin ..).trans (if_pos rfl)

theorem State.chargeDone_attached (current : s.management.current = some p.id) {v : Verifier}
    (hv : image.credentials[p.credential].secret = some v) (secret : List Byte) :
    (s.written image).chargeDone p secret = { s.recorded image p.credential with
      derivation := some ⟨v.salt, v.cost, secret, .present p image.credentials[p.credential].counter⟩ } := by
  have attached : (s.written image).attached p.id = true := by
    rw [State.attached, beq_iff_eq]; exact current
  rw [State.chargeDone, if_pos attached]
  show (match image.credentials[p.credential].secret with
    | some v => _
    | none => _) = _
  rw [hv]
  rfl

theorem State.chargeDone_detached (detached : s.management.current ≠ some p.id) (secret : List Byte) :
    (s.written image).chargeDone p secret
      = (s.recorded image p.credential).presentFailed p.credential image.credentials[p.credential].counter := by
  have attached : ¬ (s.written image).attached p.id = true := by
    rw [State.attached, beq_iff_eq]; exact detached
  rw [State.chargeDone, if_neg attached]
  exact (State.presentFails_eq _ _).trans (State.reply_detached (by exact detached) _ _ _)

/-- A failed presentation leaves the part calm where its trigger is none, or waits for a controller that is not free. -/
theorem State.calm_presentFailed (h : s.Calm) {c : CredIx} {a : Nat} (none_free : a = s.work.credentials[c].limit →
    s.responseFree = true → (s.entryOf (attemptsSource c)).level = .none) : (s.presentFailed c a).Calm := by
  obtain ⟨running, released⟩ := s.triggersAfter_controller c a
  obtain ⟨waits, erases, phase, list, grant⟩ := h
  have free : (s.presentFailed c a).responseFree = s.responseFree := by
    unfold State.responseFree
    rw [show (s.presentFailed c a).response = s.triggersAfter c a from rfl, running, released]
    rfl
  refine ⟨fun now_free => ?_, erases, phase, list, State.nextGrant_nothing_congr grant rfl rfl rfl⟩
  rw [free] at now_free
  show (s.triggersAfter c a).triggers = []
  by_cases limit : a = s.work.credentials[c].limit
  · rw [State.triggersAfter_at_limit limit, none_free limit now_free, enterTrigger_none]
    exact waits now_free
  · rw [State.triggersAfter, if_neg limit]
    exact waits now_free

/-! ### The refund (R85, R86, R147) -/

/-- Counter, P and Np are 0, and for credential 0 LOCKDOWN has returned to ARMED. -/
def State.refunded (s : State) (image : Records) (c : CredIx) : State :=
  { s.written image with work := { s.work with
      credentials := s.work.credentials.set c image.credentials[c]
      deadlines := { s.work.deadlines with p := 0, np := 0 }
      mode := if c = 0 ∧ s.work.mode = .lockdown then .armed else s.work.mode } }

/-- The refund of credential 0 also ends the count of responses, and has it reset in the store (R147). -/
def State.answeredRefund (s : State) (image : Records) (c : CredIx) : State :=
  { s.refunded image c with
    response := { s.response with count := if c = 0 then 0 else s.response.count }
    store := ⟨if c = 0 then [.countReset] else [], none, false, []⟩ }

theorem State.administratorRefund_empty (h : s.store = emptyStore) : s.administratorRefund = { s with
    response := { s.response with count := 0 }, store := ⟨[.countReset], none, false, []⟩ } := by
  have hold : ({ s with response := { s.response with count := 0 } } : State).holds .response = false := by
    simp [State.holds, h, emptyStore]
  rw [State.administratorRefund, if_neg (Bool.eq_false_iff.mp hold), State.submit_free hold, h]
  rfl

theorem State.refundDone_eq : (s.written image).refundDone p = (s.answeredRefund image p.credential).opening p := by
  have done : (s.written image).refundDone p = (if p.credential = 0 then
      (s.refunded image p.credential).administratorRefund else s.refunded image p.credential).opening p := rfl
  rw [done]
  congr 1
  by_cases administrator : p.credential = 0
  · rw [if_pos administrator, State.administratorRefund_empty rfl, State.answeredRefund, if_pos administrator,
      if_pos administrator]
    rfl
  · rw [if_neg administrator, State.answeredRefund, if_neg administrator, if_neg administrator]
    rfl

/-- A SHOWN window is retired by a presentation that asks for it (R109). -/
def State.windowRetired (s : State) (asked : Bool) : BootWindow :=
  if asked = true ∧ s.window.state = .shown then { s.window with state := .retired } else s.window

theorem State.retire_if (s : State) (asked : Bool) :
    (if asked then s.retire else s) = { s with window := s.windowRetired asked } := by
  cases asked with
  | false => rfl
  | true => by_cases shown : s.window.state = .shown <;> simp [State.windowRetired, State.retire, shown]

/-- The presented flag is set, and the open request of the presentation has been made (R86). -/
def State.presented (s : State) (p : PresentRequest) : State :=
  (s.setCredStatus p.credential { s.credentials[p.credential] with presented := true }).openRequest p

theorem State.presented_frame (s : State) (p : PresentRequest) : s.presented p = { s with
    credentials := s.credentials.set p.credential { s.credentials[p.credential] with presented := true }
    regions := (s.presented p).regions, keys := (s.presented p).keys } :=
  State.openRequest_frame p

theorem State.opening_opens (allowed : p.credential = 0 ∨ s.work.mode ≠ .lockdown) : s.opening p =
    State.reply p.id 0x02 .done (bytes16 ((s.presented p).openedMask p .read)
        ++ bytes16 ((s.presented p).openedMask p .write)
        ++ le 1 s.work.credentials[p.credential].left ++ [windowByte (s.windowRetired p.retire).state])
      { s.presented p with window := s.windowRetired p.retire } := by
  have open_now : ¬ (s.work.mode = .lockdown ∧ p.credential ≠ 0) := fun ⟨down, other⟩ =>
    allowed.elim other (absurd down)
  have same : (s.presented p).windowRetired p.retire = s.windowRetired p.retire := by
    rw [State.presented_frame]
    rfl
  have retired := State.retire_if (s.presented p) p.retire
  rw [same] at retired
  rw [State.opening, if_neg open_now]
  exact congrArg (fun v : State => State.reply p.id 0x02 .done (bytes16 (v.openedMask p .read)
    ++ bytes16 (v.openedMask p .write) ++ le 1 s.work.credentials[p.credential].left
    ++ [windowByte v.window.state]) v) retired

/-- A refund that opens: what its done answer leaves, before the store's head meets the gate. -/
def State.refundOpened (s : State) (image : Records) (p : PresentRequest) : State :=
  let u := s.answeredRefund image p.credential
  { u.presented p with
    window := s.windowRetired p.retire
    management := s.replied 0x02 .done (bytes16 ((u.presented p).openedMask p .read)
      ++ bytes16 ((u.presented p).openedMask p .write)
      ++ [BitVec.ofNat 8 image.credentials[p.credential].limit, windowByte (s.windowRetired p.retire).state]) }

theorem State.refundDone_opens (current : s.management.current = some p.id)
    (reset : image.credentials[p.credential].counter = 0) (allowed : p.credential = 0 ∨ s.work.mode ≠ .lockdown) :
    (s.written image).refundDone p = s.refundOpened image p := by
  have open_now : p.credential = 0 ∨ (s.answeredRefund image p.credential).work.mode ≠ .lockdown := by
    refine allowed.imp_right fun up => ?_
    show (if p.credential = 0 ∧ s.work.mode = .lockdown then Mode.armed else s.work.mode) ≠ .lockdown
    rwa [if_neg fun both => up both.2]
  have left : (s.answeredRefund image p.credential).work.credentials[p.credential].left
      = image.credentials[p.credential].limit := by
    rw [show (s.answeredRefund image p.credential).work.credentials[p.credential] = image.credentials[p.credential] from
      s.recorded_credential image p.credential, CredentialRecord.left, reset, Nat.sub_zero]
  rw [State.refundDone_eq, State.opening_opens open_now, left, State.reply_current (by
    rw [State.presented_frame]; exact current)]
  have management : ((s.answeredRefund image p.credential).presented p).management = s.management := by
    rw [State.presented_frame]; rfl
  rw [management, State.refundOpened, List.append_assoc]
  rfl

/-- A user's refund in LOCKDOWN stands, and nothing opens (R86). -/
theorem State.refundDone_lockdown (current : s.management.current = some p.id) (other : p.credential ≠ 0)
    (down : s.work.mode = .lockdown) : (s.written image).refundDone p = { s.written image with
      work := { s.work with
        credentials := s.work.credentials.set p.credential image.credentials[p.credential]
        deadlines := { s.work.deadlines with p := 0, np := 0 } }
      management := s.replied 0x02 .lockdown [] } := by
  have user : s.answeredRefund image p.credential = { s.written image with work := { s.work with
      credentials := s.work.credentials.set p.credential image.credentials[p.credential]
      deadlines := { s.work.deadlines with p := 0, np := 0 } } } := by
    rw [State.answeredRefund, State.refunded, if_neg fun both => other both.1, if_neg other, if_neg other]
    rfl
  rw [State.refundDone_eq, user, State.opening, if_pos ⟨down, other⟩]
  exact State.reply_current (by exact current) _ _ _

theorem State.refundOpened_frame (s : State) (image : Records) (p : PresentRequest) :
    s.refundOpened image p = { s.answeredRefund image p.credential with
      regions := (s.refundOpened image p).regions, keys := (s.refundOpened image p).keys
      window := s.windowRetired p.retire
      credentials := s.credentials.set p.credential { s.credentials[p.credential] with presented := true }
      management := (s.refundOpened image p).management } := by
  unfold State.refundOpened
  dsimp only
  rw [State.presented_frame]
  rfl

theorem State.calm_refundOpened (h : s.Calm) (image : Records) (p : PresentRequest) :
    (s.refundOpened image p).Calm := by
  rw [State.refundOpened_frame]
  exact State.calm_congr h rfl rfl rfl rfl rfl rfl rfl rfl rfl rfl

/-- The refund taken and the presented flag set, before the open request. -/
def State.refundShown (s : State) (image : Records) (p : PresentRequest) : State :=
  (s.answeredRefund image p.credential).setCredStatus p.credential
    { s.credentials[p.credential] with presented := true }

/-- The rights that the refund opens or finds OPEN, by the grants written (R28, R29, R53, R78). -/
theorem State.refunded_opens (s : State) (image : Records) (p : PresentRequest) (k : RightKind) (r : RegionIx) :
    (s.refundShown image p).Opens p k r ↔
      (match k with
        | .read => p.readMask
        | .write => p.writeMask).getLsbD r.val = true
      ∧ (p.credential = 0 ∨ ∃ g ∈ image.credentials[p.credential].grants, g.region = r ∧ (g.rights = .both
          ∨ g.rights = match k with
            | .read => .read
            | .write => .write))
      ∧ s.work.regions[r].enabled = true ∧ s.work.regions[r].condition = .normal
      ∧ s.regions[r].eraseHold = false
      ∧ (s.regions[r].right k = .opened ∨ s.keys[r].loaded.isSome = true ∨ s.MaterialLoads r) := by
  generalize ht : s.refundShown image p = t
  have grants : t.work.credentials[p.credential].grants = image.credentials[p.credential].grants := by
    rw [← ht]; exact congrArg CredentialRecord.grants (s.recorded_credential image p.credential)
  have names : t.names p k r = true ↔ (match k with
        | .read => p.readMask
        | .write => p.writeMask).getLsbD r.val = true
      ∧ (p.credential = 0 ∨ granted image.credentials[p.credential].grants k r = true) := by
    unfold State.names
    rw [grants]
    cases k <;> simp [inMask]
  rw [State.Opens, State.mayOpen, Bool.and_eq_true, Bool.and_eq_true, names, granted_iff, beq_iff_eq]
  subst ht
  simp only [and_assoc]
  rfl

theorem State.serveStore_block (s : State) :
    s.serveStore = { s with store := s.serveStore.store, holdup := s.serveStore.holdup } := by
  rw [State.serveStore_frame]

theorem State.serveStore_regions (s : State) : s.serveStore.regions = s.regions := by rw [State.serveStore_block]

theorem State.serveStore_keys (s : State) : s.serveStore.keys = s.keys := by rw [State.serveStore_block]

theorem State.refundOpened_regions (s : State) (image : Records) (p : PresentRequest) :
    (s.refundOpened image p).serveStore.regions = ((s.refundShown image p).openRequest p).regions :=
  State.serveStore_regions _

theorem State.refundOpened_keys (s : State) (image : Records) (p : PresentRequest) :
    (s.refundOpened image p).serveStore.keys = ((s.refundShown image p).openRequest p).keys :=
  State.serveStore_keys _

theorem State.refundOpened_store (s : State) (image : Records) (p : PresentRequest) :
    (s.refundOpened image p).store = ⟨if p.credential = 0 then [.countReset] else [], none, false, []⟩ := by
  rw [State.refundOpened_frame]
  rfl

theorem State.refundOpened_holdup (s : State) (image : Records) (p : PresentRequest) :
    (s.refundOpened image p).holdup = s.holdup := by
  rw [State.refundOpened_frame]
  rfl

/-- All that a refund that opens changes, once the store's head has met the gate. -/
theorem State.refundOpened_served (s : State) (image : Records) (p : PresentRequest) :
    (s.refundOpened image p).serveStore = { s.answeredRefund image p.credential with
      store := (s.refundOpened image p).serveStore.store, holdup := (s.refundOpened image p).serveStore.holdup
      regions := (s.refundOpened image p).serveStore.regions, keys := (s.refundOpened image p).serveStore.keys
      window := s.windowRetired p.retire
      credentials := s.credentials.set p.credential { s.credentials[p.credential] with presented := true }
      management := s.replied 0x02 .done (bytes16 (((s.refundShown image p).openRequest p).openedMask p .read)
        ++ bytes16 (((s.refundShown image p).openRequest p).openedMask p .write)
        ++ [BitVec.ofNat 8 image.credentials[p.credential].limit, windowByte (s.windowRetired p.retire).state]) } := by
  rw [State.serveStore_regions, State.serveStore_keys]
  refine (State.serveStore_block _).trans ?_
  generalize (s.refundOpened image p).serveStore.store = store
  generalize (s.refundOpened image p).serveStore.holdup = holdup
  rw [State.refundOpened_frame]
  rfl

end Sys2Proof.Machine

namespace Sys2Proof.Proofs

open Sys2Proof Sys2Proof.Machine

/-- Settles O41: the charge by whether its PRESENT is attached, the refund by the mode and the credential. -/
theorem presentUnitsDone : Obligations.PresentUnitsDone := by
  refine ⟨fun s p secret image h deferred writing current =>
      ⟨fun v queue hv => ?charged, fun queue other down => ?user⟩,
    fun s p secret image h hw detached => ?detached, fun s p image h hw current reset allowed => ?opened⟩
  case charged =>
    exact exec_commitWriteEnd_calm h ⟨queue, deferred, writing⟩
      (State.chargeDone_attached current hv secret) rfl rfl
  case user =>
    exact exec_commitWriteEnd_calm h ⟨queue, deferred, writing⟩
      (State.refundDone_lockdown current other down) rfl rfl
  case detached =>
    intro c a n e atLimit _ none_free
    have counted := s.recorded_credential image c
    have limit : a = (s.recorded image c).work.credentials[c].limit ↔ atLimit := by rw [counted]
    have calm : ((s.recorded image c).presentFailed c a).Calm := State.calm_presentFailed (by exact h)
      fun reached free => none_free (limit.mp reached) free
    rw [exec_commitWriteEnd_served hw (State.chargeDone_detached detached secret) rfl calm,
      State.serveStore_empty rfl, ← backoffFor_eq]
    by_cases reached : atLimit
    · rw [if_pos reached, if_pos reached, State.presentFailed_limit (limit.mpr reached)]
      rfl
    · rw [if_neg reached, if_neg reached, State.presentFailed_below (mt limit.mp reached)]
      rfl
  case opened =>
    have done := State.refundDone_opens current reset allowed
    intro x opens window
    have opened (k : RightKind) (r : RegionIx) : (s.refundShown image p).Opens p k r ↔ opens k r :=
      s.refunded_opens image p k r
    have regions := s.refundOpened_regions image p
    have keys := s.refundOpened_keys image p
    have store := s.refundOpened_store image p
    have run := exec_commitWriteEnd_served hw (State.refundDone_opens current reset allowed) (by rw [store])
      (State.calm_refundOpened h image p)
    refine ⟨_, _, _, run, s.refundOpened_served image p, fun r => ⟨?_, ?_⟩, fun r k => ?_, fun r => ?_, ?_, ?_,
      fun other => ?_⟩
    · exact (State.openedMask_bit p .read r).trans (opened .read r)
    · exact (State.openedMask_bit p .write r).trans (opened .write r)
    · rw [regions]
      exact (State.openRequest_right p r k).trans (or_congr_right (opened k r))
    · rw [regions, keys]
      obtain ⟨hold, admitted, drawn⟩ := (s.refundShown image p).openRequest_rest_of_region p r
      exact ⟨hold, admitted, drawn, State.openRequest_loaded (s := s.refundShown image p) p r,
        fun k => State.openRequest_opens (s := s.refundShown image p) p⟩
    · rw [State.serveStore_queue, store]
    · rw [State.serveStore_deferred, store]
    · rw [State.serveStore_empty (by rw [store, if_neg other]), store, if_neg other]
      exact ⟨rfl, s.refundOpened_holdup image p⟩

end Sys2Proof.Proofs
end

section
/-! PROOFS. The units that change a credential, and the revert charge, answered done: the record written is the working
one (R79, R94 to R98), and the right code begins the revert operation (R162, R163). -/

namespace Sys2Proof.Machine

variable {s t : State} {image : Records}

/-! ### Units that change a credential (R94 to R98) -/

section
variable {id : Nat} (current : s.management.current = some id) {c : CredIx}
include current

/-- The done answer to a unit that changes a credential: the working record is the one written, and a reply is given. -/
theorem State.reply_recorded (k : Byte) (result : ResultCode) (body : List Byte) :
    (s.recorded image c).reply id k result body
      = { s.recorded image c with management := s.replied k result body } :=
  State.reply_current (by exact current) _ _ _

theorem State.removeDone_current : (s.written image).removeDone id c = { s.recorded image c with
    credentials := s.credentials.set c ⟨false, 0⟩, management := s.replied 0x05 .done [] } :=
  State.reply_current (by exact current) _ _ _

theorem State.grantDone_current : (s.written image).grantDone id c = { s.recorded image c with
    management := s.replied 0x06 .done (grantBytes image.credentials[c].grants) } :=
  State.reply_recorded current _ _ _

theorem State.limitDone_current (l : Nat) : (s.written image).limitDone id c l = { s.recorded image c with
    management := s.replied 0x07 .done
      [BitVec.ofNat 8 l, BitVec.ofNat 8 (image.credentials[c].limit - image.credentials[c].counter)] } :=
  State.reply_recorded current _ _ _

theorem State.resetAttemptsDone_current : (s.written image).resetAttemptsDone id c = { s.recorded image c with
    credentials := s.credentials.set c { s.credentials[c] with backoff := 0 }
    management := s.replied 0x08 .done [BitVec.ofNat 8 image.credentials[c].limit] } :=
  State.reply_current (by exact current) _ _ _

end

theorem State.secretDone_current {q : SecretRequest} (current : s.management.current = some q.id) :
    (s.written image).secretDone q = { s.written image with
      work := { s.work with
        credentials := s.work.credentials.set q.credential image.credentials[q.credential]
        mode := if q.arms = true ∧ s.work.mode = .factory then .armed else s.work.mode }
      credentials := s.credentials.set q.credential { s.credentials[q.credential] with backoff := 0 }
      management := s.replied 0x04 .done [BitVec.ofNat 8 q.cost] } :=
  State.reply_current (by exact current) _ _ _

/-! ### The contents of the revert unit (R163) -/

theorem State.image_revert (id : Nat) : s.image (.revert id false) = { State.reset.stored with keys := s.work.keys }
    ∧ s.image (.revert id true) = { State.reset.stored with
        keys := s.work.keys, scrubList := [⟨0, 0⟩]
        regions := State.reset.stored.regions.set 0
          { State.reset.stored.regions[0] with condition := .scrubQueued } } := by
  exact ⟨rfl, rfl⟩

/-! ### The revert charge (R162, R163) -/

/-- The revert counter charged (R162). -/
def State.revertCharged (s : State) (image : Records) : State :=
  { s.written image with work := { s.work with revertCounter := image.revertCounter } }

theorem backoffFor_byte (a : Nat) : le 2 (backoffFor a) = [BitVec.ofNat 8 (backoffFor a), 0] := by
  have small : backoffFor a / 256 = 0 := by
    rw [backoffFor_eq]
    exact Nat.div_eq_of_lt (Nat.lt_of_le_of_lt (Nat.min_le_right _ _) (by decide))
  rw [le_two, small]
  rfl

theorem State.revertChargeDone_wrong {id : Nat} (current : s.management.current = some id) {code : List Byte}
    (wrong : code ≠ s.fuses.revertCode) (scrub : Bool) : (s.written image).revertChargeDone id scrub code
      = { s.revertCharged image with
          revertBackoff := backoffFor image.revertCounter
          management := s.replied 0x19 .badSecret [BitVec.ofNat 8 (backoffFor image.revertCounter), 0] } := by
  have attached : (s.written image).attached id = true := by
    rw [State.attached, beq_iff_eq]; exact current
  rw [State.revertChargeDone, if_pos attached, if_neg (by exact wrong), ← backoffFor_byte]
  exact State.reply_current (by exact current) _ _ _

theorem State.revertChargeDone_right {id : Nat} (current : s.management.current = some id) (scrub : Bool) :
    (s.written image).revertChargeDone id scrub s.fuses.revertCode = (s.revertCharged image).beginRevert id scrub := by
  have attached : (s.written image).attached id = true := by
    rw [State.attached, beq_iff_eq]; exact current
  rw [State.revertChargeDone, if_pos attached]
  exact if_pos rfl

/-! ### The crypto-erase of every enabled region begins (R149, R163) -/

/-- What beginning crypto-erases changes where no scrub list stands. -/
def State.BeginsErases (s t : State) : Prop :=
  t = { s with regions := t.regions, keys := t.keys, erases := t.erases }

theorem State.BeginsErases.refl (s : State) : s.BeginsErases s := rfl

theorem State.BeginsErases.trans {u : State} (f : s.BeginsErases t) (g : t.BeginsErases u) : s.BeginsErases u := by
  unfold State.BeginsErases at *
  rw [g, f]

/-- The crypto-erase of a region begins for a revert, if the region is enabled. -/
def State.revertErase (scrub : Bool) (s : State) (r : RegionIx) : State :=
  if s.work.regions[r].enabled then s.beginErase r .revert (scrub && r == 0) else s

/-- Region q once its crypto-erase has begun, if `begun` holds. -/
def RegionStatus.held (begun : Bool) (x : RegionStatus) : RegionStatus :=
  if begun then ⟨.locked, .locked, true, x.admitted⟩ else x

section
variable (list : s.work.scrubList = [])
include list

theorem State.begins_revertErase (scrub : Bool) (r : RegionIx) : s.BeginsErases (s.revertErase scrub r) := by
  unfold State.revertErase
  split
  · rw [State.beginErase_of_no_list list]
    rfl
  · exact .refl s

theorem State.revertErase_regions (scrub : Bool) (r q : RegionIx) : (s.revertErase scrub r).regions[q] =
    if q = r then s.regions[q].held s.work.regions[q].enabled else s.regions[q] := by
  unfold State.revertErase RegionStatus.held
  by_cases enabled : s.work.regions[r].enabled = true
  · rw [if_pos enabled, State.beginErase_of_no_list list]
    refine (getElem_set_fin ..).trans ?_
    refine if_ctx_congr Iff.rfl (fun same => ?_) fun _ => rfl
    subst same
    rw [if_pos enabled]
  · rw [if_neg enabled]
    split
    · rename_i same
      subst same
      rw [if_neg enabled]
    · rfl

theorem State.revertErase_erases (scrub : Bool) (r : RegionIx) : (s.revertErase scrub r).erases =
    if s.work.regions[r].enabled then s.erases ++ [⟨r, .revert, scrub && r == 0, .begun⟩] else s.erases := by
  unfold State.revertErase
  split
  · rw [State.beginErase_of_no_list list]
  · rfl

theorem State.foldl_revertErase (scrub : Bool) (l : List RegionIx) (hl : l.Nodup) :
    s.BeginsErases (l.foldl (State.revertErase scrub) s)
      ∧ (∀ q : RegionIx, (l.foldl (State.revertErase scrub) s).regions[q] =
        if q ∈ l then s.regions[q].held s.work.regions[q].enabled else s.regions[q])
      ∧ (∀ e ∈ s.erases, e ∈ (l.foldl (State.revertErase scrub) s).erases)
      ∧ ∀ r ∈ l, s.work.regions[r].enabled = true →
        ⟨r, .revert, scrub && r == 0, .begun⟩ ∈ (l.foldl (State.revertErase scrub) s).erases := by
  induction l generalizing s with
  | nil => exact ⟨.refl s, fun q => rfl, fun e he => he, fun r hr => absurd hr List.not_mem_nil⟩
  | cons r l ih =>
    obtain ⟨hr, hl⟩ := List.nodup_cons.mp hl
    have first := State.begins_revertErase list scrub r
    have work : (s.revertErase scrub r).work = s.work := by rw [first]
    obtain ⟨frame, regions, kept, begun⟩ := ih (s := s.revertErase scrub r) (by rw [work]; exact list) hl
    have erases := State.revertErase_erases list scrub r
    rw [List.foldl_cons]
    refine ⟨first.trans frame, fun q => ?_, fun e he => kept e ?_, fun q hq enabled => ?_⟩
    · rw [regions, work, State.revertErase_regions list]
      by_cases hq : q = r
      · subst hq
        simp only [hr, if_false, if_true, List.mem_cons_self]
      · simp only [hq, if_false, List.mem_cons, false_or]
    · rw [erases]
      split
      · exact List.mem_append_left _ he
      · exact he
    · rcases List.mem_cons.mp hq with rfl | hq
      · refine kept _ ?_
        rw [erases, if_pos enabled]
        exact List.mem_append_right _ List.mem_cons_self
      · exact begun q hq (by rw [work]; exact enabled)

end

/-! ### What the destruction steps of the event leave (R50, R150) -/

theorem State.destroyKey_records (r : RegionIx) (p : Party) : (s.destroyKey r p).work.regions = s.work.regions
    ∧ (s.destroyKey r p).work.scrubList = s.work.scrubList := by
  unfold State.destroyKey
  dsimp only
  repeat' split
  all_goals simp

theorem State.destroyAllDue_records : s.destroyAllDue.work.regions = s.work.regions
    ∧ s.destroyAllDue.work.scrubList = s.work.scrubList := by
  have regions (b : State) (r : RegionIx) : (b.destroyIfDue r).work.regions = b.work.regions :=
    foldl_reads_same (·.work.regions) (fun b p => (State.destroyKey_records (s := b) r p).1) _ b
  have list (b : State) (r : RegionIx) : (b.destroyIfDue r).work.scrubList = b.work.scrubList :=
    foldl_reads_same (·.work.scrubList) (fun b p => (State.destroyKey_records (s := b) r p).2) _ b
  exact ⟨foldl_reads_same (·.work.regions) regions _ s, foldl_reads_same (·.work.scrubList) list _ s⟩

/-- A crypto-erase is under way, whatever its stage. -/
def State.Erases (s : State) (r : RegionIx) (p : Party) (scrub : Bool) : Prop :=
  ∃ e ∈ s.erases, e.region = r ∧ e.party = p ∧ e.scrub = scrub

theorem State.erases_destroyKey {q : RegionIx} {p : Party} {scrub : Bool} (h : s.Erases q p scrub) (r : RegionIx)
    (k : Party) : (s.destroyKey r k).Erases q p scrub := by
  obtain ⟨x, erases⟩ := s.destroyKey_erases r k
  obtain ⟨e, he, hr, hp, hs⟩ := h
  rw [State.setEraseStage_erases] at erases
  refine ⟨if e.region = r ∧ e.party = k then { e with stage := x } else e, ?_, ?_⟩
  · rw [erases]
    exact List.mem_map_of_mem he
  · split <;> exact ⟨hr, hp, hs⟩

theorem State.erases_destroyAllDue {q : RegionIx} {p : Party} {scrub : Bool} (h : s.Erases q p scrub) :
    s.destroyAllDue.Erases q p scrub := by
  refine foldl_keeps (fun b => b.Erases q p scrub) _ (fun b r hb => ?_) _ s h
  exact foldl_keeps (fun b => b.Erases q p scrub) _ (fun b k hb => State.erases_destroyKey hb r k) _ b hb

/-! ### The revert operation begins (R163) -/

/-- Every right LOCKED, every flag clear, and the revert operation marked. -/
def State.revertMarked (s : State) (id : Nat) (scrub : Bool) : State :=
  { s.lockAll.clearFlags with reverting := true, revertRequest := some (id, scrub) }

theorem State.beginRevert_eq (id : Nat) (scrub : Bool) :
    s.beginRevert id scrub = allRegions.foldl (State.revertErase scrub) (s.revertMarked id scrub) := rfl

theorem State.revertMarked_frame (id : Nat) (scrub : Bool) : s.revertMarked id scrub = { s with
    regions := s.lockAll.regions, keys := s.lockAll.keys
    credentials := tabMap (fun x => { x with presented := false }) s.credentials
    reverting := true, revertRequest := some (id, scrub) } := by
  have frame := s.lockAll_frame
  unfold State.revertMarked State.clearFlags
  generalize s.lockAll = t at frame ⊢
  rw [frame]

/-- What the right code leaves before the event ends (R163). -/
def State.BeginsRevert (s : State) (id : Nat) (scrub : Bool) (t : State) : Prop :=
  t = { s with
    regions := t.regions, keys := t.keys, erases := t.erases
    credentials := tabMap (fun x => { x with presented := false }) s.credentials
    reverting := true, revertRequest := some (id, scrub) }

theorem State.beginRevert_begins (list : s.work.scrubList = []) (id : Nat) (scrub : Bool) :
    s.BeginsRevert id scrub (s.beginRevert id scrub)
      ∧ (∀ r : RegionIx, (s.beginRevert id scrub).regions[r] = ⟨.locked, .locked,
          s.regions[r].eraseHold || s.work.regions[r].enabled, s.regions[r].admitted⟩)
      ∧ ∀ r : RegionIx, s.work.regions[r].enabled = true →
        (s.beginRevert id scrub).Erases r .revert (scrub && r == 0) := by
  have marked := s.revertMarked_frame id scrub
  have work : (s.revertMarked id scrub).work = s.work := by rw [marked]
  have regions : (s.revertMarked id scrub).regions = s.lockAll.regions := by rw [marked]
  obtain ⟨frame, held, -, begun⟩ := State.foldl_revertErase (s := s.revertMarked id scrub) (by rw [work]; exact list)
    scrub allRegions (by decide)
  rw [State.beginRevert_eq]
  generalize allRegions.foldl (State.revertErase scrub) (s.revertMarked id scrub) = t at *
  refine ⟨?_, fun r => ?_, fun r enabled => ?_⟩
  · rw [marked] at frame
    exact frame
  · rw [held, if_pos (mem_allRegions r), work, getElem_congr_table regions, State.lockAll_regions, RegionStatus.held]
    cases s.work.regions[r].enabled <;> simp
  · exact ⟨_, begun r (mem_allRegions r) (by rw [work]; exact enabled), rfl, rfl, rfl⟩

/-- The event of the right code: the crypto-erases that need not wait destroy their keys, and nothing else is due. -/
theorem exec_revertCharge_right {id : Nat} {scrub : Bool} (h : s.Calm)
    (hw : s.Writes (.revertCharge id scrub s.fuses.revertCode) image) (current : s.management.current = some id) :
    exec .commitWriteEnd s = .next ((s.revertCharged image).beginRevert id scrub).destroyAllDue.serveStore := by
  obtain ⟨-, -, phase, list, grant⟩ := h
  obtain ⟨frame, -, -⟩ := State.beginRevert_begins (s := s.revertCharged image) (by exact list) id scrub
  have done := State.revertChargeDone_right (image := image) current scrub
  unfold State.BeginsRevert at frame
  generalize (s.revertCharged image).beginRevert id scrub = b at frame done ⊢
  have busy : b.responseFree = false := by
    rw [frame]
    exact Bool.and_false _
  have startUp : b.destroyAllDue.startUp = s.startUp := by
    refine Eq.trans (b := b.startUp) (by simp) ?_
    rw [frame]; rfl
  have port : b.destroyAllDue.port = s.port := by
    refine Eq.trans (b := b.port) (by simp) ?_
    rw [frame]; rfl
  have engine : b.destroyAllDue.scrub = s.scrub := by
    refine Eq.trans (b := b.scrub) (by simp) ?_
    rw [frame]; rfl
  have listed : b.destroyAllDue.work.scrubList = [] := by
    rw [State.destroyAllDue_records.2, frame]
    exact list
  rw [exec_commitWriteEnd_settled hw done (by rw [frame]; rfl)]
  exact congrArg _ (State.settle_of_destroyed (State.responseStill_of_busy busy) rfl (by rw [startUp]; exact phase)
    listed (State.nextGrant_nothing_congr grant (by rw [port]) (by rw [port]) (by rw [engine])))

end Sys2Proof.Machine
end

section
/-! PROOFS. The revert unit whose write fails (R51, R164): the key records are the stored ones again, and the erase holds
of the revert end. -/

namespace Sys2Proof.Machine

variable {s t : State}

/-- What ending crypto-erases of a revert changes. -/
def State.EndsErases (s t : State) : Prop :=
  t = { s with work := { s.work with keys := t.work.keys }, regions := t.regions }

theorem State.EndsErases.refl (s : State) : s.EndsErases s := rfl

theorem State.EndsErases.trans {u : State} (f : s.EndsErases t) (g : t.EndsErases u) : s.EndsErases u := by
  unfold State.EndsErases at *
  rw [g, f]

theorem State.endRevertErase_of_none (h : s.erases = []) (r : RegionIx) :
    s.endRevertErase r = (s.setKey r s.stored.keys[r]).setHold r false :=
  if_neg (by simp [State.erasing, h])

/-- Each region of the list has its stored key record and no erase hold, and the others are as they were. -/
theorem State.foldl_endRevertErase (h : s.erases = []) (l : List RegionIx) :
    s.EndsErases (l.foldl (fun u r => u.endRevertErase r) s)
      ∧ ∀ q : RegionIx,
        (q ∈ l → (l.foldl (fun u r => u.endRevertErase r) s).work.keys[q] = s.stored.keys[q]
          ∧ (l.foldl (fun u r => u.endRevertErase r) s).regions[q] = { s.regions[q] with eraseHold := false })
        ∧ (q ∉ l → (l.foldl (fun u r => u.endRevertErase r) s).work.keys[q] = s.work.keys[q]
          ∧ (l.foldl (fun u r => u.endRevertErase r) s).regions[q] = s.regions[q]) := by
  induction l generalizing s with
  | nil => exact ⟨.refl s, fun q => ⟨fun hq => absurd hq List.not_mem_nil, fun _ => ⟨rfl, rfl⟩⟩⟩
  | cons r l ih =>
    have first := State.endRevertErase_of_none h r
    have keys (q : RegionIx) : (s.endRevertErase r).work.keys[q] =
        if q = r then s.stored.keys[q] else s.work.keys[q] := by
      rw [first]
      refine (getElem_set_fin ..).trans (if_ctx_congr Iff.rfl (fun same => ?_) fun _ => rfl)
      rw [same]
    have regions (q : RegionIx) : (s.endRevertErase r).regions[q] =
        if q = r then { s.regions[q] with eraseHold := false } else s.regions[q] := by
      rw [first]
      refine (getElem_set_fin ..).trans (if_ctx_congr Iff.rfl (fun same => ?_) fun _ => rfl)
      rw [same]
      rfl
    have stored : (s.endRevertErase r).stored = s.stored := by rw [first]; rfl
    obtain ⟨frame, each⟩ := ih (s := s.endRevertErase r) (by rw [first]; exact h)
    rw [List.foldl_cons]
    refine ⟨.trans (by rw [State.EndsErases, first]; rfl) frame, fun q => ?_⟩
    obtain ⟨inside, outside⟩ := each q
    rw [stored, regions] at inside
    rw [keys, regions] at outside
    by_cases hq : q = r
    · rw [if_pos hq] at inside outside
      rw [if_pos hq] at outside
      refine ⟨fun _ => ?_, fun hn => absurd (hq ▸ List.mem_cons_self) hn⟩
      by_cases again : q ∈ l
      · exact inside again
      · exact outside again
    · rw [if_neg hq] at inside outside
      rw [if_neg hq] at outside
      rw [List.mem_cons, or_iff_right hq]
      exact ⟨inside, outside⟩

/-- The revert unit's write has failed, while no other party erases (R164). -/
theorem State.revertUnsafe_ends {id : Nat} (own : ∀ e ∈ s.erases, e.party = .revert)
    (current : s.management.current = some id) : ∃ t, s.revertUnsafe id = t
      ∧ t = { s with
        work := { s.work with keys := t.work.keys }, regions := t.regions
        erases := [], reverting := false, revertRequest := none, management := s.replied 0x19 .storeUnsafe [] }
      ∧ ∀ r : RegionIx, ((∃ e ∈ s.erases, e.region = r) → t.work.keys[r] = s.stored.keys[r]
            ∧ t.regions[r] = { s.regions[r] with eraseHold := false })
          ∧ ((∀ e ∈ s.erases, e.region ≠ r) → t.work.keys[r] = s.work.keys[r]
            ∧ t.regions[r] = s.regions[r]) := by
  have none_left : s.erases.filter (fun e => e.party != .revert) = [] := by
    simpa using own
  have all : s.erases.filter (fun e => e.party == .revert) = s.erases := by
    simpa using own
  let ended : State := { s with erases := [], reverting := false, revertRequest := none }
  obtain ⟨frame, each⟩ := State.foldl_endRevertErase (s := ended) rfl (s.erases.map (·.region))
  have failed_eq : s.revertUnsafe id = ((s.erases.map (·.region)).foldl (fun u r => u.endRevertErase r) ended).reply id
      0x19 .storeUnsafe [] := by
    rw [State.revertUnsafe, none_left, all]
  generalize (s.erases.map (·.region)).foldl (fun u r => u.endRevertErase r) ended = b at frame each failed_eq
  refine ⟨_, rfl, ?_, fun r => ⟨fun ⟨e, he, hr⟩ => ?_, fun other => ?_⟩⟩
  all_goals rw [failed_eq, State.reply_current (by rw [frame]; exact current)]
  · rw [frame]
    rfl
  · exact (each r).1 (List.mem_map.mpr ⟨e, he, hr⟩)
  · refine (each r).2 fun hr => ?_
    obtain ⟨e, he, hr⟩ := List.mem_map.mp hr
    exact other e he hr

end Sys2Proof.Machine
end

section
/-! PROOFS. The revert unit answered done (R153, R155, R157, R163): what every block then holds, and the walk of region
0 with the scrub option, started or held. -/

namespace Sys2Proof.Machine

variable {s t u : State} {image : Records}

/-! ### Keys that at most become unloaded (R54) -/

/-- Each key slot is as it was, or has become unloaded. -/
def State.UnloadsKeys (s t : State) : Prop :=
  ∀ r : RegionIx, t.keys[r] = s.keys[r] ∨ t.keys[r] = { s.keys[r] with loaded := none }

theorem State.UnloadsKeys.refl (s : State) : s.UnloadsKeys s := fun _ => .inl rfl

theorem State.UnloadsKeys.trans (f : s.UnloadsKeys t) (g : t.UnloadsKeys u) : s.UnloadsKeys u := fun r => by
  rcases g r with e | e <;> rw [e]
  · exact f r
  · rcases f r with h | h <;> rw [h] <;> exact .inr rfl

theorem State.UnloadsKeys.drawn (f : s.UnloadsKeys t) (r : RegionIx) :
    t.keys[r].highestDrawn = s.keys[r].highestDrawn := by
  rcases f r with e | e <;> rw [e]

theorem State.UnloadsKeys.loaded (f : s.UnloadsKeys t) (r : RegionIx) :
    t.keys[r].loaded = s.keys[r].loaded ∨ t.keys[r].loaded = none := by
  rcases f r with e | e <;> rw [e]
  · exact .inl rfl
  · exact .inr rfl

theorem State.unloads_lockBoth (r : RegionIx) : s.UnloadsKeys (s.lockBoth r) := fun q => by
  rcases State.lockBoth_keys (s := s) r with h | ⟨-, h⟩
  · exact .inl (getElem_congr_table h q)
  · rw [getElem_congr_table h q, getElem_set_fin]
    split
    · rename_i same
      rw [same]
      exact .inr rfl
    · exact .inl rfl

theorem State.unloads_lockAll : s.UnloadsKeys s.lockAll :=
  foldl_relates State.UnloadsKeys State.UnloadsKeys.refl (fun _ _ _ => State.UnloadsKeys.trans) _
    (fun _ r => State.unloads_lockBoth r) _ s

theorem State.unloads_unloadOldHead (old : Option RegionIx) : s.UnloadsKeys (s.unloadOldHead old) := fun q => by
  unfold State.unloadOldHead
  split
  · rw [State.unloadTest_keys]
    split
    · exact .inr rfl
    · exact .inl rfl
  · exact .inl rfl

/-! ### Every block at the done answer (R163) -/

/-- The scrub engine as a revert leaves it, with this scrub list: its chunks at the media are stale (R153, R163). -/
def State.revertedEngine (s : State) (list : List ScrubEntry) : ScrubEngine :=
  { s.scrub with
    phase := if list = [] then .idle else .held
    walkGeneration := 0
    issue := list.head?.map (·.cursor)
    checkpoint := (list.head?.map (·.cursor)).getD 0
    formed := s.atMedia
    earlier := s.atMedia.map FormedChunk.chunk }

/-- All blocks have taken what the revert unit wrote, and no walk has started yet (R163). -/
def State.revertedBy (s : State) (image : Records) : State :=
  ((s.written image).takeReverted.clearReverted.settleHead).unloadOldHead s.scrubHead

theorem State.unloadOldHead_frame (old : Option RegionIx) :
    s.unloadOldHead old = { s with keys := (s.unloadOldHead old).keys } := by
  unfold State.unloadOldHead
  split
  · exact State.unloadTest_frame _
  · rfl

theorem State.unloadOldHead_regions (old : Option RegionIx) : (s.unloadOldHead old).regions = s.regions := by
  rw [State.unloadOldHead_frame]

theorem State.clearReverted_engine (s : State) : s.clearReverted.scrub = { s.scrub with
    walkGeneration := 0, issue := none, checkpoint := 0, formed := s.atMedia
    earlier := s.atMedia.map FormedChunk.chunk } := by
  simp [State.clearReverted, ScrubEngine.outdate, State.atMedia]

theorem State.settleHead_eq (b : State) : b.settleHead = { b with
    scrub := { b.scrub with
      phase := if b.work.scrubList = [] then .idle else .held
      issue := if b.work.scrubList = [] then b.scrub.issue else b.work.scrubList.head?.map (·.cursor)
      checkpoint := if b.work.scrubList = [] then b.scrub.checkpoint
        else (b.work.scrubList.head?.map (·.cursor)).getD 0 }
    port := if b.work.scrubList = [] then { b.port with acc := 0, credit := 0 } else b.port } := by
  unfold State.settleHead
  split
  · rename_i list
    simp [list]
  · rename_i list
    simp [list]

theorem State.revertedBy_frame (s : State) (image : Records) : s.revertedBy image = { s with
    sent := [], stored := image, store := emptyStore, work := image
    boundary := boundaryOf image.regions, regions := (s.revertedBy image).regions, keys := (s.revertedBy image).keys
    credentials := tabMap (fun x => { x with backoff := 0 }) s.credentials
    revertBackoff := 0, window := ⟨.off, false⟩, tamper := s.tamper.cleared
    erases := [], reverting := false, revertRequest := none
    response := { s.response with
      triggers := [], running := none, answerDue := false, count := 0, countResetDue := false }
    port := { s.port with acc := 0, credit := 0 }
    scrub := s.revertedEngine image.scrubList } := by
  have taken := State.takeReverted_eq (s := s.written image)
  have engine := (s.written image).takeReverted.clearReverted_engine
  have cleared : (s.written image).takeReverted.clearReverted.settleHead = { s with
      sent := [], stored := image, store := emptyStore, work := image
      boundary := boundaryOf image.regions
      regions := (s.written image).takeReverted.regions, keys := (s.written image).takeReverted.keys
      credentials := tabMap (fun x => { x with backoff := 0 }) s.credentials
      revertBackoff := 0, window := ⟨.off, false⟩, tamper := s.tamper.cleared
      erases := [], reverting := false, revertRequest := none
      response := { s.response with
        triggers := [], running := none, answerDue := false, count := 0, countResetDue := false }
      port := { s.port with acc := 0, credit := 0 }
      scrub := s.revertedEngine image.scrubList } := by
    rw [State.settleHead_eq, engine, State.clearReverted, State.revertedEngine]
    generalize (s.written image).takeReverted = b at taken
    rw [taken]
    cases list : image.scrubList <;> simp [list, State.written, emptyStore, State.atMedia]
  have regions : (s.revertedBy image).regions = (s.written image).takeReverted.regions := by
    refine (State.unloadOldHead_regions _).trans ?_
    rw [cleared]
  refine (State.unloadOldHead_frame _).trans ?_
  rw [regions]
  exact congrArg (fun x : State => { x with keys := (s.revertedBy image).keys }) cleared

theorem State.revertedBy_regions (r : RegionIx) :
    (s.revertedBy image).regions[r] = ⟨.locked, .locked, false, s.regions[r].admitted⟩ := by
  obtain ⟨-, -, -, regions⟩ := (s.written image).takeReverted_look
  have same : (s.revertedBy image).regions
      = tabMap (fun x => { x with eraseHold := false }) (s.written image).lockAll.regions :=
    (State.unloadOldHead_regions _).trans regions
  rw [getElem_congr_table same]
  refine (getElem_tabMap _ _ _ _).trans ?_
  exact congrArg (fun x : RegionStatus => { x with eraseHold := false })
    (State.lockAll_regions (s := s.written image) r)

theorem State.unloads_revertedBy (s : State) (image : Records) : s.UnloadsKeys (s.revertedBy image) := by
  obtain ⟨-, -, keys, -⟩ := (s.written image).takeReverted_look
  have locked : s.UnloadsKeys (s.written image).lockAll := State.unloads_lockAll (s := s.written image)
  refine State.UnloadsKeys.trans (t := (s.written image).takeReverted.clearReverted.settleHead) (fun r => ?_)
    (State.unloads_unloadOldHead _)
  rw [keys]
  exact locked r

/-- The REVERTED alert is queued, and the reply given (R163). -/
def State.revertAnswered (s : State) (image : Records) : State :=
  { s.revertedBy image with
    alerts := s.alerts.arrive ⟨.reverted, .high, none, none, none, s.time.stamp, 0⟩
    management := s.replied 0x19 .done [] }

theorem State.revertAnswered_frame (s : State) (image : Records) : s.revertAnswered image = { s with
    sent := [], stored := image, store := emptyStore, work := image
    boundary := boundaryOf image.regions, regions := (s.revertedBy image).regions, keys := (s.revertedBy image).keys
    credentials := tabMap (fun x => { x with backoff := 0 }) s.credentials
    revertBackoff := 0, window := ⟨.off, false⟩, tamper := s.tamper.cleared
    erases := [], reverting := false, revertRequest := none
    response := { s.response with
      triggers := [], running := none, answerDue := false, count := 0, countResetDue := false }
    port := { s.port with acc := 0, credit := 0 }
    scrub := s.revertedEngine image.scrubList
    alerts := s.alerts.arrive ⟨.reverted, .high, none, none, none, s.time.stamp, 0⟩
    management := s.replied 0x19 .done [] } := by
  have frame := s.revertedBy_frame image
  unfold State.revertAnswered
  generalize s.revertedBy image = b at frame ⊢
  rw [frame]

/-- What every done answer of the revert unit leaves (R153, R163); the walk of a scrub moves the rest. -/
def State.Reverted (s : State) (image : Records) (t : State) : Prop :=
  t = { s with
      sent := t.sent, stored := image, store := emptyStore, work := t.work
      boundary := boundaryOf image.regions, regions := t.regions, keys := t.keys
      credentials := t.credentials, revertBackoff := 0, window := ⟨.off, false⟩
      tamper := t.tamper, erases := [], reverting := false, revertRequest := none
      response := { s.response with
        triggers := [], running := none, answerDue := false, count := 0, countResetDue := false }
      port := t.port, scrub := t.scrub
      alerts := s.alerts.arrive ⟨.reverted, .high, none, none, none, s.time.stamp, 0⟩
      management := s.replied 0x19 .done [] }
  ∧ (∀ r : RegionIx, t.regions[r] = ⟨.locked, .locked, false, s.regions[r].admitted⟩
      ∧ t.keys[r].highestDrawn = s.keys[r].highestDrawn)
  ∧ (∀ c : CredIx, t.credentials[c] = { s.credentials[c] with backoff := 0 })
  ∧ (∀ n : LineIx, t.tamper.lines[n] = { s.tamper.lines[n] with latched := false })
  ∧ (∀ g : Group, t.tamper.armed g = false)

theorem State.Reverted.of_answered (h : t = { s.revertAnswered image with
      work := t.work, keys := t.keys, port := t.port, sent := t.sent, scrub := t.scrub })
    (drawn : ∀ r : RegionIx, t.keys[r].highestDrawn = s.keys[r].highestDrawn) : s.Reverted image t := by
  have frame := s.revertAnswered_frame image
  have regions : t.regions = (s.revertedBy image).regions := by rw [h, frame]
  have credentials : t.credentials = tabMap (fun x => { x with backoff := 0 }) s.credentials := by rw [h, frame]
  have tamper : t.tamper = s.tamper.cleared := by rw [h, frame]
  refine ⟨?_, fun r => ⟨?_, drawn r⟩, fun c => ?_, fun n => ?_, fun g => ?_⟩
  · rw [regions, credentials, tamper]
    rw [frame] at h
    exact h
  · rw [getElem_congr_table regions, State.revertedBy_regions]
  · rw [getElem_congr_table credentials]
    exact getElem_tabMap _ _ _ _
  · rw [tamper]
    exact getElem_tabMap _ _ _ _
  · rw [tamper]
    cases g <;> rfl

/-! ### The event of the answer -/

/-- The answer's reply and alert go on from where the walk may have started. -/
theorem State.revertDone_eq {id : Nat} (current : s.management.current = some id) {x : State}
    (walked : (s.revertedBy image).startWalkIfDue = x)
    (frame : x = { s.revertedBy image with work := x.work, keys := x.keys, scrub := x.scrub }) :
    (s.written image).revertDone id
      = { s.revertAnswered image with work := x.work, keys := x.keys, scrub := x.scrub } := by
  have base := s.revertedBy_frame image
  have done : (s.written image).revertDone id
      = ((s.revertedBy image).startWalkIfDue.alert .reverted .high none none none 0).reply id 0x19 .done [] := rfl
  have management : (s.revertedBy image).management = s.management := by rw [base]
  have alerts : (s.revertedBy image).alerts = s.alerts := by rw [base]
  have time : (s.revertedBy image).time = s.time := by rw [base]
  rw [done, walked]
  unfold State.revertAnswered State.replied
  generalize s.revertedBy image = b at *
  rw [State.reply_current (by rw [frame]; exact management.symm ▸ current), frame]
  simp only [State.alert, management, alerts, time]

theorem State.nextGrant_reverted (h : s.nextGrant = .nothing) (slots : t.port.slots = s.port.slots)
    (queue : t.port.queue = s.port.queue) (offer : t.offer = none) : t.nextGrant = .nothing := by
  rw [State.nextGrant_nothing_iff] at h ⊢
  rw [State.freeSlot, slots, queue]
  exact h.imp_right fun both => ⟨offer, both.2⟩

theorem State.revertAnswered_offer (s : State) (image : Records) : (s.revertAnswered image).offer = none := by
  rw [State.offer_eq_none_iff, State.revertAnswered_frame]
  rintro f hf place
  have media : f.place = .atMedia := by simpa using (List.mem_filter.mp hf).2
  cases media.symm.trans place

/-- Where no walk is due the event ends with the answer. -/
theorem exec_revert_rests {id : Nat} {scrub : Bool} (phase : s.startUp.phase ≠ .resuming)
    (grant : s.nextGrant = .nothing) (hw : s.Writes (.revert id scrub) image) (current : s.management.current = some id)
    (rests : (s.revertedBy image).walkDue = false) :
    exec .commitWriteEnd s = .next (s.revertAnswered image) := by
  have frame := s.revertAnswered_frame image
  have done := State.revertDone_eq current (State.startWalkIfDue_of_not_due rests) rfl
  have due : (s.revertAnswered image).walkDue = false := rests
  have offer := s.revertAnswered_offer image
  rw [exec_commitWriteEnd_settled hw done (by rw [frame]; rfl)]
  change Host.Outcome.next (s.revertAnswered image).settle = _
  generalize s.revertAnswered image = b at frame due offer
  refine congrArg _ (State.settle_of_still ⟨fun _ => ?_, State.destructionsDue_of_no_erase ?_, ?_, due,
    ⟨?_, State.nextGrant_reverted grant ?_ ?_ offer⟩, .inl ?_⟩)
  · rw [frame]
  · rw [frame]
  · rw [frame]; exact phase
  · rw [frame]
    simp only [State.revertedEngine]
    split <;> simp
  · rw [frame]
  · rw [frame]
  · rw [frame]; rfl

/-! ### The walk that the scrub option asks for (R155, R157) -/

/-- Chunks issued before the REVERT hold the head back (R157). -/
theorem State.walkDue_reverted_held (list : image.scrubList = [⟨0, 0⟩]) (some_left : s.atMedia ≠ []) :
    (s.revertedBy image).walkDue = false := by
  have frame := s.revertedBy_frame image
  have head : (s.revertedBy image).scrubHead = some 0 := by rw [frame, State.scrubHead, list]; rfl
  obtain ⟨f, hf⟩ := List.exists_mem_of_ne_nil _ some_left
  have media : f.place = .atMedia := by simpa using (List.mem_filter.mp hf).2
  have stale : (s.revertedBy image).scrub.formed.any (fun f => f.place == .atMedia
      && (f.chunk.region != (0 : RegionIx)
        || f.chunk.generation != (s.revertedBy image).stored.keys[(0 : RegionIx)].generation
        || (s.revertedBy image).scrub.earlier.contains f.chunk)) = true := by
    rw [frame]
    refine List.any_eq_true.mpr ⟨f, hf, ?_⟩
    have listed : f.chunk ∈ s.atMedia.map FormedChunk.chunk := List.mem_map_of_mem hf
    rw [Bool.and_eq_true, Bool.or_eq_true]
    exact ⟨beq_iff_eq.mpr media, .inr (List.contains_iff_mem.mpr listed)⟩
  have held : (s.revertedBy image).headHeld 0 = true := by
    rw [State.headHeld, stale, Bool.or_true, Bool.true_or]
  simp [State.walkDue, head, held]

/-- With nothing at the media and no DEFINE-REGION nothing holds region 0 back (R157). -/
theorem State.walkDue_reverted (list : image.scrubList = [⟨0, 0⟩]) (running : s.startUp.phase = .running)
    (undefined : s.define = none) (none_left : s.atMedia = []) :
    (s.revertedBy image).scrubHead = some 0 ∧ (s.revertedBy image).headHeld 0 = false
      ∧ (s.revertedBy image).walkDue = true := by
  have frame := s.revertedBy_frame image
  have head : (s.revertedBy image).scrubHead = some 0 := by rw [frame, State.scrubHead, list]; rfl
  have hold : (s.revertedBy image).regions[(0 : RegionIx)].eraseHold = false := by rw [State.revertedBy_regions]
  have engine : (s.revertedBy image).scrub = s.revertedEngine image.scrubList := by rw [frame]
  have formed : (s.revertedBy image).scrub.formed = [] := by rw [engine]; exact none_left
  have phase : (s.revertedBy image).scrub.phase = .held := by rw [engine, State.revertedEngine, list]; rfl
  have define : (s.revertedBy image).defineHolds = false := by
    have same : (s.revertedBy image).define = none := by rw [frame]; exact undefined
    rw [State.defineHolds, same]
  have unheld : (s.revertedBy image).headHeld 0 = false := by
    rw [State.headHeld, hold, formed, define]
    rfl
  have runs : (s.revertedBy image).isRunning = true := by
    rw [State.isRunning, frame]
    exact beq_iff_eq.mpr running
  exact ⟨head, unheld, by simp [State.walkDue, head, unheld, phase, runs]⟩

/-- Where no region 1 to 15 is enabled, region 0's walk takes up to 64 blocks from the issue position (R155). -/
theorem State.nextChunk_of_none_enabled (others : ∀ r : RegionIx, r ≠ 0 → s.work.regions[r].enabled = false)
    (boundary : s.boundary = boundaryOf s.work.regions) (room : 0 < s.geometry.capacity) :
    s.nextChunk 0 0 = some (0, min 64 s.geometry.capacity) := by
  have nowhere : s.regionAt 0 = none := by
    rw [Option.eq_none_iff_forall_ne_some]
    intro r found
    obtain ⟨hr, contains⟩ := State.regionAt_eq_some found
    exact Bool.false_ne_true ((others r hr).symm.trans (RegionRecord.contains_iff.mp contains).1)
  have none_listed : s.boundary = [] := by
    rw [boundary, List.eq_nil_iff_forall_not_mem]
    intro b hb
    obtain ⟨r, hr, enabled, -⟩ := mem_boundaryOf.mp hb
    exact Bool.false_ne_true ((others r hr).symm.trans enabled)
  have stays : s.skipEnabled 15 0 = 0 := by rw [State.skipEnabled, nowhere]
  have unbounded : s.nextStart 0 = none := by rw [State.nextStart, none_listed]; rfl
  rw [State.nextChunk, if_pos rfl, stays]
  dsimp only
  rw [if_neg (Nat.not_le.mpr room), unbounded]
  simp

/-! ### A port without credit (R64) -/

theorem State.grantChunk_port (i : SlotIx) (c : Chunk) : (s.grantChunk i c).port.credit = s.port.credit
    ∧ (s.grantChunk i c).port.queue = s.port.queue := by
  rw [State.grantChunk_eq, State.placeOffer_frame]
  exact ⟨rfl, rfl⟩

theorem State.nextGrant_of_no_credit (queue : s.port.queue = []) (credit : s.port.credit = 0) :
    s.nextGrant = .nothing ∨ ∃ i c, s.nextGrant = .chunk i c := by
  unfold State.nextGrant
  rw [queue, credit]
  cases s.freeSlot with
  | none => exact .inl rfl
  | some i =>
    cases s.offer with
    | none => exact .inl rfl
    | some c => exact .inr ⟨i, c, rfl⟩

theorem State.arbitrate_no_credit (n : Nat) (s : State) (queue : s.port.queue = []) (credit : s.port.credit = 0) :
    (s.arbitrate n).port.credit = 0 := by
  induction n generalizing s with
  | zero => exact credit
  | succ n ih =>
    unfold State.arbitrate
    rcases State.nextGrant_of_no_credit queue credit with grant | ⟨i, c, grant⟩
    · rw [grant]
      exact credit
    · rw [grant]
      obtain ⟨same_credit, same_queue⟩ := s.grantChunk_port i c
      exact ih (s.grantChunk i c) (same_queue.trans queue) (same_credit.trans credit)

/-- Where no host segment can be granted, a port without credit earns none (R64, R65). -/
theorem State.serveMedia_no_credit (waits : s.port.queue = [] ∨ s.freeSlot = none) (credit : s.port.credit = 0) :
    s.serveMedia.port.credit = 0 := by
  have granted : (s.placeOffer.arbitrate 16).port.credit = 0 := by
    have frame := s.placeOffer_frame
    generalize s.placeOffer = b at frame
    rcases waits with empty | full
    · exact State.arbitrate_no_credit 16 b (by rw [frame]; exact empty) (by rw [frame]; exact credit)
    · rw [State.arbitrate_of_nothing (State.nextGrant_nothing_iff.mpr (.inl (by rw [frame]; exact full))), frame]
      exact credit
  rw [State.serveMedia, State.tryFinish_frame]
  exact granted

theorem State.startWalk_highestDrawn (q : RegionIx) : s.startWalk.keys[q].highestDrawn = s.keys[q].highestDrawn := by
  have loaded (b : State) (h : RegionIx) (same : b.keys = s.keys) :
      (b.loadKey h).keys[q].highestDrawn = s.keys[q].highestDrawn := by
    rw [State.loadKey_highestDrawn, getElem_congr_table same]
  unfold State.startWalk
  dsimp only
  repeat' split
  all_goals simp only [State.tryFinish_rest, State.scrubFault_rest]
  · exact loaded _ _ rfl
  · exact loaded _ _ rfl

/-- Region 0 SCRUBBING in these records. -/
def Records.scrubbing (p : Records) : Records :=
  { p with regions := p.regions.set 0 { p.regions[(0 : RegionIx)] with condition := .scrubbing } }

theorem Records.scrubbing_other (p : Records) {r : RegionIx} (hr : r ≠ 0) : p.scrubbing.regions[r] = p.regions[r] :=
  (getElem_set_fin ..).trans (if_neg hr)

/-- The revert unit has been answered, and the walk of region 0 has started, with these keys (R155, R163). -/
def State.revertWalking (s : State) (image : Records) (keys : Vector KeySlot 16) : State :=
  { s.revertAnswered image with
    work := image.scrubbing
    keys := keys
    scrub := { s.revertedEngine [⟨0, 0⟩] with
      phase := .walking, walkGeneration := image.keys[(0 : RegionIx)].generation } }

theorem State.revertDone_walks {id : Nat} (running : s.startUp.phase = .running)
    (current : s.management.current = some id) (list : image.scrubList = [⟨0, 0⟩]) (undefined : s.define = none)
    (none_left : s.atMedia = [])
    (material : ∃ m, image.keys[(0 : RegionIx)].material = some m ∧ m.integrity = s.fuses.rootKey) :
    ∃ keys : Vector KeySlot 16, (s.written image).revertDone id = s.revertWalking image keys
      ∧ keys[(0 : RegionIx)].loaded.isSome = true
      ∧ ∀ r : RegionIx, keys[r].highestDrawn = s.keys[r].highestDrawn := by
  have base := s.revertedBy_frame image
  obtain ⟨head, unheld, due⟩ := State.walkDue_reverted list running undefined none_left
  have loads : (s.revertedBy image).MaterialLoads 0 := by rw [base]; exact material
  obtain ⟨started, loaded⟩ := State.startWalk_of_loadable head unheld (State.loadKey_isSome (.inr loads))
  have drawn (r : RegionIx) : (s.revertedBy image).startWalk.keys[r].highestDrawn = s.keys[r].highestDrawn := by
    rw [State.startWalk_highestDrawn]
    exact (s.unloads_revertedBy image).drawn r
  have records : (s.revertedBy image).startWalk.work = image.scrubbing := by
    rw [started, base]
    rfl
  have engine : (s.revertedBy image).startWalk.scrub = { s.revertedEngine [⟨0, 0⟩] with
      phase := .walking, walkGeneration := image.keys[(0 : RegionIx)].generation } := by
    rw [started, base, list]
  have done := State.revertDone_eq current (if_pos due) (x := (s.revertedBy image).startWalk) (by rw [started])
  rw [records, engine] at done
  exact ⟨_, done, loaded, drawn⟩

section
variable {keys : Vector KeySlot 16}

theorem State.revertWalking_frame (s : State) (image : Records) (keys : Vector KeySlot 16) :
    s.revertWalking image keys = { s with
      sent := [], stored := image, store := emptyStore, work := image.scrubbing
      boundary := boundaryOf image.regions, regions := (s.revertedBy image).regions, keys := keys
      credentials := tabMap (fun x => { x with backoff := 0 }) s.credentials
      revertBackoff := 0, window := ⟨.off, false⟩, tamper := s.tamper.cleared
      erases := [], reverting := false, revertRequest := none
      response := { s.response with
        triggers := [], running := none, answerDue := false, count := 0, countResetDue := false }
      port := { s.port with acc := 0, credit := 0 }
      scrub := { s.revertedEngine [⟨0, 0⟩] with
        phase := .walking, walkGeneration := image.keys[(0 : RegionIx)].generation }
      alerts := s.alerts.arrive ⟨.reverted, .high, none, none, none, s.time.stamp, 0⟩
      management := s.replied 0x19 .done [] } := by
  rw [State.revertWalking, State.revertAnswered_frame]

theorem State.revertWalking_head (list : image.scrubList = [⟨0, 0⟩]) :
    (s.revertWalking image keys).scrubHead = some 0 := by
  show (image.scrubList.head?.map (·.region)) = some 0
  rw [list]
  rfl

/-- The first chunk of the walk begins at LBA 0 (R155). -/
theorem State.revertWalking_nextChunk (room : 0 < s.geometry.capacity)
    (others : ∀ r : RegionIx, r ≠ 0 → image.regions[r].enabled = false) :
    (s.revertWalking image keys).nextChunk 0 0 = some (0, min 64 s.geometry.capacity) := by
  have frame := s.revertWalking_frame image keys
  have work : (s.revertWalking image keys).work = image.scrubbing := rfl
  have boundary : (s.revertWalking image keys).boundary = boundaryOf image.regions := by rw [frame]
  have geometry : (s.revertWalking image keys).geometry = s.geometry := by rw [frame]
  have same : boundaryOf image.regions = boundaryOf image.scrubbing.regions := boundaryOf_congr fun r hr => by
    rw [Records.scrubbing_other image hr]
    exact ⟨rfl, rfl⟩
  rw [← geometry] at room ⊢
  refine State.nextChunk_of_none_enabled (fun r hr => ?_) (by rw [boundary, same, work]) room
  rw [work, Records.scrubbing_other image hr]
  exact others r hr

/-- Nothing but the walk goes on in the event of the answer. -/
theorem State.revertWalking_settle (running : s.startUp.phase = .running) (list : image.scrubList = [⟨0, 0⟩])
    {h : RegionIx} (serves : State.ScrubServes h (s.revertWalking image keys) (s.revertWalking image keys).serveMedia) :
    (s.revertWalking image keys).settle = (s.revertWalking image keys).serveMedia := by
  have frame := s.revertWalking_frame image keys
  have head := State.revertWalking_head (s := s) (keys := keys) list
  obtain ⟨served, -⟩ := serves
  generalize s.revertWalking image keys = x at *
  have notDue : x.walkDue = false := by
    rw [State.walkDue, head, frame]
    simp
  rw [State.settle_to_walk, State.startWalkIfDue_of_not_due notDue, State.serveStore_empty]
  · rw [served, frame]; rfl
  · intro _
    rw [frame]
  · rw [frame]
    exact fun _ he => nomatch he
  · rw [frame]
    exact fun e => nomatch running.symm.trans e

end

/-- The walk of region 0 starts from LBA 0, and its first chunk is formed (R155). -/
theorem exec_revert_walks {id : Nat} {scrub : Bool} (running : s.startUp.phase = .running)
    (grant : s.nextGrant = .nothing) (hw : s.Writes (.revert id scrub) image)
    (current : s.management.current = some id) (list : image.scrubList = [⟨0, 0⟩]) (undefined : s.define = none)
    (none_left : s.atMedia = []) (room : 0 < s.geometry.capacity)
    (others : ∀ r : RegionIx, r ≠ 0 → image.regions[r].enabled = false)
    (material : ∃ m, image.keys[(0 : RegionIx)].material = some m ∧ m.integrity = s.fuses.rootKey) :
    ∃ t, exec .commitWriteEnd s = .next t
      ∧ t = { s.revertAnswered image with
        work := image.scrubbing, keys := t.keys, port := t.port, sent := t.sent, scrub := t.scrub }
      ∧ (∀ r : RegionIx, t.keys[r].highestDrawn = s.keys[r].highestDrawn)
      ∧ t.port.acc = 0 ∧ t.port.credit = 0 ∧ t.scrub.phase = .walking
      ∧ t.scrub.walkGeneration = image.keys[(0 : RegionIx)].generation ∧ t.scrub.checkpoint = 0
      ∧ t.keys[(0 : RegionIx)].loaded.isSome = true
      ∧ ∃ f ∈ t.scrub.formed, f.chunk
        = ⟨0, 0, min 64 s.geometry.capacity, image.keys[(0 : RegionIx)].generation⟩ := by
  obtain ⟨keys, done, loaded, drawn⟩ := State.revertDone_walks running current list undefined none_left material
  have frame := s.revertWalking_frame image keys
  have head := State.revertWalking_head (s := s) (keys := keys) list
  have next := State.revertWalking_nextChunk (keys := keys) room others
  have settles := State.revertWalking_settle (keys := keys) running list (h := 0)
  have answered : s.revertWalking image keys = { s.revertAnswered image with
    work := image.scrubbing, keys := keys, scrub := (s.revertWalking image keys).scrub } := rfl
  have run := exec_commitWriteEnd_settled hw done (by rw [frame]; rfl)
  generalize s.revertWalking image keys = x at *
  have keysX : x.keys = keys := by rw [frame]
  have loadedX : x.keys[(0 : RegionIx)].loaded.isSome = true := by rw [keysX]; exact loaded
  have portX : x.port = { s.port with acc := 0, credit := 0 } := by rw [frame]
  have waits : x.port.queue = [] ∨ x.freeSlot = none := by
    rw [State.freeSlot, portX]
    exact (State.nextGrant_nothing_iff.mp grant).symm.imp_left And.right
  have offered := State.placeOffer_new head (by rw [frame]) loadedX (by rw [frame]; exact none_left)
    (by rw [frame]; rfl) next
  obtain ⟨serves, chunk⟩ := State.serveMedia_serves_walk head waits loadedX
    (by rw [offered]; exact List.mem_singleton.mpr rfl)
  have generation : x.scrub.walkGeneration = image.keys[(0 : RegionIx)].generation := by rw [frame]
  rw [generation] at chunk
  have credit := State.serveMedia_no_credit waits (by rw [portX])
  rw [settles serves] at run
  obtain ⟨served, -⟩ := serves
  refine ⟨x.serveMedia, run, ?_, ?_, ?_, credit, ?_, ?_, ?_, ?_, ?_⟩
  · generalize x.serveMedia = v at served ⊢
    rw [served, answered]
  · rw [served, keysX]; exact drawn
  · rw [served, portX]
  · rw [served, frame]
  · rw [served, frame]
  · rw [served, frame]; rfl
  · rw [served]; exact loadedX
  · exact chunk

end Sys2Proof.Machine
end

section
/-! PROOFS. The done answer of the revert unit with other units behind it (R163, R166): those of the dropped response
leave the store's queue, and every other one stays. -/

namespace Sys2Proof.Machine

variable {s t u : State}

/-! ### Moves that lose no unit -/

/-- A move after which every unit is still queued or waiting, the response controller is as it was, and no unit of a
response has come. -/
structure State.Carries (s t : State) : Prop where
  kept : ∀ v ∈ s.units, v ∈ t.units
  added : ∀ v ∈ t.units, v ∈ s.units ∨ v.ofResponse = false
  response : t.response = s.response
  reverting : t.reverting = s.reverting
  erases : t.erases = s.erases
  startUp : t.startUp = s.startUp

theorem State.Carries.refl (s : State) : s.Carries s := ⟨fun _ h => h, fun _ h => .inl h, rfl, rfl, rfl, rfl⟩

theorem State.Carries.trans (f : s.Carries t) (g : t.Carries u) : s.Carries u where
  kept v h := g.kept v (f.kept v h)
  added v h := (g.added v h).elim (f.added v) .inr
  response := g.response.trans f.response
  reverting := g.reverting.trans f.reverting
  erases := g.erases.trans f.erases
  startUp := g.startUp.trans f.startUp

/-- The last of two moves named first, so that it says where the first one ends. -/
theorem State.Carries.after (g : t.Carries u) (f : s.Carries t) : s.Carries u := f.trans g

/-- What a move that loses no unit looks at. -/
def State.carryLook (s : State) : List CommitUnit × List CommitUnit × ResponseController × Bool × List EraseOperation
    × StartUp :=
  (s.store.queue, s.store.deferred, s.response, s.reverting, s.erases, s.startUp)

theorem State.Carries.of_look (h : t.carryLook = s.carryLook) : s.Carries t := by
  simp only [State.carryLook, Prod.mk.injEq] at h
  obtain ⟨queue, deferred, response, reverting, erases, startUp⟩ := h
  have units : t.units = s.units := by rw [State.units, State.units, queue, deferred]
  exact ⟨fun v h => units ▸ h, fun v h => .inl (units ▸ h), response, reverting, erases, startUp⟩

theorem State.carries_submit {v : CommitUnit} (h : v.ofResponse = false) : s.Carries (s.submit v) := by
  have frame := s.submit_frame v
  refine ⟨fun w hw => State.mem_units_submit.mpr (.inl hw), fun w hw => ?_, ?_, ?_, ?_, ?_⟩
  · exact (State.mem_units_submit.mp hw).imp_right fun e => by rw [e, h]
  all_goals rw [frame]

/-! ### The walk and the port -/

theorem State.carries_tryFinish : s.Carries s.tryFinish := by
  unfold State.tryFinish
  repeat' split
  · exact (State.carries_submit rfl).after (.of_look rfl)
  · exact .refl s
  · exact .refl s

theorem State.carries_startWalkIfDue : s.Carries s.startWalkIfDue := by
  unfold State.startWalkIfDue State.startWalk
  dsimp only
  repeat' split
  · exact .of_look rfl
  · exact .of_look rfl
  · exact .of_look (by simp [State.carryLook])
  · exact State.carries_tryFinish.after (.of_look (by simp [State.carryLook]))
  · exact .refl s

theorem State.carries_serveMedia : s.Carries s.serveMedia := by
  have placed : s.Carries s.placeOffer := .of_look (by rw [State.placeOffer_frame]; rfl)
  have granted (b : State) : b.Carries (b.arbitrate 16) := .of_look (by rw [State.arbitrate_frame]; rfl)
  exact State.carries_tryFinish.after (placed.trans (granted _))

theorem State.carries_serveStore : s.Carries s.serveStore := .of_look (by rw [State.serveStore_frame]; rfl)

theorem State.carries_settleHead : s.Carries s.settleHead := .of_look (by rw [State.settleHead_eq]; rfl)

theorem State.carries_unloadOldHead (old : Option RegionIx) : s.Carries (s.unloadOldHead old) :=
  .of_look (by rw [State.unloadOldHead_frame]; rfl)

/-! ### Units that wait inside the management engine (R166) -/

theorem CommitUnit.not_blocked {v : CommitUnit} (h : v.requester = .management) : s.deferredBlocked v = none := by
  cases v with
  | charge p secret => cases h
  | _ => rfl

/-- A unit that waited is submitted. -/
theorem State.carries_undefer {v : CommitUnit} (h : v ∈ s.store.deferred) :
    s.Carries ((s.dropDeferred v).submit v) := by
  have frame := (s.dropDeferred v).submit_frame v
  refine ⟨fun w hw => State.mem_units_submit.mpr ?_, fun w hw => .inl ?_, ?_, ?_, ?_, ?_⟩
  · by_cases same : w = v
    · exact .inr same
    · refine .inl (List.mem_append.mpr ((List.mem_append.mp hw).imp_right fun waits => ?_))
      exact (List.mem_erase_of_ne same).mpr waits
  · rcases State.mem_units_submit.mp hw with hw | rfl
    · exact List.mem_append.mpr ((List.mem_append.mp hw).imp_right List.mem_of_mem_erase)
    · exact List.mem_append_right _ h
  all_goals rw [frame]; rfl

/-- The first unit of the management engine that waits is submitted, and none is answered instead. -/
theorem State.carries_submitDeferred : s.Carries (s.submitDeferred .management) := by
  have upTo (n : Nat) : s.Carries (s.submitDeferredUpTo .management n) := by
    cases n with
    | zero => exact .refl s
    | succ n =>
      unfold State.submitDeferredUpTo
      split
      · exact .refl s
      · split
        · exact .refl s
        · rename_i v first
          have own : v.requester = .management := by simpa using List.find?_some first
          dsimp only
          rw [CommitUnit.not_blocked own]
          exact State.carries_undefer (List.mem_of_find?_eq_some first)
  exact upTo _

/-! ### The event of the answer (R163) -/

/-- All blocks have taken what the revert unit wrote, the units behind it among them. -/
def State.headReverted (s : State) (image : Records) : State :=
  (s.quiet.headWritten image).takeReverted.clearReverted

theorem State.headReverted_units (s : State) (image : Records) : (s.headReverted image).units
    = (s.store.queue.drop 1).filter (fun v => !v.ofResponse) ++ s.store.deferred.filter (fun v => !v.ofResponse) := by
  unfold State.headReverted
  rw [State.takeReverted_eq]
  rfl

/-- What the event of the answer looks at beside the units. -/
theorem State.headReverted_controller (s : State) (image : Records) : (s.headReverted image).response.triggers = []
    ∧ (s.headReverted image).response.running = none ∧ (s.headReverted image).reverting = false
    ∧ (s.headReverted image).erases = [] ∧ (s.headReverted image).startUp = s.startUp := by
  unfold State.headReverted
  rw [State.takeReverted_eq]
  exact ⟨rfl, rfl, rfl, rfl, rfl⟩

theorem State.carries_revertDone (image : Records) (id : Nat) :
    (s.headReverted image).Carries ((s.quiet.headWritten image).revertDone id) := by
  have answered (b : State) : b.Carries ((b.alert .reverted .high none none none 0).reply id 0x19 .done []) :=
    .of_look (by simp [State.carryLook])
  exact (answered _).after (State.carries_startWalkIfDue.after
    ((State.carries_unloadOldHead _).after State.carries_settleHead))

/-- Without a trigger and a crypto-erase the end of an event loses no unit. -/
theorem State.carries_settle (triggers : s.response.triggers = []) (erases : s.erases = [])
    (phase : s.startUp.phase ≠ .resuming) : s.Carries s.settle := by
  rw [State.settle_to_walk (fun _ => triggers) (by rw [erases]; exact fun _ he => nomatch he) phase]
  exact State.carries_serveStore.after (State.carries_serveMedia.after State.carries_startWalkIfDue)

/-- The done answer of a revert unit at the head of the queue. -/
theorem exec_revert_carries {id : Nat} {scrub : Bool} {rest : List CommitUnit} {image : Records}
    (phase : s.startUp.phase ≠ .resuming) (queue : s.store.queue = .revert id scrub :: rest)
    (writing : s.store.writing = some image) :
    ∃ t, exec .commitWriteEnd s = .next t ∧ (s.headReverted image).Carries t := by
  have run : exec .commitWriteEnd s = .next (s.quiet.answerDone (.revert id scrub) image) := by
    refine (show exec .commitWriteEnd s = .next s.quiet.writeEnds from rfl).trans (congrArg _ ?_)
    rw [State.writeEnds]
    simp only [State.quiet_store, queue, writing]
  obtain ⟨triggers, -, -, erases, startUp⟩ := s.headReverted_controller image
  have answered := (State.carries_revertDone (s := s) image id).trans State.carries_submitDeferred
  refine ⟨_, run, answered.trans (State.carries_settle ?_ ?_ ?_)⟩
  · rw [answered.response, triggers]
  · rw [answered.erases, erases]
  · rw [answered.startUp, startUp]
    exact phase

theorem CommitUnit.ofResponse_iff {v : CommitUnit} : v.ofResponse = true ↔
    v = .responseBegin ∨ v = .responseEnd ∨ ∃ r, v = .keyDestruction r := by
  cases v <;> simp [CommitUnit.ofResponse]

end Sys2Proof.Machine
end

section
/-! PROOFS. O43 settled. -/

namespace Sys2Proof.Proofs

open Sys2Proof Sys2Proof.Machine

/-- Settles O43, clause by clause: the units that change a credential, the secret unit, the revert charge, the contents
of the revert unit, its done answer alone and with units behind it, and the answer to its failed
write. -/
theorem credentialUnitsTakeEffect : Obligations.CredentialUnitsTakeEffect := by
  refine ⟨fun s u image id c calm queue deferred writing current => ?changed,
    fun s q v image calm alone current => ?secret,
    fun s id scrub code image calm alone current => ⟨fun wrong => ?wrong, ?right⟩,
    fun s => State.image_revert, fun s id scrub image phase grant alone current => ?reverted,
    fun s id scrub image rest phase queue writing => ?behind,
    fun s id scrub nanovolts phase grant list triggers own low current => ?failed⟩
  case changed =>
    have alone : s.Writes u image := ⟨queue, deferred, writing⟩
    refine ⟨?_, ?_, ?_, ?_⟩
    · rintro rfl
      exact exec_commitWriteEnd_calm calm alone (State.removeDone_current current) rfl rfl
    · rintro r g rfl
      exact exec_commitWriteEnd_calm calm alone (State.grantDone_current current) rfl rfl
    · rintro l rfl
      exact exec_commitWriteEnd_calm calm alone (State.limitDone_current current l) rfl rfl
    · rintro rfl
      exact exec_commitWriteEnd_calm calm alone (State.resetAttemptsDone_current current) rfl rfl
  case secret =>
    exact exec_commitWriteEnd_calm calm alone (State.secretDone_current current) rfl rfl
  case wrong =>
    have done := State.revertChargeDone_wrong (image := image) current wrong scrub
    rw [backoffFor_eq] at done
    exact exec_commitWriteEnd_calm calm alone done rfl rfl
  case right =>
    rintro rfl
    have list : s.work.scrubList = [] := by
      obtain ⟨-, -, -, list, -⟩ := calm
      exact list
    obtain ⟨frame, regions, begun⟩ := State.beginRevert_begins (s := s.revertCharged image) list id scrub
    have run := exec_revertCharge_right calm alone current
    unfold State.BeginsRevert at frame
    generalize (s.revertCharged image).beginRevert id scrub = b at frame regions begun run
    refine ⟨_, run, ?_, ?_, ?_, ?_, ?_, fun r => ?_, fun c => ?_, fun r enabled => ?_⟩
    all_goals simp only [State.serveStore_rest, State.destroyAllDue_rest, State.destroyAllDue_records]
    · rw [frame]; rfl
    · rw [frame]
    · rw [frame]
    · rw [frame]; rfl
    · rw [frame]; rfl
    · exact regions r
    · rw [frame]
      exact getElem_tabMap _ _ _ _
    · exact State.erases_destroyAllDue (begun r enabled)
  case reverted =>
    intro reverted formed
    have frame := s.revertAnswered_frame image
    have unloads := s.unloads_revertedBy image
    have rests : s.Reverted image (s.revertAnswered image) := .of_answered rfl unloads.drawn
    refine ⟨fun list => ?_, fun list running undefined =>
      ⟨fun some_left => ?_, fun none_left room others material _ => ?_⟩⟩
    · have idle : (s.revertedBy image).walkDue = false :=
        State.walkDue_of_no_list (by rw [s.revertedBy_frame]; exact list)
      refine ⟨_, exec_revert_rests phase grant alone current idle, rests, ?_, ?_, ?_, ?_, unloads.loaded⟩
      all_goals rw [frame]
      rw [list]
      rfl
    · refine ⟨_, exec_revert_rests phase grant alone current (State.walkDue_reverted_held list some_left), rests,
        ?_, ?_, ?_, ?_⟩
      all_goals rw [frame]
      rw [list]
      rfl
    · obtain ⟨t, run, walked, drawn, acc, credit, walking, generation, checkpoint, loaded, chunk⟩ :=
        exec_revert_walks running grant alone current list undefined none_left room others material
      have work : t.work = image.scrubbing := by rw [walked]
      refine ⟨t, run, State.Reverted.of_answered ?_ drawn, work, acc, credit, walking, generation, checkpoint, loaded,
        chunk⟩
      rw [work]
      exact walked
  case behind =>
    intro ofResponse
    have units := s.headReverted_units image
    rw [queue, List.drop_one, List.tail_cons, ← List.filter_append] at units
    obtain ⟨-, running, reverting, -, -⟩ := s.headReverted_controller image
    obtain ⟨t, run, carried⟩ := exec_revert_carries phase queue writing
    have listed (u : CommitUnit) : ¬ ofResponse u ↔ u.ofResponse = false := by
      rw [← Bool.not_eq_true, CommitUnit.ofResponse_iff]
    refine ⟨t, run, fun u hu => (listed u).mpr ?_, fun u hu other => carried.kept u ?_, ?_, ?_⟩
    · refine (carried.added u hu).elim (fun h => ?_) fun added => added
      rw [units] at h
      simpa using (List.mem_filter.mp h).2
    · rw [units]
      exact List.mem_filter.mpr ⟨hu, by rw [(listed u).mp other]; rfl⟩
    · rw [carried.response, running]
    · rw [carried.reverting, reverting]
  case failed =>
    obtain ⟨t, done, frame, each⟩ := State.revertUnsafe_ends
      (s := s.spurned (.revert id scrub) (conversionCode nanovolts.toNat)) own current
    have calm : t.Calm := by
      rw [frame]
      exact ⟨fun _ => triggers, rfl, phase, list, State.nextGrant_nothing_congr grant rfl rfl rfl⟩
    have run := exec_eighthLow low
    rw [show State.unitUnsafe (.revert id scrub) _ = t from done] at run
    have holdup : t.holdup = (s.spurned (.revert id scrub) (conversionCode nanovolts.toNat)).holdup := by rw [frame]
    refine ⟨t, run (by rw [frame]; rfl) calm, ?_, each⟩
    rw [holdup]
    exact frame

end Sys2Proof.Proofs
end

section
/-! PROOFS. O3 and O13 settled: the factory records (R25, R45, R77, R115, R133), the power-on values (R99), and the rise
and the fall of power-good. -/

namespace Sys2Proof.Machine

/-! ### The factory tables, entry by entry -/

/-- A table of one value with another in its first place. -/
theorem getElem_replicate_set_zero {α : Type} {n : Nat} [NeZero n] (x y : α) (i : Fin n) :
    ((Vector.replicate n x).set 0 y (Nat.pos_of_neZero n))[i] = if i = 0 then y else x :=
  (getElem_set_fin (Vector.replicate n x) 0 i y).trans (by simp)

theorem factoryRegions_getElem (r : RegionIx) : factoryRegions[r] = factoryRegion (r == 0) := by
  rw [factoryRegions, getElem_replicate_set_zero]
  split
  · rw [‹r = 0›]; rfl
  · rw [beq_eq_false_iff_ne.mpr ‹_›]

theorem factoryKeys_getElem (slot0 : WrappedKey) (r : RegionIx) :
    (factoryKeys slot0)[r] = ⟨1, if r = 0 then some slot0 else none⟩ := by
  rw [factoryKeys, getElem_replicate_set_zero]
  split <;> rfl

theorem factoryCredentials_getElem (c : CredIx) :
    factoryCredentials[c] = ⟨none, 0, if c = 0 then 10 else 5, []⟩ := by
  rw [factoryCredentials, getElem_replicate_set_zero]
  split <;> rfl

/-- The factory response table gives ADMIN-ATTEMPTS a RELOCK and every other source an ALERT (R133). -/
theorem State.entryOf_factory {s : State} (table : s.work.responseTable = factoryResponseTable) {n : SourceIx}
    (hn : n ≠ 0) : s.entryOf n = if n = 1 then ⟨.relock, .high⟩ else ⟨.alert, .low⟩ := by
  have entry : ∀ (m : SourceIx) (_ : m ≠ 0), factoryResponseTable[m.val - 1]'(by omega)
      = if m = 1 then ⟨.relock, .high⟩ else ⟨.alert, .low⟩ := by decide
  rw [State.entryOf_eq hn, ← entry n hn]
  simp only [table]

/-! ### The power-on values of the tables (R99) -/

/-- The volatile tables stand at their power-on values: rights LOCKED, nothing presented, slots FREE, lines
unlatched and groups not armed. -/
structure State.TablesAtPowerOn (s : State) : Prop where
  region : ∀ r : RegionIx, s.regions[r] = ⟨.locked, .locked, false, 0⟩
  credential : ∀ c : CredIx, s.credentials[c] = ⟨false, 0⟩
  slot : ∀ i : SlotIx, s.port.slots[i] = none
  line : ∀ n : LineIx, s.tamper.lines[n] = ⟨false, false, 0⟩
  armed : ∀ g : Group, s.tamper.armed g = false

theorem State.atPowerOn_tables (geometry : Geometry) (fuses : Fuses) (stored : Records)
    (offered pending : List Instr) : (State.atPowerOn geometry fuses stored offered pending).TablesAtPowerOn where
  region r := Vector.getElem_replicate r.isLt
  credential c := Vector.getElem_replicate c.isLt
  slot i := Vector.getElem_replicate i.isLt
  line n := Vector.getElem_replicate n.isLt
  armed g := by cases g <;> rfl

end Sys2Proof.Machine

namespace Sys2Proof.Proofs

open Sys2Proof Sys2Proof.Machine

/-- Settles O3: the first power-on after manufacture is `State.atPowerOn` over the factory records. -/
theorem resetIsFactory : Obligations.ResetIsFactory := by
  have tables : State.reset.TablesAtPowerOn := State.atPowerOn_tables ..
  have record (r : RegionIx) : State.reset.stored.regions[r] = factoryRegion (r == 0) := factoryRegions_getElem r
  have key (r : RegionIx) : State.reset.stored.keys[r] = ⟨1, if r = 0 then some ⟨0, 0⟩ else none⟩ :=
    factoryKeys_getElem _ r
  have slot (r : RegionIx) : State.reset.keys[r] = ⟨State.reset.stored.keys[r].generation, none⟩ :=
    keysAtPowerOn_get _ r
  refine ⟨rfl, rfl, rfl, fun r => ?_, fun c => ⟨factoryCredentials_getElem c, tables.credential c⟩,
    fun n hn => State.entryOf_factory rfl hn, fun n => Vector.getElem_replicate n.isLt, rfl, rfl, rfl, rfl, rfl, rfl,
    rfl, rfl, rfl, rfl, rfl, tables.slot, rfl, rfl, rfl, rfl, rfl, rfl, rfl, fun r => ?_, tables.line, tables.armed,
    rfl, rfl, rfl, rfl, rfl, rfl, rfl, rfl, rfl, rfl, rfl, rfl, rfl, rfl, rfl, rfl, rfl, rfl, rfl, rfl, rfl, rfl⟩
  · rw [slot, record, key]
    refine ⟨rfl, ?_, rfl, rfl, ?_, rfl, tables.region r⟩
    · by_cases h : r = 0 <;> simp [h, factoryRegion]
    · by_cases h : r = 0 <;> simp [h]
  · rw [record]
    exact ⟨rfl, rfl, rfl, rfl, rfl, rfl⟩

/-- Settles O13: the rise leaves `State.atPowerOn` over the stored records with their boundary list, and the fall is one
update of the start-up controller. -/
theorem powerGoodEvents : Obligations.PowerGoodEvents := by
  intro s
  have tables := State.atPowerOn_tables s.geometry s.fuses s.stored s.offered s.pending
  exact ⟨⟨_, rfl, rfl, rfl, rfl, rfl, rfl, fun r => ⟨tables.region r, keysAtPowerOn_get s.stored r⟩,
    tables.credential, rfl, rfl, rfl, tables.slot, rfl, rfl, rfl, rfl, rfl, rfl, rfl, rfl, rfl, rfl, rfl, rfl, rfl, rfl,
    rfl, rfl, rfl, rfl, tables.line, tables.armed, rfl, rfl, rfl, rfl, rfl, rfl, rfl, rfl, rfl⟩, rfl⟩

end Sys2Proof.Proofs
end

section
/-! PROOFS. O14 settled: the end of the store read (R34, R100), with the crystal seen early (R124, R126) and the
charges of the deadlines that are on (R101, R128 to R130). -/

namespace Sys2Proof.Machine

/-! ### The triggers that the response table gives (R135) -/

/-- The entries of sources triggered once each, in that order: those to which the table gives a level. -/
def State.tableTriggers (s : State) (sources : List SourceIx) : List PendingTrigger :=
  (sources.filter fun n => (s.entryOf n).level ≠ .none).map fun n =>
    ⟨n, (s.entryOf n).level, (s.entryOf n).severity, 0, 0⟩

section
variable (s : State) (sources : List SourceIx)

theorem State.sources_tableTriggers : (s.tableTriggers sources).map PendingTrigger.source =
    sources.filter fun n => (s.entryOf n).level ≠ .none := by
  simp [State.tableTriggers, Function.comp_def]

theorem State.mem_sources_tableTriggers (n : SourceIx) :
    n ∈ (s.tableTriggers sources).map PendingTrigger.source ↔ n ∈ sources ∧ (s.entryOf n).level ≠ .none := by
  simp [State.sources_tableTriggers]

theorem State.eq_of_mem_tableTriggers {e : PendingTrigger} (h : e ∈ s.tableTriggers sources) :
    e.source ∈ sources ∧ e = ⟨e.source, (s.entryOf e.source).level, (s.entryOf e.source).severity, 0, 0⟩ := by
  obtain ⟨n, hn, rfl⟩ := List.mem_map.mp h
  exact ⟨(List.mem_filter.mp hn).1, rfl⟩

variable {sources}

theorem State.enterTrigger_tableTriggers {n : SourceIx} (fresh : n ∉ sources) :
    enterTrigger n (s.entryOf n).level (s.entryOf n).severity 0 (s.tableTriggers sources)
      = s.tableTriggers (sources ++ [n]) := by
  by_cases level : (s.entryOf n).level = .none
  · rw [level, enterTrigger_none]
    simp [State.tableTriggers, level]
  · rw [enterTrigger_new level]
    · simp [State.tableTriggers, level]
    · exact fun x hx e => fresh (e ▸ (s.eq_of_mem_tableTriggers sources hx).1)

end

/-! ### Steps 2 to 4 of the start-up sequence, by what they change -/

/-- What steps 2 to 4 have made so far: the time source, the working deadline record, whether a charge is
submitted, the sources that have fired, and the alert queue. -/
structure StartSteps where
  source : TimeSource
  deadlines : DeadlineRecord
  charge : Bool
  fired : List SourceIx
  alerts : AlertQueue

/-- A state `s` that the store read left, gone through steps 2 to 4 as far as `c` says. -/
def State.through (s : State) (c : StartSteps) : State :=
  { s with
    startUp := { s.startUp with phase := .sampling }
    work := { s.work with deadlines := c.deadlines }
    store := { s.store with queue := if c.charge then [.deadlineCharge] else [] }
    time := { s.time with source := c.source }
    deadlines := { s.deadlines with chargeHeld := c.charge }
    response := { s.response with triggers := s.tableTriggers c.fired }
    alerts := c.alerts }

/-- A source fires: its trigger is handed, and its alert queued with a value (R126, R128, R129). -/
def State.fires (kind : AlertKind) (n : SourceIx) (value : Nat) (s : State) : State :=
  (s.trigger n).alert kind (s.severityFor n) (some n) none (some value) 0

theorem State.fireDeadline_eq (s : State) (n : SourceIx) (value : Nat) :
    s.fireDeadline n value = s.fires .deadline n value := rfl

theorem State.timeFault_eq (s : State) (value : Nat) : s.timeFault value =
    State.fires .timeFault srcTimeFault value { s with time := { s.time with source := .faulted } } := rfl

/-- A source fires: its alert has the severity of the response table and the stamp of the time base. -/
def StartSteps.fire (s : State) (kind : AlertKind) (n : SourceIx) (value : Nat) (c : StartSteps) : StartSteps :=
  { c with
    fired := c.fired ++ [n]
    alerts := c.alerts.arrive ⟨kind, s.severityFor n, some n, none, some value, s.time.stamp, 0⟩ }

/-- Step 2, with what was seen of the crystal before it (R124, R126). -/
def State.tickSteps (s : State) : StartSteps :=
  let c : StartSteps := ⟨s.time.source, s.work.deadlines, false, [], s.alerts⟩
  match s.time.early with
  | .nothing => c
  | .running => { c with source := .slow }
  | .late => StartSteps.fire s .timeFault srcTimeFault 1 { c with source := .faulted }

/-- Np is charged at step 3, and its deadline fires if Np then exceeds Dn (R129). -/
def StartSteps.chargeNp (s : State) (c : StartSteps) : StartSteps :=
  let np := min 255 (c.deadlines.np + 1)
  let t := { c with deadlines := { c.deadlines with np := np } }
  if c.deadlines.dn < np then t.fire s .deadline srcPowerOn np else t

/-- P is charged at step 4, and its deadline fires if P is then at least Dp (R128). -/
def StartSteps.chargeP (s : State) (c : StartSteps) : StartSteps :=
  let p := min 65535 (c.deadlines.p + c.deadlines.q)
  let t := { c with deadlines := { c.deadlines with p := p } }
  if c.deadlines.dp ≤ p then t.fire s .deadline srcPowered p else t

/-- A charge is submitted once a working count differs from the stored one (R130). -/
def StartSteps.ask (s : State) (c : StartSteps) : StartSteps :=
  { c with charge := c.charge ||
      decide (c.deadlines.p ≠ s.stored.deadlines.p ∨ c.deadlines.np ≠ s.stored.deadlines.np) }

section

/-! ### The model's steps on such states -/

variable {s : State} {c : StartSteps}

theorem State.through_fires {n : SourceIx} (fresh : n ∉ c.fired) (kind : AlertKind) (value : Nat) :
    (s.through c).fires kind n value = s.through (c.fire s kind n value) := by
  have entered := s.enterTrigger_tableTriggers fresh
  simp only [State.through, StartSteps.fire, ← entered]
  rfl

theorem State.through_chargeNp (fresh : srcPowerOn ∉ c.fired) :
    (s.through c).chargeNp = s.through (c.chargeNp s) := by
  let np := min 255 (c.deadlines.np + 1)
  let t := { c with deadlines := { c.deadlines with np := np } }
  change (if c.deadlines.dn < np then (s.through t).fireDeadline srcPowerOn np else s.through t)
    = s.through (if c.deadlines.dn < np then t.fire s .deadline srcPowerOn np else t)
  rw [apply_ite s.through, State.fireDeadline_eq, State.through_fires (c := t) fresh]

theorem State.through_chargeP (fresh : srcPowered ∉ c.fired) :
    (s.through c).chargeP = s.through (c.chargeP s) := by
  let p := min 65535 (c.deadlines.p + c.deadlines.q)
  let t := { c with deadlines := { c.deadlines with p := p } }
  change (if c.deadlines.dp ≤ p then (s.through t).fireDeadline srcPowered p else s.through t)
    = s.through (if c.deadlines.dp ≤ p then t.fire s .deadline srcPowered p else t)
  rw [apply_ite s.through, State.fireDeadline_eq, State.through_fires (c := t) fresh]

theorem State.through_askCharge : (s.through c).askCharge = s.through (c.ask s) := by
  unfold State.askCharge StartSteps.ask
  cases held : c.charge with
  | true => simp [State.through, held]
  | false =>
    by_cases moved : c.deadlines.p ≠ s.stored.deadlines.p ∨ c.deadlines.np ≠ s.stored.deadlines.np
    · simp [State.through, held, moved, State.submit, State.holds]
    · simp [State.through, held, moved]

theorem State.startTicks_eq (triggers : s.response.triggers = []) (queue : s.store.queue = [])
    (charge : s.deadlines.chargeHeld = false) : s.startTicks = s.through s.tickSteps := by
  have begun (source : TimeSource) : { s with
        startUp := { s.startUp with phase := .sampling }
        time := { s.time with source := source } }
      = s.through ⟨source, s.work.deadlines, false, [], s.alerts⟩ := by
    have response : { s.response with triggers := [] } = s.response := by rw [← triggers]
    have store : { s.store with queue := [] } = s.store := by rw [← queue]
    have deadlines : { s.deadlines with chargeHeld := false } = s.deadlines := by rw [← charge]
    simp [State.through, State.tableTriggers, response, store, deadlines]
  unfold State.startTicks State.tickSteps
  cases s.time.early with
  | nothing => exact begun _
  | running => exact begun .slow
  | late =>
    refine (State.timeFault_eq _ 1).trans ((congrArg _ (begun .faulted)).trans ?_)
    exact State.through_fires (by simp) .timeFault 1

/-- Steps 2 to 4 one after another, each charge where its deadline is on (R100, R101). -/
def State.startSteps (s : State) : StartSteps :=
  let c := s.tickSteps
  let n := if c.deadlines.dn ≠ 0 then (c.chargeNp s).ask s else c
  if n.deadlines.dp ≠ 0 then (n.chargeP s).ask s else n

theorem StartSteps.not_mem_fired_chargeNp {n : SourceIx} (other : n ≠ srcPowerOn) (h : n ∉ c.fired) :
    n ∉ (c.chargeNp s).fired := by
  unfold StartSteps.chargeNp StartSteps.fire
  dsimp only
  split <;> simp [h, other]

theorem State.not_mem_tickSteps_fired {n : SourceIx} (other : n ≠ srcTimeFault) : n ∉ s.tickSteps.fired := by
  unfold State.tickSteps
  dsimp only
  split <;> simp [StartSteps.fire, other]

theorem State.firstSteps_eq (triggers : s.response.triggers = []) (charge : s.deadlines.chargeHeld = false) :
    s.firstSteps = s.readStore.through s.readStore.startSteps := by
  have ticks : s.readStore.startTicks = _ := State.startTicks_eq triggers rfl charge
  unfold State.firstSteps
  rw [ticks]
  generalize s.readStore = t
  have fresh {n : SourceIx} (other : n ≠ srcTimeFault) := State.not_mem_tickSteps_fired (s := t) other
  have np : (if (t.through t.tickSteps).work.deadlines.dn ≠ 0 then (t.through t.tickSteps).chargeNp.askCharge
      else t.through t.tickSteps)
      = t.through (if t.tickSteps.deadlines.dn ≠ 0 then (t.tickSteps.chargeNp t).ask t else t.tickSteps) := by
    rw [State.through_chargeNp (fresh (by decide)), State.through_askCharge]
    exact (apply_ite t.through _ _ _).symm
  have unfired : srcPowered ∉ (if t.tickSteps.deadlines.dn ≠ 0 then (t.tickSteps.chargeNp t).ask t
      else t.tickSteps).fired := by
    split
    · exact StartSteps.not_mem_fired_chargeNp (by decide) (fresh (by decide))
    · exact fresh (by decide)
  dsimp only
  rw [np, State.through_chargeP unfired, State.through_askCharge]
  exact (apply_ite t.through _ _ _).symm

/-! ### What the charges leave -/

/-- Np after step 3: charged where its deadline is on (R101, R129). -/
def DeadlineRecord.chargedNp (d : DeadlineRecord) : Nat := if d.dn = 0 then d.np else min 255 (d.np + 1)

/-- P after step 4: charged where its deadline is on (R101, R128). -/
def DeadlineRecord.chargedP (d : DeadlineRecord) : Nat := if d.dp = 0 then d.p else min 65535 (d.p + d.q)

/-- The power-on deadline is on and fires by its charged count (R129). -/
abbrev DeadlineRecord.FiresNp (d : DeadlineRecord) : Prop := d.dn ≠ 0 ∧ d.dn < d.chargedNp

/-- The powered deadline is on and fires by its charged count (R128). -/
abbrev DeadlineRecord.FiresP (d : DeadlineRecord) : Prop := d.dp ≠ 0 ∧ d.dp ≤ d.chargedP

/-- The time source and the deadlines that are due have fired, in the order of steps 2 to 4. -/
def State.startFires (s : State) : StartSteps :=
  let d := s.stored.deadlines
  let c := if d.FiresNp then s.tickSteps.fire s .deadline srcPowerOn d.chargedNp else s.tickSteps
  if d.FiresP then c.fire s .deadline srcPowered d.chargedP else c

theorem State.tickSteps_deadlines : s.tickSteps.deadlines = s.work.deadlines := by
  unfold State.tickSteps
  dsimp only
  split <;> rfl

theorem State.tickSteps_charge : s.tickSteps.charge = false := by
  unfold State.tickSteps
  dsimp only
  split <;> rfl

/-- The counts charged, and whether a charge is submitted; what has fired stays as it is. -/
def StartSteps.counted (d : DeadlineRecord) (charge : Bool) (c : StartSteps) : StartSteps :=
  { c with deadlines := d, charge := charge }

theorem StartSteps.chargeNp_counted {d : DeadlineRecord} (stored : s.stored.deadlines = d) (deadlines : c.deadlines = d)
    (charge : c.charge = false) : (if c.deadlines.dn ≠ 0 then (c.chargeNp s).ask s else c)
      = (if d.FiresNp then c.fire s .deadline srcPowerOn d.chargedNp else c).counted
          { d with np := d.chargedNp } (decide (d.chargedNp ≠ d.np)) := by
  subst deadlines
  by_cases off : c.deadlines.dn = 0
  · have uncharged : c.deadlines.chargedNp = c.deadlines.np := if_pos off
    rw [if_neg (not_not.mpr off), if_neg fun h => h.1 off, uncharged, decide_eq_false (not_not.mpr rfl), ← charge]
    rfl
  · have charged : c.deadlines.chargedNp = min 255 (c.deadlines.np + 1) := if_neg off
    by_cases fires : c.deadlines.dn < c.deadlines.chargedNp
    · simp [off, fires, charge, stored, DeadlineRecord.FiresNp, StartSteps.chargeNp, StartSteps.ask,
        StartSteps.counted, StartSteps.fire, ← charged]
    · simp [off, fires, charge, stored, DeadlineRecord.FiresNp, StartSteps.chargeNp, StartSteps.ask,
        StartSteps.counted, ← charged]

theorem StartSteps.chargeP_counted {d : DeadlineRecord} (stored : s.stored.deadlines = d) {np : Nat} :
    let n := c.counted { d with np := np } (decide (np ≠ d.np))
    (if n.deadlines.dp ≠ 0 then (n.chargeP s).ask s else n)
      = (if d.FiresP then c.fire s .deadline srcPowered d.chargedP else c).counted
          { d with p := d.chargedP, np := np } (decide (d.chargedP ≠ d.p ∨ np ≠ d.np)) := by
  by_cases off : d.dp = 0
  · simp [off, DeadlineRecord.FiresP, DeadlineRecord.chargedP, StartSteps.counted]
  · have charged : d.chargedP = min 65535 (d.p + d.q) := if_neg off
    have moved : (!decide (np = d.np) || (!decide (d.chargedP = d.p) || !decide (np = d.np)))
        = (!decide (d.chargedP = d.p) || !decide (np = d.np)) := by
      cases decide (np = d.np) <;> simp
    by_cases fires : d.dp ≤ d.chargedP
    · simp [off, fires, stored, DeadlineRecord.FiresP, StartSteps.chargeP, StartSteps.ask,
        StartSteps.counted, StartSteps.fire, ← charged, moved]
    · simp [off, fires, stored, DeadlineRecord.FiresP, StartSteps.chargeP, StartSteps.ask,
        StartSteps.counted, ← charged, moved]

theorem State.startSteps_eq (copies : s.work.deadlines = s.stored.deadlines) :
    s.startSteps = s.startFires.counted
      { s.stored.deadlines with p := s.stored.deadlines.chargedP, np := s.stored.deadlines.chargedNp }
      (decide (s.stored.deadlines.chargedP ≠ s.stored.deadlines.p
        ∨ s.stored.deadlines.chargedNp ≠ s.stored.deadlines.np)) := by
  unfold State.startSteps State.startFires
  dsimp only
  rw [StartSteps.chargeNp_counted rfl (State.tickSteps_deadlines.trans copies) State.tickSteps_charge,
    StartSteps.chargeP_counted rfl]

/-! ### The event -/

theorem Condition.storable_eq (c : Condition) : c.storable = if c = .scrubbing then .scrubQueued else c := by
  cases c <;> rfl

theorem State.readStore_region (s : State) (r : RegionIx) : s.readStore.work.regions[r] =
    { s.stored.regions[r] with condition :=
        if s.stored.regions[r].condition = .scrubbing then .scrubQueued else s.stored.regions[r].condition } := by
  rw [← Condition.storable_eq]
  exact getElem_tabMap ..

theorem State.readStore_boundary (s : State) : s.readStore.boundary = boundaryOf s.stored.regions :=
  boundaryOf_congr fun r _ => by
    have record := s.readStore_region r
    exact ⟨(congrArg RegionRecord.enabled record :), (congrArg RegionRecord.extent record :)⟩

/-- Behind steps 1 to 4 nothing is due at the end of the store read but the gate: the response controller is not
released, no region is under erasure, and nothing is offered to the media. -/
theorem exec_storeReadEnd (phase : s.startUp.phase = .reading) (released : s.response.released = false)
    (triggers : s.response.triggers = []) (erases : s.erases = []) (idle : s.scrub.phase = .idle)
    (formed : s.scrub.formed = []) (queue : s.port.queue = []) (charge : s.deadlines.chargeHeld = false) :
    exec .storeReadEnd s = .next (s.quiet.readStore.through s.quiet.readStore.startSteps).serveStore := by
  have run : exec .storeReadEnd s
      = .next (if s.startUp.phase = .reading then s.quiet.firstSteps.settle else s.quiet) := rfl
  rw [run, if_pos phase, State.firstSteps_eq (s := s.quiet) triggers charge]
  generalize s.quiet.readStore.startSteps = c
  have busy : (s.quiet.readStore.through c).responseFree = false := by
    simp [State.responseFree, State.through, State.readStore, State.rebuildBoundary, released]
  have unwalked : (s.quiet.readStore.through c).walkDue = false := by
    unfold State.walkDue
    split <;> rfl
  have offered : (s.quiet.readStore.through c).offer = none := by
    have : (s.quiet.readStore.through c).scrub.formed = [] := formed
    simp [State.offer, this]
  have walking : (s.quiet.readStore.through c).scrub.phase ≠ .walking := by
    rw [show (s.quiet.readStore.through c).scrub.phase = .idle from idle]
    decide
  rw [State.settle_to_gate (State.responseStill_of_busy busy) (State.destructionsDue_of_no_erase erases)
    (fun e => nomatch e) unwalked ⟨walking, State.nextGrant_of_nothing_waiting offered queue⟩]

/-! ### What has fired after step 4 -/

theorem State.tickSteps_source : s.tickSteps.source = match s.time.early with
    | .nothing => s.time.source
    | .running => .slow
    | .late => .faulted := by
  unfold State.tickSteps
  dsimp only
  split <;> rfl

theorem State.startFires_source : s.startFires.source = s.tickSteps.source := by
  unfold State.startFires
  dsimp only
  split <;> split <;> rfl

theorem State.tickSteps_fired : s.tickSteps.fired = if s.time.early = .late then [srcTimeFault] else [] := by
  unfold State.tickSteps
  cases s.time.early <;> rfl

theorem State.startFires_fired : s.startFires.fired = s.tickSteps.fired
    ++ (if s.stored.deadlines.FiresNp then [srcPowerOn] else [])
    ++ (if s.stored.deadlines.FiresP then [srcPowered] else []) := by
  unfold State.startFires
  dsimp only
  split <;> split <;> simp [StartSteps.fire]

theorem State.mem_startFires_fired (n : SourceIx) : n ∈ s.startFires.fired
    ↔ n = srcTimeFault ∧ s.time.early = .late ∨ n = srcPowerOn ∧ s.stored.deadlines.FiresNp
      ∨ n = srcPowered ∧ s.stored.deadlines.FiresP := by
  simp only [State.startFires_fired, State.tickSteps_fired, List.mem_append, List.mem_ite_nil_right,
    List.mem_singleton, or_assoc, and_comm]

theorem State.powerOn_mem_startFires : srcPowerOn ∈ s.startFires.fired ↔ s.stored.deadlines.FiresNp := by
  simp [State.mem_startFires_fired, srcPowerOn, srcPowered, srcTimeFault]

theorem State.powered_mem_startFires : srcPowered ∈ s.startFires.fired ↔ s.stored.deadlines.FiresP := by
  simp [State.mem_startFires_fired, srcPowerOn, srcPowered, srcTimeFault]

theorem State.timeFault_mem_startFires : srcTimeFault ∈ s.startFires.fired ↔ s.time.early = .late := by
  simp [State.mem_startFires_fired, srcPowerOn, srcPowered, srcTimeFault]

theorem State.nodup_startFires_fired : s.startFires.fired.Nodup := by
  rw [State.startFires_fired, State.tickSteps_fired]
  split <;> split <;> split <;> decide

theorem State.tickSteps_alerts : s.tickSteps.alerts = if s.time.early = .late then
      s.alerts.arrive ⟨.timeFault, s.severityFor srcTimeFault, some srcTimeFault, none, some 1, s.time.stamp, 0⟩
    else s.alerts := by
  unfold State.tickSteps
  cases s.time.early <;> rfl

/-- The alerts of the charges stand behind that of the time source, the one of Np before the one of P. -/
theorem State.startFires_alerts : s.startFires.alerts =
    let q := if s.stored.deadlines.FiresNp then
        s.tickSteps.alerts.arrive ⟨.deadline, s.severityFor srcPowerOn, some srcPowerOn, none,
          some s.stored.deadlines.chargedNp, s.time.stamp, 0⟩
      else s.tickSteps.alerts
    if s.stored.deadlines.FiresP then
      q.arrive ⟨.deadline, s.severityFor srcPowered, some srcPowered, none, some s.stored.deadlines.chargedP,
        s.time.stamp, 0⟩
    else q := by
  unfold State.startFires
  dsimp only
  split <;> split <;> rfl

end

end Sys2Proof.Machine

namespace Sys2Proof.Proofs

open Sys2Proof Sys2Proof.Machine

/-- Settles O14: steps 1 to 4 leave the state that `State.firstSteps_eq` and `State.startSteps_eq` give, and nothing but
the gate follows in the event. -/
theorem storeReadCharges : Obligations.StoreReadCharges := by
  intro s start released triggers erases idle formed queue charge d np p
  have run := exec_storeReadEnd (by rw [start]) released triggers erases idle formed queue charge
  have gate (x : State) : ∃ w h m, x.serveStore = { x with
      store := { x.store with writing := w, headWaiting := h }, holdup := m } := ⟨_, _, _, x.serveStore_frame⟩
  obtain ⟨writing, waiting, monitor, served⟩ := gate (s.quiet.readStore.through s.quiet.readStore.startSteps)
  rw [served, State.startSteps_eq rfl] at run
  have table (n : SourceIx) := s.quiet.readStore.mem_sources_tableTriggers s.quiet.readStore.startFires.fired n
  have started : s.quiet.readStore.startUp = ⟨true, false, .reading⟩ := start
  have boundary : s.quiet.readStore.boundary = boundaryOf s.stored.regions := State.readStore_boundary s.quiet
  have source := s.quiet.readStore.startFires_source.trans s.quiet.readStore.tickSteps_source
  refine ⟨_, run, ?_, rfl, State.readStore_region s.quiet, boundary, rfl, rfl, rfl, rfl, rfl, ?_, ?_, ?_,
    fun e he => ?_, ?_, ?_, rfl, fun r => getElem_tabMap .., ?_, ?_⟩
  · rw [State.through, started]
  · exact (table srcPowerOn).trans ((and_congr_left' State.powerOn_mem_startFires).trans and_assoc)
  · exact (table srcPowered).trans ((and_congr_left' State.powered_mem_startFires).trans and_assoc)
  · exact (table srcTimeFault).trans (and_congr_left' State.timeFault_mem_startFires)
  · obtain ⟨fired, entry⟩ := State.eq_of_mem_tableTriggers _ _ he
    refine ⟨?_, entry⟩
    obtain ⟨h, -⟩ | ⟨h, -⟩ | ⟨h, -⟩ := (State.mem_startFires_fired _).mp fired <;> rw [h] <;> decide
  · exact (State.sources_tableTriggers ..).symm ▸ State.nodup_startFires_fired.filter _
  · exact if_congr decide_eq_true_iff rfl rfl
  · simp only [State.through, StartSteps.counted, started, boundary, source]
    rfl
  · exact State.startFires_alerts.trans (by rw [State.tickSteps_alerts]; rfl)

end Sys2Proof.Proofs
end
